-- ==== Sys2Proof/Word.lean ====
section
/-! DEFINITION. The word types of the block: bytes, 32-bit register words and 64-bit ship-time and cell-link words. -/

namespace Sys2Proof

/-- One byte of a memory, record or descriptor. -/
abbrev Byte := BitVec 8

/-- A 32-bit word: set-up registers (R565), period-program and pattern registers (R136, R286). -/
abbrev Word := BitVec 32

/-- A 64-bit word: ship time (R206), the payload of one cell-link block (R44), an OTP row (R510). -/
abbrev DWord := BitVec 64

end Sys2Proof
end

