-- ==== Sys2Proof/Machine/Bits.lean ====
section
/-! DEFINITION. Bit fields, byte order and saturation: the helpers every other file of the machine uses. Bytes are
little-endian (R12); fields are written [msb:lsb]. -/

namespace Sys2Proof.Machine

/-- The field [hi:lo] of a number. -/
def bitsOf (w hi lo : Nat) : Nat := (w >>> lo) % 2 ^ (hi + 1 - lo)

/-- Bit i of a number. -/
def bitOf (w i : Nat) : Bool := w.testBit i

/-- The field [hi:lo] of a 32-bit word. -/
def fld (w : Word) (hi lo : Nat) : Nat := bitsOf w.toNat hi lo

/-- Bit i of a 32-bit word. -/
def wbit (w : Word) (i : Nat) : Bool := w.getLsbD i

/-- A field value placed at bit lo of a 32-bit word. -/
def putf (lo len v : Nat) : Word := BitVec.ofNat 32 ((v % 2 ^ len) <<< lo)

/-- A flag placed at bit i of a 32-bit word. -/
def putb (i : Nat) (b : Bool) : Word := if b then BitVec.ofNat 32 (1 <<< i) else 0

/-- The mask of the field [hi:lo]. -/
def maskOf (hi lo : Nat) : Word := BitVec.ofNat 32 ((2 ^ (hi + 1 - lo) - 1) <<< lo)

/-- Replace the bits of `old` under `mask` with those of `new`. -/
def mergeBits (mask old new : Word) : Word := (old &&& ~~~mask) ||| (new &&& mask)

/-- Set or clear bit i of a bit vector. -/
def setBit {n : Nat} (v : BitVec n) (i : Nat) (b : Bool) : BitVec n :=
  if b then v ||| BitVec.ofNat n (2 ^ i) else v &&& ~~~BitVec.ofNat n (2 ^ i)

/-- The number 1 for true. -/
def b2n (b : Bool) : Nat := if b then 1 else 0

/-- Byte i of a list, 0 beyond its end. -/
def byteAt (l : List Byte) (i : Nat) : Nat := (l.getD i 0).toNat

/-- The little-endian number in n bytes at an offset (R12). -/
def leAt (l : List Byte) (off : Nat) : Nat → Nat
  | 0 => 0
  | n + 1 => byteAt l off + 256 * leAt l (off + 1) n

/-- A number below 2^bits read as two's complement. -/
def asSigned (bits v : Nat) : Int := if v % 2 ^ bits < 2 ^ (bits - 1) then (v % 2 ^ bits : Nat) else (v % 2 ^ bits : Nat) - (2 ^ bits : Nat)

/-- An integer as its two's-complement number of that many bits. -/
def toTwos (bits : Nat) (i : Int) : Nat := (i % (2 ^ bits : Nat)).toNat

/-- The signed little-endian number in n bytes at an offset. -/
def sleAt (l : List Byte) (off n : Nat) : Int := asSigned (8 * n) (leAt l off n)

/-- A number as n little-endian bytes. -/
def toLe : Nat → Nat → List Byte
  | 0, _ => []
  | n + 1, v => BitVec.ofNat 8 v :: toLe n (v / 256)

/-- Overwrite bytes of a list from an offset. -/
def patch (l : List Byte) (off : Nat) (bs : List Byte) : List Byte :=
  l.take off ++ bs ++ l.drop (off + bs.length)

/-- n bytes from an offset. -/
def slice (l : List Byte) (off n : Nat) : List Byte := (l.drop off).take n

/-- Pad or cut to n bytes. -/
def fitTo (n : Nat) (l : List Byte) : List Byte := l.take n ++ List.replicate (n - l.length) 0

/-- Every byte of a range is zero. -/
def zerosAt (l : List Byte) (off n : Nat) : Bool := leAt l off n == 0

/-- Clamp an integer between bounds. -/
def clampI (lo hi x : Int) : Int := if x < lo then lo else if hi < x then hi else x

/-- Saturate to 32-bit signed. -/
def sat32 (x : Int) : Word := BitVec.ofInt 32 (clampI (-2147483648) 2147483647 x)

/-- Saturating count up. -/
def satInc (max v : Nat) : Nat := if v < max then v + 1 else max

/-- A signed integer as a 32-bit word. -/
def wordI (x : Int) : Word := BitVec.ofInt 32 x

/-- A number as a 32-bit word. -/
def wordN (x : Nat) : Word := BitVec.ofNat 32 x

/-- One bit into the CRC of R46: polynomial x^16 + x^12 + x^5 + 1, most significant bit first. -/
def crcBit (crc : Nat) (b : Bool) : Nat :=
  let top := bitOf crc 15
  let sh := (2 * crc) % 65536
  if top != b then sh ^^^ 0x1021 else sh

/-- The low n bits of v into the CRC, most significant first. -/
def crcBits (crc : Nat) (v : Nat) : Nat → Nat
  | 0 => crc
  | n + 1 => crcBits (crcBit crc (bitOf v n)) v n

/-- The CRC of a list of bytes, starting value 0xFFFF (R46). -/
def crcBytes (l : List Byte) : Nat := l.foldl (fun c b => crcBits c b.toNat 8) 0xFFFF

/-- The CRC of a list of 64-bit words and then n bits of a further number (R46, R51). -/
def crcWords (ws : List DWord) (last n : Nat) : Nat :=
  crcBits (ws.foldl (fun c w => crcBits c w.toNat 64) 0xFFFF) last n

/-- Population count of a list of flags. -/
def countTrue (l : List Bool) : Nat := l.foldl (fun n b => n + b2n b) 0

/-- The numbers below n whose bit is set. -/
def setBitsOf (n v : Nat) : List Nat := (List.range n).filter (bitOf v)

/-- Sum of a list of naturals. -/
def sumN (l : List Nat) : Nat := l.foldl (· + ·) 0

/-- Sum of a list of integers. -/
def sumI (l : List Int) : Int := l.foldl (· + ·) 0

/-- Replace element i of a list (no change past its end). -/
def setAt {α : Type} : List α → Nat → α → List α
  | [], _, _ => []
  | _ :: t, 0, v => v :: t
  | h :: t, i + 1, v => h :: setAt t i v

/-- Insert without repeats into a list of numbers kept rising. -/
def insertN : List Nat → Nat → List Nat
  | [], i => [i]
  | h :: t, i => if i < h then i :: h :: t else if i = h then h :: t else h :: insertN t i

end Sys2Proof.Machine
end

