-- ==== Sys2Proof/Syntax.lean ====
section
/-! DEFINITION. The commands of the block: one constructor of `Instr` per row of spec/opcode_table.json, and the data
they carry. The table gives the rows no operands; what each carries is the model's choice (log entry 2): unit numbers as
bounded numbers, a register write as the whole word written, what arrives from outside (a superframe, a host-memory
read, a dovetail item) as the data that arrives, and measured quantities for which the spec states no arithmetic (log entry 6). -/

namespace Sys2Proof

/-- What a memory read's SECDED or page ECC reports (R493, R555). -/
inductive Ecc where
  | ok
  | corrected
  | uncorrectable
deriving DecidableEq, Repr

/-- What a read of host memory returns: its bytes, or an error or poisoned data (R355, R358). -/
inductive HostRead where
  | data (bytes : List Byte)
  | failed
deriving DecidableEq, Repr

/-- One access through the debug chain (R538): a lockstep pair of management cores is halted by either of its cores, resumed or stepped; registers and memory are read or
written; the same of a pattern thread, and words of a period-program memory. `f`, `ecc`: what the memories' ECC reports to the stepped instruction. -/
inductive DbgReq where
  | select
  | halt (pair : Fin 2) (core : Fin 2)
  | resume (pair : Fin 2)
  | stepCore (pair : Fin 2)
  | readCore (pair : Fin 2) (r : Fin 4096)
  | writeCore (pair : Fin 2) (r : Fin 4096) (v : Word)
  | readMem (adr : Nat)
  | writeMem (adr : Nat) (v : Word)
  | haltThread (t : Fin 16)
  | resumeThread (t : Fin 16)
  | stepThread (t : Fin 16) (f ecc : Ecc)
  | readThread (t r : Fin 16)
  | writeThread (t r : Fin 16) (v : Word)
  | readProgram (e : Fin 1088) (a : Fin 256)
  | writeProgram (e : Fin 1088) (a : Fin 256) (v : Word)
deriving DecidableEq, Repr

/-- The paths into the supervisor space (R567). -/
inductive Path where
  | bar0
  | twowire
  | firmware
deriving DecidableEq, Repr

/-- A decoded quadrature movement (R218): `both` is A and B changing in the same filtered sample. -/
inductive QuadMove where
  | up
  | down
  | both
deriving DecidableEq, Repr

/-- Readings of a window comparator (R432). -/
inductive WcRead where
  | inside
  | below
  | above
deriving DecidableEq, Repr

/-- The throttle classes (R440). -/
inductive ThrClass where
  | bulk
  | analytics
deriving DecidableEq, Repr

/-- The reset sources of R462, in the order of R489. -/
inductive RstSrc where
  | por
  | bor
  | mrN
  | layup
  | wdt
  | twin
  | host
  | safety
  | therm
deriving DecidableEq, Repr

/-- The estimates of one health record whose arithmetic the spec does not give (R148): the threshold voltages in mV, the thermal impedance in units of its own, and how many usable samples the
last rests on (R149). -/
structure HealthEst where
  vthHs : Int := 0
  vthLs : Int := 0
  zth : Nat := 0
  nZth : Nat := 0
deriving DecidableEq, Repr

/-- What the rail hardware measures over the lead period that a LEAD_BOUNDARY closes and for which the spec states no
arithmetic (log entry 6): the line amplitude in 0.1 V and frequency in 0.01 Hz and whether its phase sequence is 0, 1, 2
(R193), the cycle loop's phase, its frequency in 0.001 Hz and whether its phase error has been below 1 degree over 8
half-cycles (R226, R227), and the GEN_TRIP_N inputs asserted at the boundary. -/
structure LeadMeas where
  lineAmpl : Nat := 0
  lineFreq : Nat := 0
  phaseSeq : Bool := false
  pllPhase : Word := 0
  pllRate : Nat := 0
  pllLocked : Bool := false
  trips : BitVec 8 := 0
deriving DecidableEq, Repr

/-- Twin states (R394). -/
inductive TwinState where
  | off
  | solo
  | active
  | joining
  | shadow
  | taking
  | detached
deriving DecidableEq, Repr

/-- A decided grant or pending request of the planner (R252, R256 to R270). `thread` is none for a host request;
`addr` is the address of its outcome record. Powers in W, energies in uJ (W x us), so that booking is exact. -/
structure Grant where
  tag : Nat
  thread : Option Nat
  addr : Nat
  rail : Nat
  cls : Nat
  deferrable : Bool
  curtailable : Bool
  regen : Bool
  peak : Nat
  pminAcc : Nat
  standing : Bool
  remaining : Nat
  earliest : Word
  latest : Word
  start : Word
  power : Nat
  current : Nat
  booked : Nat
  started : Bool
  provSent : Bool
  aborted : Bool
  ended : Bool
deriving DecidableEq, Repr

/-- The targets of one rail for a slot: the eight class portions of GRANT_HI in W, and the GRANT_LO target (R272, R273). -/
structure Target where
  rail : Nat
  portions : List Nat
  lo : Int
deriving DecidableEq, Repr

/-- A pass result as the twins exchange it (R396): the committed slot, the ST of its start, the decided grants, the targets, the trip-shed entries, the outcomes (tag, thread and
record of every request that the pass has ended; an aborted one has no record), and whether the slot is carried (R243). -/
structure PassResult where
  slot : Word
  startSt : DWord
  grants : List Grant
  targets : List Target
  shed : List (List Nat)
  outcomes : List (Nat × Option Nat × List Byte) := []
  carried : Bool := false
deriving DecidableEq, Repr

/-- The items of the dovetail link (R396), with what pairing compares (R391) and what a join compares and copies (R416). -/
inductive DvItem where
  | stamp (st : DWord) (state : TwinState) (term : Word) (dvUp : BitVec 8) (port : Bool) (grade : BitVec 2) (proto : Byte)
  | crcBitmap (bad : List (Fin 1024))
  | outDigest (e : Fin 1088) (crc : BitVec 16)
  | pubDigest (m : Fin 64) (crc : BitVec 16)
  | railOp (desc : List Byte) (at_ : DWord)
  | rsp (rail : Fin 64) (value : Word) (at_ : DWord)
  | request (g : Grant)
  | passResult (r : PassResult)
  | ledgerMem (cells : List (Nat × Byte))
  | realignCopy (m : Fin 64) (railMem : List (Nat × Byte)) (drawers : List (Nat × Byte))
  | joinState (slot : Word) (startSt : DWord) (term : Word) (rails : List (Nat × Byte)) (drawers : List (Nat × Byte)) (ledger : List (Nat × Byte)) (grants : List Grant)
    (reqs : List Grant) (targets : List Target) (shed : List (List Nat))
  | laneFaults (lanes : List (Fin 1024))
deriving DecidableEq, Repr

/-- The commands. -/
inductive Instr where
  /-- UPSTREAM_SUPERFRAME (R47). An upstream superframe arrives on a lane whole; its CRC is checked and, if it passes, its samples and trailer go to the engine, guard, capture and lane state. -/
  | upstreamSuperframe (n : Fin 1024) (w : List (BitVec 2 × DWord)) (roundTrip : Nat)
  /-- DOWNSTREAM_SUPERFRAME (R57). The device sends one downstream superframe on a lane with command blocks and a trailer carrying SEQ and ROLE. -/
  | downstreamSuperframe (n : Fin 1024)
  /-- LANE_LOCK_LOST (R101). A lane loses upstream superframe lock; in RUN it enters FAULT with CAUSE 0x7, and in other states bring-up restarts as stated. -/
  | laneLockLost (n : Fin 1024)
  /-- LANE_BLIND (R552). Two consecutive superframe periods without a CRC-good superframe make the guard hold back unsent turn-ons and set LANE_BLIND. -/
  | laneBlind (n : Fin 1024)
  /-- LANE_RETRAIN (R99). A write of RETRAIN to LINK.LANE_CTL restarts lane bring-up at step 1. -/
  | laneRetrain (v : Word)
  /-- LANE_EN_WRITE (R99). A write of LINK.LANE_CTL.EN silences the lane or, from 0 to 1, starts its training. -/
  | laneEnWrite (v : Word)
  /-- BRING_UP_STEP_TIMEOUT (R94). A bring-up step misses its time, so bring-up restarts, or after three attempts the lane enters FAULT. -/
  | bringUpStepTimeout (n : Fin 1024)
  /-- CELL_PERIOD_BOUNDARY (R106). At a cell's period boundary the engine closes the summary, applies a pending swap and the grant, and starts the period program. -/
  | cellPeriodBoundary (n : Fin 1024) (f : Ecc)
  /-- PROGRAM_OVERRUN (R108). A period program passes its budget; its outputs are discarded, the previous outputs repeat, and OVERRUN is set. -/
  | programOverrun (e : Fin 1088)
  /-- GUARD_DUTY_LIMIT (R117). The high side has been commanded on for DUTY_MAX x T with no off-edge, and the guard sends a high-side off guard edge. -/
  | guardDutyLimit (n : Fin 1024)
  /-- HEALTH_RECORD_CLOSE (R148). At the end of each HEALTH_INTERVAL the engine closes a health record and sends a HEALTH event. -/
  | healthRecordClose (n : Fin 1024) (h : HealthEst)
  /-- GUARD_DATA_WRITE (R114). A write to ENGINE.GUARD_DATA stores a guard-set or guard-map word, or is rejected with WR_REJ while a lane is in RUN or after seal. -/
  | guardDataWrite (v : Word)
  /-- ENGINE_STALL (R157). The drawer declares a cell engine STALLED after 8 us without a heartbeat or two missed ENDs, and halts its sequencer. -/
  | engineStall (n : Fin 1024)
  /-- COLD_TAKEOVER (R158). A free relief engine takes a stalled cell cold at the first boundary at least 2 us after the stall. -/
  | coldTakeover (n : Fin 1024)
  /-- RELIEF_STATE_COPY (R152). At the end of the cell engine's first run after fan-out, its registers and local data are copied into the relief engine. -/
  | reliefStateCopy (k : Fin 64)
  /-- TAKEOVER_BOUNDARY (R153). At the takeover boundary the merger switches the cell's commands and HEARTBEAT to the taking engine, and the other engine enters its selvedge or is freed. -/
  | takeoverBoundary (k : Fin 64)
  /-- PP_NOP (R141). Period-program NOP does nothing for one cycle. -/
  | ppNop (e : Fin 1088) (f : Ecc)
  /-- PP_ADD (R141). Period-program ADD writes ra + rb, wrapping, to rd. -/
  | ppAdd (e : Fin 1088) (f : Ecc)
  /-- PP_SUB (R141). Period-program SUB writes ra - rb, wrapping, to rd. -/
  | ppSub (e : Fin 1088) (f : Ecc)
  /-- PP_ADDS (R141). Period-program ADDS writes the saturated sum to rd. -/
  | ppAdds (e : Fin 1088) (f : Ecc)
  /-- PP_SUBS (R141). Period-program SUBS writes the saturated difference to rd. -/
  | ppSubs (e : Fin 1088) (f : Ecc)
  /-- PP_MUL (R141). Period-program MUL writes the low 32 bits of the product to rd. -/
  | ppMul (e : Fin 1088) (f : Ecc)
  /-- PP_MULH (R141). Period-program MULH writes the high 32 bits of the signed product to rd. -/
  | ppMulh (e : Fin 1088) (f : Ecc)
  /-- PP_QMUL (R141). Period-program QMUL writes the saturated Q16.16 product to rd. -/
  | ppQmul (e : Fin 1088) (f : Ecc)
  /-- PP_DIV (R141). Period-program DIV writes the truncated quotient to rd, with fixed results for division by zero. -/
  | ppDiv (e : Fin 1088) (f : Ecc)
  /-- PP_AND (R141). Period-program AND writes the bitwise and to rd. -/
  | ppAnd (e : Fin 1088) (f : Ecc)
  /-- PP_OR (R141). Period-program OR writes the bitwise or to rd. -/
  | ppOr (e : Fin 1088) (f : Ecc)
  /-- PP_XOR (R141). Period-program XOR writes the bitwise exclusive or to rd. -/
  | ppXor (e : Fin 1088) (f : Ecc)
  /-- PP_SHL (R141). Period-program SHL shifts ra left by rb[4:0]. -/
  | ppShl (e : Fin 1088) (f : Ecc)
  /-- PP_SHR (R141). Period-program SHR shifts ra right logically by rb[4:0]. -/
  | ppShr (e : Fin 1088) (f : Ecc)
  /-- PP_SAR (R141). Period-program SAR shifts ra right arithmetically by rb[4:0]. -/
  | ppSar (e : Fin 1088) (f : Ecc)
  /-- PP_MIN (R141). Period-program MIN writes the signed minimum to rd. -/
  | ppMin (e : Fin 1088) (f : Ecc)
  /-- PP_MAX (R141). Period-program MAX writes the signed maximum to rd. -/
  | ppMax (e : Fin 1088) (f : Ecc)
  /-- PP_ABS (R141). Period-program ABS writes the saturated magnitude of ra to rd. -/
  | ppAbs (e : Fin 1088) (f : Ecc)
  /-- PP_ADDI (R141). Period-program ADDI adds a sign-extended immediate to ra. -/
  | ppAddi (e : Fin 1088) (f : Ecc)
  /-- PP_ANDI (R141). Period-program ANDI ands ra with the immediate. -/
  | ppAndi (e : Fin 1088) (f : Ecc)
  /-- PP_ORI (R141). Period-program ORI ors ra with the immediate. -/
  | ppOri (e : Fin 1088) (f : Ecc)
  /-- PP_SHLI (R141). Period-program SHLI shifts ra left by an immediate amount. -/
  | ppShli (e : Fin 1088) (f : Ecc)
  /-- PP_SHRI (R141). Period-program SHRI shifts ra right logically by an immediate amount. -/
  | ppShri (e : Fin 1088) (f : Ecc)
  /-- PP_SARI (R141). Period-program SARI shifts ra right arithmetically by an immediate amount. -/
  | ppSari (e : Fin 1088) (f : Ecc)
  /-- PP_LUI (R141). Period-program LUI loads imm16 << 16 into rd. -/
  | ppLui (e : Fin 1088) (f : Ecc)
  /-- PP_LI (R141). Period-program LI loads the sign-extended immediate into rd. -/
  | ppLi (e : Fin 1088) (f : Ecc)
  /-- PP_LD (R136). Period-program LD loads a word from the engine's memory map into rd. -/
  | ppLd (e : Fin 1088) (f : Ecc) (ecc : Ecc)
  /-- PP_ST (R136). Period-program ST stores rd to a writable word of the engine's memory map. -/
  | ppSt (e : Fin 1088) (f : Ecc)
  /-- PP_BEQ (R141). Period-program BEQ branches when ra equals rb. -/
  | ppBeq (e : Fin 1088) (f : Ecc)
  /-- PP_BNE (R141). Period-program BNE branches when ra differs from rb. -/
  | ppBne (e : Fin 1088) (f : Ecc)
  /-- PP_BLT (R141). Period-program BLT branches when ra is less than rb, signed. -/
  | ppBlt (e : Fin 1088) (f : Ecc)
  /-- PP_BGE (R141). Period-program BGE branches when ra is at least rb, signed. -/
  | ppBge (e : Fin 1088) (f : Ecc)
  /-- PP_JMP (R141). Period-program JMP jumps to TARGET. -/
  | ppJmp (e : Fin 1088) (f : Ecc)
  /-- PP_EVT (R141). Period-program EVT raises pattern event NUM. -/
  | ppEvt (e : Fin 1088) (f : Ecc)
  /-- PP_END (R107). Period-program END ends the run, and its outputs take effect for the next period. -/
  | ppEnd (e : Fin 1088) (f : Ecc)
  /-- LEAD_BOUNDARY (R174). At a rail lead boundary the rail hardware words close and the rail state, sub-state, envelope and hand-over conditions are evaluated. -/
  | leadBoundary (m : Fin 64) (x : LeadMeas)
  /-- RAIL_PUBLICATION (R173). At b + PUB_DELAY the lead's staged publication is published, or discarded with PUB_LATE. -/
  | railPublication (m : Fin 64)
  /-- PREARM_HOLD_EXPIRY (R170). PREARM_HOLD passes without a started grant, and the ARMED rail returns to STANDBY. -/
  | prearmHoldExpiry (m : Fin 64)
  /-- ENV_TRIP (R177). ENV_DWELL consecutive envelope breaches put the rail in ENV_TRIP and raise an ENV_TRIP event. -/
  | envTrip (m : Fin 64)
  /-- BURST_END (R184). The undershoot burst ends on recovery or at BURST_MAX x T, and the cells resume PWM at their boundaries. -/
  | burstEnd (m : Fin 64)
  /-- UNDERSHOOT_HOLDOFF_END (R182). UNDERSHOOT_HOLDOFF lead periods after a burst, the undershoot detector is armed again. -/
  | undershootHoldoffEnd (m : Fin 64)
  /-- SYNC_IN_EDGE (R187). A rising edge on SYNC_IN is taken for acquisition and period steering. -/
  | syncInEdge
  /-- SYNC_EDGE_MISSING (R188). An expected SYNC_IN edge does not come; after three misses the rail clears SYNCED and starts a glide. -/
  | syncEdgeMissing
  /-- GLIDE_COMPLETE (R188). The gliding feeder's period reaches T and GLIDE clears. -/
  | glideComplete (m : Fin 64)
  /-- SOURCE_QUALIFIED (R193). The line has held its window for SRC_QUAL_TIME and the source becomes QUALIFIED. -/
  | sourceQualified (m : Fin 64)
  /-- SOURCE_ONLINE (R194). A syncing source has matched its line and closed its current loops, and becomes ONLINE. -/
  | sourceOnline (m : Fin 64)
  /-- SOURCE_LOSS (R195). A source is declared lost by its trip input or LOSS_HALF half-cycles out of window, and enters LOST at the next lead boundary. -/
  | sourceLoss (m : Fin 64) (byTrip : Bool)
  /-- HANDOVER_DONE (R202). Four consecutive lead periods within band reach HANDOVER_DONE, raising HO_DONE and releasing HELD sources to QUALIFYING. -/
  | handoverDone
  /-- HO_LATE (R202). One slot after the loss without HANDOVER_DONE, the device raises HO_LATE. -/
  | hoLate
  /-- TAPER_DONE (R197). The CV current has stayed below I_TAPER for TAPER_TIME, and charging ends in TAPER_DONE. -/
  | taperDone (m : Fin 64)
  /-- LIMITS_STALE (R200). The STORE fields have not been renewed within LIMIT_TTL, so the rail sets LIMITS_STALE and stops charging. -/
  | limitsStale (m : Fin 64)
  /-- PPS_EDGE (R211). A rising PPS_IN edge is time-stamped, accepted or rejected, and steers ST. -/
  | ppsEdge (freqErr : Int)
  /-- DISC_HOLDOVER (R215). 3 s pass without an accepted PPS edge, and discipline enters HOLDOVER. -/
  | discHoldover
  /-- ST_STEP (R214). A write of TIME.DISC_CTL.STEP loads ST_SET into ST, or is refused with STEP_REJ. -/
  | stStep (v : Word)
  /-- DISC_MODE_SET (R210). A write of TIME.DISC_CTL.MODE changes the steering mode and the discipline state. -/
  | discModeSet (v : Word)
  /-- ST_LO_READ (R209). A read of TIME.ST_LO returns ST bits [31:0] and latches bits [63:32] into TIME.ST_HI. -/
  | stLoRead
  /-- ENC_COUNT (R218). A filtered quadrature transition on A or B counts the angle source up or down, or faults it. -/
  | encCount (k : Fin 16) (mv : QuadMove)
  /-- ENC_Z_EDGE (R219). A Z edge sets or checks the quadrature count, makes the source VALID, or faults or clears it. -/
  | encZEdge (k : Fin 16)
  /-- SSI_FRAME (R220). An SSI frame is read and checked, updating the angle source or faulting it. -/
  | ssiFrame (k : Fin 16) (bHigh : Bool) (raw : DWord)
  /-- ANGLE_TICK (R221). At each angle tick each enabled source produces an angle sample and speed estimate for the quarters. -/
  | angleTick
  /-- ENC_CFG_WRITE (R219). A write of TIME.ENC_CFG reconfigures the angle source and clears a fault held with ZEN = 0. -/
  | encCfgWrite (v : Word)
  /-- ENC_ANGLE_READ (R217). A read of TIME.ENC_ANGLE returns the angle and latches ENC_TURN and ENC_SPEED. -/
  | encAngleRead
  /-- CYC_AMPLITUDE_LOSS (R228). The line amplitude has been below 20 % for 2 ms, and a tracking cycle source enters HOLDOVER. -/
  | cycAmplitudeLoss (k : Fin 4)
  /-- CYC_HOLD_EXPIRY (R228). The hold time passes in HOLDOVER, and the cycle source becomes INVALID. -/
  | cycHoldExpiry (k : Fin 4)
  /-- MARK_FIRE (R231). A mark reaches its fire instant and reports FIRED, LATE or HOLD to its consumer, re-arming if it repeats. -/
  | markFire (k : Nat)
  /-- SLOT_BOUNDARY (R244). At a slot boundary the planner books the closed slot, ends spent grants and writes the targets of the committed slot. -/
  | slotBoundary
  /-- PASS_START (R241). The planning pass for the next slot starts at the predicted boundary minus the commit lead and takes in the pending requests. -/
  | passStart
  /-- PASS_END (R262). The pass ends, which is the commit point of its requests, and its outcomes, notices and targets are fixed. -/
  | passEnd (ecc : Ecc)
  /-- GEN_TRIP_N_FALL (R278). A falling edge of an enabled GEN_TRIP_N input held for FILT fires trip-shed entry i and latches it. -/
  | genTripNFall (k : Fin 8)
  /-- PAT_NOP (R290). Pattern NOP does nothing for one cycle. -/
  | patNop (t : Fin 16) (f : Ecc)
  /-- PAT_ADD (R290). Pattern ADD writes ra + rb to rd. -/
  | patAdd (t : Fin 16) (f : Ecc)
  /-- PAT_SUB (R290). Pattern SUB writes ra - rb to rd. -/
  | patSub (t : Fin 16) (f : Ecc)
  /-- PAT_AND (R290). Pattern AND writes the bitwise and to rd. -/
  | patAnd (t : Fin 16) (f : Ecc)
  /-- PAT_OR (R290). Pattern OR writes the bitwise or to rd. -/
  | patOr (t : Fin 16) (f : Ecc)
  /-- PAT_XOR (R290). Pattern XOR writes the bitwise exclusive or to rd. -/
  | patXor (t : Fin 16) (f : Ecc)
  /-- PAT_SHL (R290). Pattern SHL shifts ra left by rb[4:0]. -/
  | patShl (t : Fin 16) (f : Ecc)
  /-- PAT_SHR (R290). Pattern SHR shifts ra right logically. -/
  | patShr (t : Fin 16) (f : Ecc)
  /-- PAT_SAR (R290). Pattern SAR shifts ra right arithmetically. -/
  | patSar (t : Fin 16) (f : Ecc)
  /-- PAT_MUL (R290). Pattern MUL writes the low 32 bits of the product. -/
  | patMul (t : Fin 16) (f : Ecc)
  /-- PAT_MULH (R290). Pattern MULH writes the high 32 bits of the signed product. -/
  | patMulh (t : Fin 16) (f : Ecc)
  /-- PAT_MIN (R290). Pattern MIN writes the signed minimum. -/
  | patMin (t : Fin 16) (f : Ecc)
  /-- PAT_MAX (R290). Pattern MAX writes the signed maximum. -/
  | patMax (t : Fin 16) (f : Ecc)
  /-- PAT_SLT (R290). Pattern SLT writes 1 when ra is less than rb, signed. -/
  | patSlt (t : Fin 16) (f : Ecc)
  /-- PAT_SLTU (R290). Pattern SLTU writes 1 when ra is less than rb, unsigned. -/
  | patSltu (t : Fin 16) (f : Ecc)
  /-- PAT_ADDI (R290). Pattern ADDI adds an immediate to ra. -/
  | patAddi (t : Fin 16) (f : Ecc)
  /-- PAT_ANDI (R290). Pattern ANDI ands ra with an immediate. -/
  | patAndi (t : Fin 16) (f : Ecc)
  /-- PAT_ORI (R290). Pattern ORI ors ra with an immediate. -/
  | patOri (t : Fin 16) (f : Ecc)
  /-- PAT_XORI (R290). Pattern XORI exclusive-ors ra with an immediate. -/
  | patXori (t : Fin 16) (f : Ecc)
  /-- PAT_SHLI (R290). Pattern SHLI shifts left by an immediate amount. -/
  | patShli (t : Fin 16) (f : Ecc)
  /-- PAT_SHRI (R290). Pattern SHRI shifts right logically by an immediate amount. -/
  | patShri (t : Fin 16) (f : Ecc)
  /-- PAT_SARI (R290). Pattern SARI shifts right arithmetically by an immediate amount. -/
  | patSari (t : Fin 16) (f : Ecc)
  /-- PAT_LUI (R290). Pattern LUI loads imm16 << 16. -/
  | patLui (t : Fin 16) (f : Ecc)
  /-- PAT_LI (R290). Pattern LI loads a sign-extended immediate. -/
  | patLi (t : Fin 16) (f : Ecc)
  /-- PAT_LD (R308). Pattern LD loads a word, forwarded from the store buffer or read from ledger memory. -/
  | patLd (t : Fin 16) (f : Ecc) (ecc : Ecc)
  /-- PAT_LDH (R308). Pattern LDH loads a zero-extended half-word. -/
  | patLdh (t : Fin 16) (f : Ecc) (ecc : Ecc)
  /-- PAT_LDB (R308). Pattern LDB loads a zero-extended byte. -/
  | patLdb (t : Fin 16) (f : Ecc) (ecc : Ecc)
  /-- PAT_ST (R307). Pattern ST enters a word store into the store buffer. -/
  | patSt (t : Fin 16) (f : Ecc)
  /-- PAT_STH (R307). Pattern STH enters a half-word store into the store buffer. -/
  | patSth (t : Fin 16) (f : Ecc)
  /-- PAT_STB (R307). Pattern STB enters a byte store into the store buffer. -/
  | patStb (t : Fin 16) (f : Ecc)
  /-- PAT_XCHG (R290). Pattern XCHG drains the buffer and atomically exchanges rd with a ledger word. -/
  | patXchg (t : Fin 16) (f : Ecc) (ecc : Ecc)
  /-- PAT_BEQ (R290). Pattern BEQ branches when equal. -/
  | patBeq (t : Fin 16) (f : Ecc)
  /-- PAT_BNE (R290). Pattern BNE branches when not equal. -/
  | patBne (t : Fin 16) (f : Ecc)
  /-- PAT_BLT (R290). Pattern BLT branches when less, signed. -/
  | patBlt (t : Fin 16) (f : Ecc)
  /-- PAT_BGE (R290). Pattern BGE branches when greater or equal, signed. -/
  | patBge (t : Fin 16) (f : Ecc)
  /-- PAT_BLTU (R290). Pattern BLTU branches when less, unsigned. -/
  | patBltu (t : Fin 16) (f : Ecc)
  /-- PAT_BGEU (R290). Pattern BGEU branches when greater or equal, unsigned. -/
  | patBgeu (t : Fin 16) (f : Ecc)
  /-- PAT_JMP (R290). Pattern JMP jumps to 4 x TARGET. -/
  | patJmp (t : Fin 16) (f : Ecc)
  /-- PAT_CALL (R290). Pattern CALL writes the return address to the link register and jumps. -/
  | patCall (t : Fin 16) (f : Ecc)
  /-- PAT_JR (R290). Pattern JR jumps to ra + imm. -/
  | patJr (t : Fin 16) (f : Ecc)
  /-- PAT_WAITE (R293). Pattern WAITE waits for an event to be pending for the thread, with an optional timeout. -/
  | patWaite (t : Fin 16) (f : Ecc)
  /-- PAT_WAITM (R294). Pattern WAITM arms a mark word and waits for it to report. -/
  | patWaitm (t : Fin 16) (f : Ecc) (ecc : Ecc)
  /-- PAT_EMIT (R298). Pattern EMIT drains the store buffer and raises an event. -/
  | patEmit (t : Fin 16) (f : Ecc)
  /-- PAT_EVCLR (R290). Pattern EVCLR clears the thread's pending bit of an event. -/
  | patEvclr (t : Fin 16) (f : Ecc)
  /-- PAT_GRANT (R309). Pattern GRANT drains the buffer, checks a request record and posts it with a tag from the thread's block. -/
  | patGrant (t : Fin 16) (f : Ecc) (ecc : Ecc)
  /-- PAT_GREL (R312). Pattern GREL releases one of the thread's decided grants by tag. -/
  | patGrel (t : Fin 16) (f : Ecc)
  /-- PAT_KICK (R314). Pattern KICK kicks the watchdog when the thread is enabled in KICK_EN. -/
  | patKick (t : Fin 16) (f : Ecc)
  /-- PAT_RETI (R303). Pattern RETI returns from the innermost handler. -/
  | patReti (t : Fin 16) (f : Ecc)
  /-- PAT_MFS (R292). Pattern MFS reads a special register. -/
  | patMfs (t : Fin 16) (f : Ecc)
  /-- PAT_MTS (R292). Pattern MTS writes a special register. -/
  | patMts (t : Fin 16) (f : Ecc)
  /-- PAT_SYNC (R308). Pattern SYNC waits until the thread's store buffer is empty. -/
  | patSync (t : Fin 16) (f : Ecc)
  /-- PAT_HALT (R290). Pattern HALT drains the buffer and the thread enters HALTED. -/
  | patHalt (t : Fin 16) (f : Ecc)
  /-- PAT_RSP (R313). Pattern RSP writes a rail's SETPOINT and increments SP_SEQ. -/
  | patRsp (t : Fin 16) (f : Ecc)
  /-- WAITE_COMPLETE (R293). The awaited event becomes pending, and the thread's WAITE completes and clears it. -/
  | waiteComplete (t : Fin 16)
  /-- WAITE_TIMEOUT (R293). A WAITE's timeout passes, and it completes with TIMEOUT. -/
  | waiteTimeout (t : Fin 16)
  /-- WAITM_COMPLETE (R294). The armed mark reports, and the thread's WAITM completes with the outcome and fire instant. -/
  | waitmComplete (t : Fin 16)
  /-- INTERRUPT_CLAIM (R302). A thread claims its selected interrupt at its next instruction boundary and jumps to the vector. -/
  | interruptClaim (t : Fin 16)
  /-- STORE_BUFFER_DRAIN (R307). One store-buffer entry drains to ledger memory and becomes visible to others. -/
  | storeBufferDrain (t : Fin 16)
  /-- DEADLOCK_BREAK (R316). The deadlock condition has held for two slot lengths; the highest-numbered waiting thread's WAITE completes DEADLOCK_BREAK. -/
  | deadlockBreak
  /-- EV_PEND_WRITE (R302). A host write of 1 to PATTERN.EV_PEND clears pending bits and withdraws the interrupts. -/
  | evPendWrite (v : Word)
  /-- NUDGE (R329). A write to NUDGE makes the device start a read of the doorbell page within 1 us. -/
  | nudge
  /-- DOORBELL_POLL (R329). The DB_POLL interval expires, and the device starts a read of the doorbell page. -/
  | doorbellPoll
  /-- DOORBELL_READ_COMPLETE (R329). A doorbell read returns, and the new tails and heads are taken. -/
  | doorbellReadComplete (d : HostRead)
  /-- DESCRIPTOR_FETCH (R326). The device fetches a posted descriptor whole, checks it and starts it. -/
  | descriptorFetch (q : Fin 64) (d : HostRead)
  /-- EXTENT_FETCH (R359). The device fetches a posted archive extent whole and checks it. -/
  | extentFetch (a : Fin 8) (d : HostRead)
  /-- CQ_RECORD_RELEASE (R342). Held-back completion records are written once CQ_HEAD frees slots. -/
  | cqRecordRelease (q : Fin 64)
  /-- EQ_RECORD_RELEASE (R352). Waiting event records are written once EQ_HEAD frees slots. -/
  | eqRecordRelease
  /-- MSIX_COAL_TIMER (R354). COAL_T passes after the first unsignalled record, and the ring's MSI-X message is sent. -/
  | msixCoalTimer (k : Fin 65)
  /-- RING_ENABLE (R331). A write of RING_CFG.EN = 1 enables a ring with indices at 0, or is refused with BAD_CFG. -/
  | ringEnable (v : Word)
  /-- RING_DISABLE (R357). A write of RING_CFG.EN = 0 stops new entries being taken from the ring. -/
  | ringDisable (v : Word)
  /-- HOST_RESET_KEY (R357). A write of 0xA5 to HOST.CTL.RESET_KEY raises the HOST reset source. -/
  | hostResetKey (v : Word)
  /-- PERST (R481). PCIe PERST# resets only the endpoint's link state, and may wake the device. -/
  | perst (deasserted : Bool)
  /-- MALFORMED_ACCESS (R565). A malformed BAR0 access is discarded or reads 0 and is counted in GLOBAL.ACC_ERR. -/
  | malformedAccess (isWrite : Bool)
  /-- REGISTER_WRITE (R13). A write to a register without a row of its own takes effect according to its access code. -/
  | registerWrite (p : Path) (off : Nat) (v : Word)
  /-- RC_REGISTER_READ (R566). A read of an RC register returns its value and clears it. -/
  | rcRegisterRead (p : Path) (off : Nat)
  /-- NOP (R333). The NOP operation completes OK at fetch. -/
  | nop (o : Nat)
  /-- ABORT (R349). ABORT arrives in the tag table and aborts its target if the target's commit point is not yet recorded. -/
  | abort (o : Nat)
  /-- FENCE (R345). FENCE holds later descriptors of its SQ until earlier ones have completed. -/
  | fence (o : Nat)
  /-- FENCE_RELEASE (R345). The last earlier descriptor completes, and the FENCE is released and completes OK. -/
  | fenceRelease (o : Nat)
  /-- POWER_RUN (R477). POWER STATE 0 moves the device to RUN from TRIM or PARK. -/
  | powerRun (o : Nat)
  /-- POWER_TRIM (R477). POWER STATE 1 moves the device to TRIM, enforcing both throttle classes. -/
  | powerTrim (o : Nat)
  /-- POWER_PARK (R478). POWER STATE 2 parks the lanes and sets the twin state to OFF, or completes BUSY. -/
  | powerPark (o : Nat)
  /-- POWER_SLEEP (R479). POWER STATE 3 freezes threads, saves retention and takes rails 12 to 7 down after its completion. -/
  | powerSleep (o : Nat)
  /-- RAIL_START (R600). RAIL_START checks the rail's cells and moves it from STOPPED to STANDBY at a lead boundary. -/
  | railStart (o : Nat)
  /-- RAIL_STOP (R600). RAIL_STOP returns the rail to STOPPED at the lead boundary at which its cells take MODE OFF. -/
  | railStop (o : Nat)
  /-- RAIL_SETPOINT (R333). RAIL_SETPOINT writes a rail's SETPOINT and increments SP_SEQ. -/
  | railSetpoint (o : Nat)
  /-- RAIL_SETPOINT_AT (R235). RAIL_SETPOINT_AT arms a one-shot mark and writes the set-point when the mark fires. -/
  | railSetpointAt (o : Nat)
  /-- RAIL_RELEASE (R178). RAIL_RELEASE returns a rail in ENV_TRIP to STOPPED. -/
  | railRelease (o : Nat)
  /-- RAIL_LIMITS (R600). RAIL_LIMITS renews a STORE rail's fields at its next lead boundary. -/
  | railLimits (o : Nat)
  /-- GRANT_REQUEST (R252). GRANT_REQUEST enters a grant request into the request table for the next pass. -/
  | grantRequest (o : Nat)
  /-- GRANT_RELEASE (R267). GRANT_RELEASE ends a decided grant at the committed slot of the pass that takes it. -/
  | grantRelease (o : Nat)
  /-- PAT_LOAD (R526). PAT_LOAD stages, verifies and writes a signed pattern image. -/
  | patLoad (o : Nat)
  /-- THREAD_START (R317). THREAD_START starts a pattern thread at an entry address with cleared registers. -/
  | threadStart (o : Nat)
  /-- THREAD_HALT (R333). THREAD_HALT halts a pattern thread. -/
  | threadHalt (o : Nat)
  /-- PAT_EVENT_RAISE (R298). PAT_EVENT with OP 0 raises a pattern event from the host. -/
  | patEventRaise (o : Nat)
  /-- PAT_EVENT_CLEAR (R302). PAT_EVENT with OP 1 clears an event's pending bits in the named threads. -/
  | patEventClear (o : Nat)
  /-- BOBBIN_CFG (R368). BOBBIN_CFG reads and checks a bobbin record and puts it in force. -/
  | bobbinCfg (o : Nat)
  /-- BOBBIN_ARM (R364). BOBBIN_ARM arms a bobbin if the total armed write rate fits. -/
  | bobbinArm (o : Nat)
  /-- BOBBIN_TRIGGER (R371). BOBBIN_TRIGGER takes a host trigger on an armed bobbin. -/
  | bobbinTrigger (o : Nat)
  /-- BOBBIN_READ (R377). BOBBIN_READ copies the current window or oldest chunk to host memory. -/
  | bobbinRead (o : Nat) (ecc : Ecc)
  /-- BOBBIN_RELEASE (R375). BOBBIN_RELEASE unlocks a window, frees a chunk or disarms a bobbin. -/
  | bobbinRelease (o : Nat)
  /-- ARCHIVE_BIND (R379). ARCHIVE_BIND binds bobbins to an archive extent ring and unbinds the others. -/
  | archiveBind (o : Nat)
  /-- ARCHIVE_RELEASE (R382). ARCHIVE_RELEASE frees held archive ranges. -/
  | archiveRelease (o : Nat)
  /-- TRACE_CTL (R384). TRACE_CTL puts a trace control record in force. -/
  | traceCtl (o : Nat)
  /-- STAGE_CELL (R336). STAGE_CELL writes a cell's staged parameter page. -/
  | stageCell (o : Nat)
  /-- STAGE_RAIL (R336). STAGE_RAIL writes a rail's staged parameter page. -/
  | stageRail (o : Nat)
  /-- SWAP_CELL (R335). SWAP KIND 0 orders the swap of a cell's staged page. -/
  | swapCell (o : Nat)
  /-- SWAP_RAIL_ALL (R335). SWAP KIND 1 orders the swap of a rail page and all its cells' pages. -/
  | swapRailAll (o : Nat)
  /-- SWAP_RAIL (R335). SWAP KIND 2 orders the swap of a rail's staged page only. -/
  | swapRail (o : Nat)
  /-- PROFILE_LOAD (R337). PROFILE_LOAD sends a profile block to a cell by PROFILE_WRITE and checks PROF_CRC. -/
  | profileLoad (o : Nat)
  /-- PROFILE_LOAD_TIMEOUT (R337). PROF_CRC has not matched within 1 ms of the first commit, and PROFILE_LOAD completes TIMEOUT. -/
  | profileLoadTimeout (o : Nat)
  /-- NVM_READ (R492). NVM_READ copies NVM bytes to host memory. -/
  | nvmRead (o : Nat) (ecc : Ecc)
  /-- NVM_WRITE (R492). NVM_WRITE programs one NVM page where its area allows. -/
  | nvmWrite (o : Nat)
  /-- NVM_APPEND (R497). NVM_APPEND programs the next slot of a user ring. -/
  | nvmAppend (o : Nat)
  /-- NVM_RING_READ (R499). NVM_RING_READ copies the slot i appends older than the newest. -/
  | nvmRingRead (o : Nat) (ecc : Ecc)
  /-- NVM_PROGRAM_DONE (R501). A page program ends, and waiting NVM work is served in order. -/
  | nvmProgramDone (good : Bool)
  /-- CHALLENGE (R530). CHALLENGE draws a new live challenge. -/
  | challenge (o : Nat)
  /-- RESPONSE (R531). RESPONSE verifies a signature over the live challenge and sets REOPENED when it is valid. -/
  | response (o : Nat)
  /-- CHALLENGE_EXPIRY (R531). The live challenge ends 60 s after it was drawn. -/
  | challengeExpiry
  /-- RNG_READ (R541). RNG_READ delivers TRNG bytes to host memory. -/
  | rngRead (o : Nat) (drawn : Nat)
  /-- LC_TRANSITION (R518). LC_TRANSITION programs the intent word, any payload and the state word of a new life-cycle state. -/
  | lcTransition (o : Nat)
  /-- QUARANTINE (R483). QUARANTINE is accepted to close a selvedge around a block. -/
  | quarantine (o : Nat)
  /-- SELVEDGE_CLOSE (R483). The selvedge closes when no committed operation on the block is running, isolating it. -/
  | selvedgeClose (o : Nat)
  /-- QUARANTINE_TIMEOUT (R483). The selvedge has not closed within 10 ms, and QUARANTINE completes TIMEOUT. -/
  | quarantineTimeout (o : Nat)
  /-- QUARANTINE_END (R487). QUARANTINE_END opens the selvedge and restores the block. -/
  | quarantineEnd (o : Nat)
  /-- RELIEVE (R152). RELIEVE starts a relief engine's takeover of a cell. -/
  | relieve (o : Nat)
  /-- HANDBACK (R156). HANDBACK returns a cell from its relief engine to its cell engine. -/
  | handback (o : Nat)
  /-- RELIEF_TIMEOUT (R337). A RELIEVE or HANDBACK has no takeover boundary within 10 ms and completes TIMEOUT. -/
  | reliefTimeout (o : Nat)
  /-- IMAGE_LOAD_ENGINE (R337). IMAGE_LOAD TARGET 0 installs a signed period-program image into a cell engine. -/
  | imageLoadEngine (o : Nat)
  /-- IMAGE_LOAD_FIRMWARE (R528). IMAGE_LOAD TARGET 1 writes management firmware to the inactive bank and restarts the core pairs on it. -/
  | imageLoadFirmware (o : Nat)
  /-- IMAGE_STAGED (R526). An image has been read into the staging buffer and is checked and verified. -/
  | imageStaged (o : Nat) (d : HostRead)
  /-- FIRMWARE_PAIR_RESTART (R528). A lockstep pair finishes its restart on the new firmware bank. -/
  | firmwarePairRestart (pair : Fin 2) (good : Bool)
  /-- TWOWIRE_CYCLE (R488). TWOWIRE_CYCLE removes the supply of the quarantined two-wire island. -/
  | twowireCycle (o : Nat)
  /-- TWOWIRE_ISLAND_UP (R488). The two-wire island is restored after 10 ms, and TWOWIRE_CYCLE completes. -/
  | twowireIslandUp
  /-- WINDOW_COMMIT (R374). The last post-trigger step is stored, the window commits and locks its bobbin. -/
  | windowCommit (b : Fin 8)
  /-- CHUNK_COMMIT (R376). A stream or trace chunk fills and commits. -/
  | chunkCommit (b : Fin 8)
  /-- EXTENT_DONE (R380). An archive extent is filled and consumed. -/
  | extentDone (a : Fin 8) (ecc : Ecc)
  /-- DRAIN_COMPLETE (R380). An object has fully drained; it is reported DRAINED and held, and the bobbin rearms or idles. -/
  | drainComplete (a : Fin 8)
  /-- TRACE_TACK (R386). TACK_INT passes and a PERIODIC tack is written to the trace. -/
  | traceTack
  /-- DOVETAIL_FRAME (R396). A frame from the twin arrives on the dovetail link and its items are applied. -/
  | dovetailFrame (k : DvItem)
  /-- REALIGN (R402). At the first lead boundary at least 20 us after a mismatch, the SHADOW installs the ACTIVE's rail state. -/
  | realign (m : Fin 64)
  /-- ALIVE_TOGGLE (R392). TWIN_ALIVE_OUT changes level every 256 ns while the role logic runs. -/
  | aliveToggle
  /-- TAKE_REQ_LOW (R404). TAKE_REQ_N stays low for 100 ns and the WATCHDOG loss is declared. -/
  | takeReqLow
  /-- YIELD_RECEIVED (R404). A YIELD message from the twin is received and the device bids. -/
  | yieldReceived
  /-- ALIVE_LOSS (R404). TWIN_ALIVE_IN has not changed for 1 us and the ALIVE loss is declared. -/
  | aliveLoss
  /-- LINK_LOSS (R404). No good dovetail frame arrives for 1 us and the LINK loss is declared. -/
  | linkLoss
  /-- BID_RESOLVE (R406). 3 us after its TAKE, a bidder counts its master lanes and wins into ACTIVE or SOLO, or loses into DETACHED. -/
  | bidResolve
  /-- RESET_REQ_RECEIVED (R462). A RESET_REQ frame from the twin raises the TWIN reset source. -/
  | resetReqReceived
  /-- TWIN_YIELD (R410). TWIN.CTL command YIELD sends YIELD to an aligned SHADOW, or sets CMD_REJ. -/
  | twinYield (key : Byte)
  /-- TWIN_SOLO (R417). TWIN.CTL command SOLO takes an OFF device with the link down into SOLO. -/
  | twinSolo (key : Byte)
  /-- TWIN_DETACH (R416). TWIN.CTL command DETACH returns a JOINING, SHADOW or DETACHED device to OFF. -/
  | twinDetach (key : Byte)
  /-- START_WAIT_EXPIRY (R415). START_WAIT passes without a dovetail link, and the device enters SOLO or stays OFF. -/
  | startWaitExpiry
  /-- JOIN_DIGEST_MATCH (R416). A joining device finds its pages, images and guard sets equal to its twin's and proceeds. -/
  | joinDigestMatch
  /-- JOIN_COMPLETE (R416). After JOIN_SLOTS slots without realignment, the device enters SHADOW with ALIGNED set. -/
  | joinComplete
  /-- TERM_STORE (R412). A changed term is written to NVM ring 2 within 100 ms. -/
  | termStore
  /-- APPLY_INSTANT (R397). 2 us after acceptance, a rail operation or RSP takes effect on both twins. -/
  | applyInstant
  /-- RAIL_POWER_GOOD (R420). An enabled supply rail shows PG high and IN during the up sequence. -/
  | railPowerGood
  /-- STEP_DELAY_EXPIRY (R420). STEP_DELAY passes after a rail is good, and the next rail is enabled. -/
  | stepDelayExpiry
  /-- SEQUENCE_FAULT (R422). A rail misses PG_TIMEOUT; the raised rails are taken down and the start fails. -/
  | sequenceFault
  /-- RAIL_DOWN (R421). A rail being taken down reads BELOW or 10 ms pass, and the next rail is taken down. -/
  | railDown
  /-- COMPARATOR_CHANGE (R432). A window comparator's reading changes after its filter time; ST is latched and events or wake follow. -/
  | comparatorChange (k : Fin 16) (r : WcRead)
  /-- WC_SELFTEST (R433). A TEST write to SUP.WC_CFG starts a 10 us comparator self-test, or sets STBUSY. -/
  | wcSelftest (p : Path) (v : Word)
  /-- SELFTEST_DONE (R433). A comparator self-test ends, sets STRES and sends SELFTEST. -/
  | selftestDone (pass : Bool)
  /-- BRACE_START (R426). VINS stays below VIN_WARN for 2 us and the device enters the brace. -/
  | braceStart (mv : BitVec 12)
  /-- BRACE_END (R426). VINS has held at or above VIN_WARN for 100 us, and the brace ends with a DIP record. -/
  | braceEnd
  /-- VIN_RESET (R427). VINS stays below VIN_RESET for 2 us, raising BOR and abandoning any NVM program. -/
  | vinReset (mv : BitVec 12)
  /-- HK_ROUND_START (R436). A housekeeping ADC round starts under the HK_CTL mode. -/
  | hkRoundStart
  /-- HK_ROUND_END (R434). A housekeeping round completes its conversions into SUP.HK_RESn. -/
  | hkRoundEnd (codes : List (BitVec 12))
  /-- TEMP_BLOCK (R437). A temperature block converts TS0-TS3 and the die diode and evaluates the throttle classes. -/
  | tempBlock (temps : List (Option (BitVec 16)))
  /-- THROTTLE_ENFORCE (R441). The grace time passes and the throttle class becomes ENFORCED. -/
  | throttleEnforce (c : ThrClass)
  /-- THERM_TRIP (R443). A die reads 125 C or more for 10 us and the supervisor raises THERM. -/
  | thermTrip
  /-- THERM_CLEAR (R443). Every die reads below 95 C and THERM releases. -/
  | thermClear
  /-- RTC_SECOND (R446). The RTC increments SEC and carries through the calendar. -/
  | rtcSecond
  /-- RTC_WRITE (R444). A write to an RTC calendar register is accepted into the counters or rejected with WR_REJ. -/
  | rtcWrite (p : Path) (off : Nat) (v : Word)
  /-- RTC_READ (R445). The first RTC read on a path copies every RTC register into that path's shadows. -/
  | rtcRead (p : Path) (off : Nat)
  /-- RTC_SHADOW_EXPIRY (R445). 2 ms pass without a YEAR read and the path's RTC shadows are released. -/
  | rtcShadowExpiry (p : Path)
  /-- OSC_STOP (R447). The 32.768 kHz crystal stops for four periods and OSF is set. -/
  | oscStop
  /-- WDT_KICK_WRITE (R451). A write to SUP.WDT_KICK advances or completes the kick sequence, or counts a bad key. -/
  | wdtKickWrite (v : Word)
  /-- WDT_ENABLE (R449). A write of EN = 1 starts the watchdog under software start. -/
  | wdtEnable (v : Word)
  /-- WDT_WARNING (R450). The WARN fraction of the timeout passes, sending WDT_WARN and raising source 24. -/
  | wdtWarning
  /-- WDT_EXPIRY (R453). The watchdog expires, raising WDT and driving WDX_N low for 10 ms. -/
  | wdtExpiry
  /-- WDX_PULSE_END (R453). The 10 ms WDX_N pulse ends and the WDT source releases. -/
  | wdxPulseEnd
  /-- PB_SHORT_PRESS (R454). A press of 50 ms to 4 s ends; SHORT is set and PB_SHORT is sent, waking or starting the device. -/
  | pbShortPress (ms : Nat)
  /-- PB_FORCE_OFF (R455). PB_N held for 4 s forces the device off after a YIELD. -/
  | pbForceOff
  /-- PB_LAYUP (R456). PB_N held for 12 s raises the lay-up reset and drives BATSW_N low for 2 s. -/
  | pbLayup
  /-- BATSW_PULSE_END (R456). The 2 s BATSW_N pulse ends. -/
  | batswPulseEnd
  /-- MR_ASSERT (R458). MR_N held low for 1 us raises the MR_N reset source. -/
  | mrAssert
  /-- MR_RELEASE (R458). MR_N returns high and the MR_N source releases. -/
  | mrRelease
  /-- POR (R462). VSUP enters or leaves WC0's window, raising POR. -/
  | por (enters : Bool)
  /-- LOCKSTEP_MISMATCH (R462). A management-core lockstep pair disagrees and SAFETY is raised. -/
  | lockstepMismatch
  /-- DIE_LINK_FAULT (R20). A die-link transfer fails after retry; a fabric fault is recorded and SAFETY is raised. -/
  | dieLinkFault
  /-- RESET_TAKE_HOLD (R463). 4 us after a YIELD, the reset takes hold and holds every other die. -/
  | resetTakeHold
  /-- RESET_RELEASE (R465). 1 ms after the last held source releases, the episode is released and a start or OFF follows. -/
  | resetRelease
  /-- FIRMWARE_LOAD_DONE (R529). The mask-ROM loader has verified and started a firmware bank, or the start fails. -/
  | firmwareLoadDone
  /-- RUN_READY (R470). Start steps 1-8 have completed, and the start is RUN-ready. -/
  | runReady
  /-- START_TIMEOUT (R471). RUN-ready is not reached within 5 s and the start fails with SAFETY. -/
  | startTimeout
  /-- FAILED_START_CLEAR (R473). After 60 s in RUN or TRIM the failed-start count is written as 0. -/
  | failedStartClear
  /-- ST_ALARM (R480). ST reaches SUP.WAKE_ST during SLEEP and wakes the device. -/
  | stAlarm
  /-- WAKE_COMPLETE (R480). The wake completes and the device enters PARK with WAKE_CAUSE set. -/
  | wakeComplete
  /-- PWR_OFF_CMD (R490). SUP.PWR_CTL command OFF forces the device off as a 4 s press does. -/
  | pwrOffCmd (key : Byte)
  /-- PWR_TWIN_RESET (R490). SUP.PWR_CTL command TWIN_RESET sends RESET_REQ to the twin, or sets REJ. -/
  | pwrTwinReset (key : Byte)
  /-- SEAL_LOCK (R507). NVM.CTL command SEAL_LOCK programs the SEAL_LOCK fuse, locking the sealed page. -/
  | sealLock (key : Byte)
  /-- SET_PWD (R508). NVM.CTL command SET_PWD programs the protected-area password and PWD_SET. -/
  | setPwd (key : Byte)
  /-- UNLOCK (R508). NVM.CTL command UNLOCK sets UNLOCKED on a matching password or counts a failure. -/
  | unlock (key : Byte)
  /-- RELOCK (R508). NVM.CTL command RELOCK clears UNLOCKED. -/
  | relock (key : Byte)
  /-- NVMW_READ (R506). Two-wire command READ copies an NVM page into SUP.NVMW_BUF. -/
  | nvmwRead (v : Word)
  /-- NVMW_PROGRAM (R506). Two-wire command PROGRAM programs the buffer into a start-plan or user page, or is refused. -/
  | nvmwProgram (v : Word)
  /-- OTP_ROW_READ (R510). A write of NVM.OTP_SEL.ROW starts an OTP row read at the chosen margin. -/
  | otpRowRead (v : Word)
  /-- TRNG_READY (R541). 4,096 bits of entropy pass the health tests and the TRNG becomes ready. -/
  | trngReady
  /-- TRNG_HEALTH_FAIL (R542). A TRNG health test fails; output is withheld and FAILS counts. -/
  | trngHealthFail
  /-- JTAG_IDCODE (R535). The IDCODE instruction selects the identification register. -/
  | jtagIdcode
  /-- JTAG_SAMPLE_PRELOAD (R535). The SAMPLE/PRELOAD instruction captures or preloads the boundary-scan register where allowed. -/
  | jtagSamplePreload (pins : DWord) (preload : DWord)
  /-- JTAG_EXTEST (R537). The EXTEST instruction drives pins from the boundary-scan register when SCAN_EN allows. -/
  | jtagExtest
  /-- JTAG_CLAMP (R537). The CLAMP instruction holds the pins while bypassing, when SCAN_EN allows. -/
  | jtagClamp
  /-- JTAG_HIGHZ (R537). The HIGHZ instruction releases the outputs, when SCAN_EN allows. -/
  | jtagHighz
  /-- JTAG_DBG_SEL (R538). The DBG_SEL instruction opens the debug chain into the management cores at the OPEN level. -/
  | jtagDbgSel (q : DbgReq)
  /-- JTAG_BYPASS (R535). The BYPASS instruction, or a disallowed one, selects the bypass register. -/
  | jtagBypass (ir : Byte)
  /-- TAP_RESET (R534). TRST_N resets the TAP to Test-Logic-Reset with IDCODE selected. -/
  | tapReset
  /-- SCAN_EN_WRITE (R537). A write of SEC.DBG_CTL.SCAN_EN enables boundary-scan drive only in the allowed states. -/
  | scanEnWrite (v : Word)
  /-- REC_LOAD (R540). REC.CTL command LOAD installs a firmware image into a bank in basting mode. -/
  | recLoad (key : Byte) (d : HostRead)
  /-- REC_CLEAR (R540). REC.CTL command CLEAR writes a failed-start count of 0. -/
  | recClear (key : Byte)
  /-- REC_RESET (R540). REC.CTL command RESET raises the HOST reset source. -/
  | recReset (key : Byte)
  /-- TWOWIRE_WRITE (R544). A two-wire write transfer sets the pointer and writes supervisor-space registers at byte +3. -/
  | twowireWrite (adr : BitVec 7) (bytes : List Byte)
  /-- TWOWIRE_READ (R544). A two-wire read transfer reads supervisor-space bytes from the pointer, latching each register at byte +0. -/
  | twowireRead (adr : BitVec 7) (len : Nat)
  /-- TWOWIRE_HANG (R548). The port has held SDA low for more than 25 ms and HANG is set. -/
  | twowireHang
  /-- PB_N_RELEASE (R457). PB_N is released after a press of 4 s or more, which starts a device in OFF when the press lasted under 12 s and ends the hold of the lay-up source. -/
  | pbNRelease (ms : Nat)
  /-- BOR_HOLD_DOWN_EXPIRY (R462). The 10 ms for which a BOR holds the rails down expires and the supply sequence up begins. -/
  | borHoldDownExpiry
  /-- SEQUENCE_FAULT_RETRY (R471). 1 s after the rails are down following a sequence fault, the next start attempt begins. -/
  | sequenceFaultRetry
  /-- RESET_SOURCE_HOLD_END (R462). The 1 us hold of a TWIN, HOST or SAFETY reset source ends and the source releases. -/
  | resetSourceHoldEnd (src : RstSrc)
  /-- START_STEP_DONE (R469). A timed start step completes (die links trained and guard sets loaded, HBM stacks trained and tested, engines self-tested) and the next begins, lane bring-up starting after the engine self-test, or a failed step fails the start. -/
  | startStepDone (good : Bool)
  /-- OTP_ROW_PROGRAMMED (R513). The programming of an OTP row, with its pulses, strict-margin verification and any redirection, ends, so the next row is programmed or the operation completes. -/
  | otpRowProgrammed (strictOk : Bool)
  /-- VINS_ABOVE_VIN_WARN (R425). VINS has stayed at or above VIN_WARN for 2 us, which lets a BOR whose supply sequence is already complete release. -/
  | vinsAboveVinWarn
  /-- BACKUP_DOMAIN_POWER_UP (R447). VBAK is first applied, or the backup domain is powered again after both VSUP and VBAK were absent, and OSF is set. -/
  | backupDomainPowerUp
  /-- DOVETAIL_LANE_LOSS (R393). One dovetail lane stops carrying frames that pass their check while others still do, and its DV_UP bit clears. -/
  | dovetailLaneLoss (k : Fin 8)
  /-- OPERAND_READ_COMPLETE (R355). The host-memory read of an operation's operand data, such as a staged page, profile block, bobbin record or RESPONSE signature, returns, so the operation proceeds to its commit point or completes MEDIA_ERROR. -/
  | operandReadComplete (o : Nat) (d : HostRead)
deriving DecidableEq, Repr

end Sys2Proof
end

