-- ==== Sys2Proof/Decode.lean ====
section
/-! DEFINITION. Decoding. The opcode table of the block gives its rows no bits, so `decodeTableWord` spells none. What the
block does decode are the words of its two programmable units: a period program (R140, R141) and pattern code (R289, R290), read from
their program memories by the PP_ and PAT_ commands. -/

namespace Sys2Proof

/-- The command a word spells by the opcode table's bits: the table gives no row any bits, so none. -/
def decodeTableWord (_nbits _w : Nat) : Option Instr := none

/-- The operations of a period program (R141). -/
inductive PpOp where
  | nop | add | sub | adds | subs | mul | mulh | qmul | div | and_ | or_ | xor | shl | shr | sar | min | max | abs | addi | andi | ori | shli | shri | sari | lui | li | ld | st | beq | bne | blt | bge | jmp | evt | end_
deriving DecidableEq, Repr

/-- The operations of pattern code (R290). -/
inductive PatOp where
  | nop | add | sub | and_ | or_ | xor | shl | shr | sar | mul | mulh | min | max | slt | sltu | addi | andi | ori | xori | shli | shri | sari | lui | li | ld | ldh | ldb | st | sth | stb | xchg | beq | bne | blt | bge | bltu | bgeu | jmp | call | jr | waite | waitm | emit | evclr | grant | grel | kick | reti | mfs | mts | sync | halt | rsp
deriving DecidableEq, Repr

/-- The instruction formats of R140 and R289. -/
inductive InsFmt where
  | r | i | b | u | e | w
deriving DecidableEq, Repr

/-- The fields of an instruction word; a field its format lacks is 0. `imm` is sign-extended for format I and
zero-extended for format U. -/
structure Fields where
  rd : Nat := 0
  ra : Nat := 0
  rb : Nat := 0
  imm : Word := 0
  target : Nat := 0
  num : Nat := 0
deriving DecidableEq, Repr

namespace Machine

/-- OP of an instruction word (R140, R289). -/
def insOp (w : Word) : Nat := fld w 31 26

/-- IMM18 sign-extended to 32 bits. -/
def imm18 (w : Word) : Word := (w.extractLsb' 0 18).signExtend 32

/-- Operation and format of a period-program opcode; none for a reserved one (R141). -/
def ppOpcode : Nat → Option (PpOp × InsFmt)
  | 0x00 => some (.nop, .e)
  | 0x01 => some (.add, .r)
  | 0x02 => some (.sub, .r)
  | 0x03 => some (.adds, .r)
  | 0x04 => some (.subs, .r)
  | 0x05 => some (.mul, .r)
  | 0x06 => some (.mulh, .r)
  | 0x07 => some (.qmul, .r)
  | 0x08 => some (.div, .r)
  | 0x09 => some (.and_, .r)
  | 0x0A => some (.or_, .r)
  | 0x0B => some (.xor, .r)
  | 0x0C => some (.shl, .r)
  | 0x0D => some (.shr, .r)
  | 0x0E => some (.sar, .r)
  | 0x0F => some (.min, .r)
  | 0x10 => some (.max, .r)
  | 0x11 => some (.abs, .r)
  | 0x12 => some (.addi, .i)
  | 0x13 => some (.andi, .i)
  | 0x14 => some (.ori, .i)
  | 0x15 => some (.shli, .i)
  | 0x16 => some (.shri, .i)
  | 0x17 => some (.sari, .i)
  | 0x18 => some (.lui, .u)
  | 0x19 => some (.li, .i)
  | 0x1A => some (.ld, .i)
  | 0x1B => some (.st, .i)
  | 0x20 => some (.beq, .b)
  | 0x21 => some (.bne, .b)
  | 0x22 => some (.blt, .b)
  | 0x23 => some (.bge, .b)
  | 0x24 => some (.jmp, .b)
  | 0x30 => some (.evt, .e)
  | 0x31 => some (.end_, .e)
  | _ => none

/-- Operation and format of a pattern opcode; none for a reserved one (R290). -/
def patOpcode : Nat → Option (PatOp × InsFmt)
  | 0x00 => some (.nop, .e)
  | 0x01 => some (.add, .r)
  | 0x02 => some (.sub, .r)
  | 0x03 => some (.and_, .r)
  | 0x04 => some (.or_, .r)
  | 0x05 => some (.xor, .r)
  | 0x06 => some (.shl, .r)
  | 0x07 => some (.shr, .r)
  | 0x08 => some (.sar, .r)
  | 0x09 => some (.mul, .r)
  | 0x0A => some (.mulh, .r)
  | 0x0B => some (.min, .r)
  | 0x0C => some (.max, .r)
  | 0x0D => some (.slt, .r)
  | 0x0E => some (.sltu, .r)
  | 0x10 => some (.addi, .i)
  | 0x11 => some (.andi, .i)
  | 0x12 => some (.ori, .i)
  | 0x13 => some (.xori, .i)
  | 0x14 => some (.shli, .i)
  | 0x15 => some (.shri, .i)
  | 0x16 => some (.sari, .i)
  | 0x17 => some (.lui, .u)
  | 0x18 => some (.li, .i)
  | 0x19 => some (.ld, .i)
  | 0x1A => some (.ldh, .i)
  | 0x1B => some (.ldb, .i)
  | 0x1C => some (.st, .i)
  | 0x1D => some (.sth, .i)
  | 0x1E => some (.stb, .i)
  | 0x1F => some (.xchg, .i)
  | 0x20 => some (.beq, .b)
  | 0x21 => some (.bne, .b)
  | 0x22 => some (.blt, .b)
  | 0x23 => some (.bge, .b)
  | 0x24 => some (.bltu, .b)
  | 0x25 => some (.bgeu, .b)
  | 0x26 => some (.jmp, .b)
  | 0x27 => some (.call, .b)
  | 0x28 => some (.jr, .i)
  | 0x30 => some (.waite, .w)
  | 0x31 => some (.waitm, .i)
  | 0x32 => some (.emit, .e)
  | 0x33 => some (.evclr, .e)
  | 0x34 => some (.grant, .i)
  | 0x35 => some (.grel, .r)
  | 0x36 => some (.kick, .e)
  | 0x37 => some (.reti, .e)
  | 0x38 => some (.mfs, .u)
  | 0x39 => some (.mts, .u)
  | 0x3A => some (.sync, .e)
  | 0x3B => some (.halt, .e)
  | 0x3C => some (.rsp, .r)
  | _ => none

/-- The fields of a word in a format, and whether its 0-fields are 0; format B differs between the two sets: a period program has an 8-bit TARGET
(R140), pattern code a 14-bit one (R289). -/
def insFields (pat : Bool) (f : InsFmt) (w : Word) : Fields × Bool :=
  let x := fld w 25 22
  let y := fld w 21 18
  match f with
  | .r => ({ rd := x, ra := y, rb := fld w 17 14 }, fld w 13 0 == 0)
  | .i => ({ rd := x, ra := y, imm := imm18 w }, true)
  | .b =>
    if pat then ({ ra := x, rb := y, target := fld w 13 0 }, fld w 17 14 == 0)
    else ({ ra := x, rb := y, target := fld w 7 0 }, fld w 17 8 == 0)
  | .u => ({ rd := x, imm := wordN (fld w 15 0) }, fld w 21 16 == 0)
  | .e => ({ num := fld w 8 0 }, fld w 25 9 == 0)
  | .w => ({ rd := x, ra := y, num := fld w 17 9 }, fld w 8 0 == 0)

/-- The 0-fields that the operation column of R141 adds: NUM of NOP and END, RB of ABS, RA of LI, RA and RB of JMP, imm[17:5] of the shifts. -/
def ppZeros (op : PpOp) (x : Fields) : Bool :=
  match op with
  | .nop | .end_ => x.num == 0
  | .abs => x.rb == 0
  | .li => x.ra == 0
  | .jmp => x.ra == 0 && x.rb == 0
  | .shli | .shri | .sari => x.imm.toNat < 32
  | _ => true

/-- The same for pattern code (R290): NUM of NOP, KICK, RETI, SYNC and HALT, RA of LI, RA and RB of JMP, RB of CALL and GREL, RD of JR, imm[17:5] of
the shifts. -/
def patZeros (op : PatOp) (x : Fields) : Bool :=
  match op with
  | .nop | .kick | .reti | .sync | .halt => x.num == 0
  | .li => x.ra == 0
  | .jmp => x.ra == 0 && x.rb == 0
  | .call | .grel => x.rb == 0
  | .jr => x.rd == 0
  | .shli | .shri | .sari => x.imm.toNat < 32
  | _ => true

/-- Decode a period-program word (R140, R141): none for a reserved opcode or a nonzero 0-field, a program fault (R142). -/
def ppDecode (w : Word) : Option (PpOp × Fields) :=
  match ppOpcode (insOp w) with
  | some (op, f) =>
    let (x, ok) := insFields false f w
    if ok && ppZeros op x then some (op, x) else none
  | none => none

/-- Decode a pattern word (R289, R290): none for a reserved opcode or a nonzero 0-field, a thread fault (R291). -/
def patDecode (w : Word) : Option (PatOp × Fields) :=
  match patOpcode (insOp w) with
  | some (op, f) =>
    let (x, ok) := insFields true f w
    if ok && patZeros op x then some (op, x) else none
  | none => none

end Machine

end Sys2Proof
end

