-- ==== Sys2Proof/Config.lean ====
section
/-! DEFINITION. The free values: what the spec leaves open and the block still uses. Each is a constant without a body, so
no proof can lean on a value of it (log entries 4, 7 and 8). -/

namespace Sys2Proof

/-- A value the spec does not state, drawn afresh: applied to the counter `State.free` (log entry 4). -/
opaque Config.freeWord : Nat → Word

/-- A 64-bit value the spec does not state, drawn afresh (log entry 4). -/
opaque Config.freeDWord : Nat → DWord

/-- A byte the spec does not state, drawn afresh: the content of a page whose program failed or was abandoned (R494). -/
opaque Config.freeByte : Nat → Byte

/-- A yes or no the spec does not state, drawn afresh. -/
opaque Config.freeBool : Nat → Bool

/-- Whether a scaled sample, mean or root whose exact value is no whole number is taken one up from its floor: the spec states no rounding (log entry 7). -/
opaque Config.roundUp : Int → Nat → Bool

/-- The words that the stock loops of SOURCE, DRIVE and STORE make from their current or power reference (R190, R194, R197): the spec gives the reference's law and its limits and not the arithmetic from it to
duty references and slopes; applied to rail, ST, reference, measured value and word index (log entry 7). -/
opaque Config.loopWord : Nat → Nat → Int → Int → Nat → Word

/-- A quotient by a divisor that is not above 0, which the spec's formulas do not give: a battery or bus voltage of 0, a torque constant of 0 (log entry 4). -/
opaque Config.openQuot : Int → Int → Int

/-- The current-sharing trim of a stock follower in Q0.32 (R601, TRIM_GAIN and TRIM_LIMIT of R144): the spec gives the limit and no arithmetic; applied to PROG,
TRIM_GAIN, TRIM_LIMIT, I_SHARE and I_MEAN (log entry 7). -/
opaque Config.shareTrim : Nat → Int → Int → Int → Int → Int

/-- The Heastol key in mask ROM (R523): its value is not in the spec (log entry 8). -/
opaque Config.heastolKey : List Byte

end Sys2Proof
end

