-- ==== Sys2Proof/Machine/Crypto.lean ====
section
/-! DEFINITION. The two standard functions that R523 to R525 and R531 name: the SHA-256 digest and the verification of an ECDSA signature on the curve P-256. The
spec names them by their standards (FIPS 180-4 and FIPS 186) and states the byte order of keys, hashes and signatures (log entry 8). -/

namespace Sys2Proof.Machine

/-! ## SHA-256 -/

/-- The big-endian number in a list of bytes. -/
def beNat (l : List Byte) : Nat := l.foldl (fun a b => 256 * a + b.toNat) 0

/-- The 64 round constants: fractions of the cube roots of the first primes. -/
def shaK : List Word :=
  [0x428a2f98, 0x71374491, 0xb5c0fbcf, 0xe9b5dba5, 0x3956c25b, 0x59f111f1, 0x923f82a4, 0xab1c5ed5] ++
  [0xd807aa98, 0x12835b01, 0x243185be, 0x550c7dc3, 0x72be5d74, 0x80deb1fe, 0x9bdc06a7, 0xc19bf174] ++
  [0xe49b69c1, 0xefbe4786, 0x0fc19dc6, 0x240ca1cc, 0x2de92c6f, 0x4a7484aa, 0x5cb0a9dc, 0x76f988da] ++
  [0x983e5152, 0xa831c66d, 0xb00327c8, 0xbf597fc7, 0xc6e00bf3, 0xd5a79147, 0x06ca6351, 0x14292967] ++
  [0x27b70a85, 0x2e1b2138, 0x4d2c6dfc, 0x53380d13, 0x650a7354, 0x766a0abb, 0x81c2c92e, 0x92722c85] ++
  [0xa2bfe8a1, 0xa81a664b, 0xc24b8b70, 0xc76c51a3, 0xd192e819, 0xd6990624, 0xf40e3585, 0x106aa070] ++
  [0x19a4c116, 0x1e376c08, 0x2748774c, 0x34b0bcb5, 0x391c0cb3, 0x4ed8aa4a, 0x5b9cca4f, 0x682e6ff3] ++
  [0x748f82ee, 0x78a5636f, 0x84c87814, 0x8cc70208, 0x90befffa, 0xa4506ceb, 0xbef9a3f7, 0xc67178f2]

/-- The initial hash value: fractions of the square roots of the first primes. -/
def shaInit : List Word := [0x6a09e667, 0xbb67ae85, 0x3c6ef372, 0xa54ff53a, 0x510e527f, 0x9b05688c, 0x1f83d9ab, 0x5be0cd19]

/-- Message padding: a one bit, zeros, and the length in bits as a 64-bit number. -/
def shaPad (m : List Byte) : List Byte :=
  let z := (119 - m.length % 64) % 64
  m ++ [0x80] ++ List.replicate z 0 ++ (toLe 8 (8 * m.length)).reverse

/-- The next word of the message schedule, from the last sixteen, newest first. -/
def shaNext (w : List Word) : Word :=
  let a := w.getD 14 0
  let b := w.getD 1 0
  let s0 := a.rotateRight 7 ^^^ a.rotateRight 18 ^^^ a >>> 3
  let s1 := b.rotateRight 17 ^^^ b.rotateRight 19 ^^^ b >>> 10
  w.getD 15 0 + s0 + w.getD 6 0 + s1

/-- n more words of the schedule, newest first. -/
def shaSchedule : Nat → List Word → List Word
  | 0, w => w
  | n + 1, w => shaSchedule n (shaNext w :: w)

/-- One round on the eight working variables, with the round constant plus the schedule word. -/
def shaRound (h : List Word) (kw : Word) : List Word :=
  let a := h.getD 0 0
  let e := h.getD 4 0
  let s1 := e.rotateRight 6 ^^^ e.rotateRight 11 ^^^ e.rotateRight 25
  let ch := (e &&& h.getD 5 0) ^^^ (~~~e &&& h.getD 6 0)
  let t1 := h.getD 7 0 + s1 + ch + kw
  let s0 := a.rotateRight 2 ^^^ a.rotateRight 13 ^^^ a.rotateRight 22
  let maj := (a &&& h.getD 1 0) ^^^ (a &&& h.getD 2 0) ^^^ (h.getD 1 0 &&& h.getD 2 0)
  [t1 + s0 + maj, a, h.getD 1 0, h.getD 2 0, h.getD 3 0 + t1, e, h.getD 5 0, h.getD 6 0]

/-- One 64-byte block into the hash value. -/
def shaBlock (h : List Word) (b : List Byte) : List Word :=
  let w := (shaSchedule 48 ((List.range 16).map fun i => BitVec.ofNat 32 (beNat (slice b (4 * i) 4))).reverse).reverse
  List.zipWith (· + ·) h ((List.zipWith (· + ·) shaK w).foldl shaRound h)

/-- The hash value after n blocks. -/
def shaBlocks : Nat → List Word → List Byte → List Word
  | 0, h, _ => h
  | n + 1, h, m => shaBlocks n (shaBlock h (m.take 64)) (m.drop 64)

/-- The 32 bytes of the SHA-256 digest of a message (R523 to R525). -/
def sha256 (m : List Byte) : List Byte :=
  let p := shaPad m
  (shaBlocks (p.length / 64) shaInit p).flatMap fun w => (toLe 4 w.toNat).reverse

/-! ## ECDSA on P-256 -/

/-- The prime of the field. -/
def p256P : Nat := 2 ^ 256 - 2 ^ 224 + 2 ^ 192 + 2 ^ 96 - 1
/-- The order of the base point. -/
def p256N : Nat := 0xffffffff00000000ffffffffffffffffbce6faada7179e84f3b9cac2fc632551
/-- The constant term of the curve y^2 = x^3 - 3 x + b. -/
def p256B : Nat := 0x5ac635d8aa3a93e7b3ebbd55769886bc651d06b0cc53b0f63bce3c3e27d2604b
/-- The base point. -/
def p256G : Nat × Nat :=
  (0x6b17d1f2e12c4247f8bce6e563a440f277037d812deb33a0f4a13945d898c296, 0x4fe342e2fe1a7f9b8ee7eb4a7c0f9e162bce33576b315ececbb6406837bf51f5)

/-- b to the power e modulo m, over the low k bits of e. -/
def powMod (m b : Nat) : Nat → Nat → Nat
  | 0, _ => 1 % m
  | k + 1, e =>
    let h := powMod m b k (e / 2)
    let q := h * h % m
    if e % 2 = 1 then q * b % m else q

/-- The inverse modulo a prime below 2^256. -/
def invMod (m a : Nat) : Nat := powMod m (a % m) 256 (m - 2)

/-- The third point on a line of slope k through two points, mirrored. -/
def ecThird (k x1 y1 x2 : Nat) : Nat × Nat :=
  let p := p256P
  let x3 := (k * k + 2 * p - x1 - x2) % p
  (x3, (k * (x1 + p - x3) + p - y1) % p)

/-- Addition of points of the curve; none is the point at infinity. -/
def ecAdd : Option (Nat × Nat) → Option (Nat × Nat) → Option (Nat × Nat)
  | none, b => b
  | a, none => a
  | some (x1, y1), some (x2, y2) =>
    let p := p256P
    if x1 = x2 then
      if (y1 + y2) % p = 0 then none
      else some (ecThird ((3 * x1 * x1 + p - 3) * invMod p (2 * y1) % p) x1 y1 x2)
    else some (ecThird ((y2 + p - y1) * invMod p (x2 + p - x1) % p) x1 y1 x2)

/-- A multiple of a point, over the low n bits of the factor. -/
def ecMul (a : Option (Nat × Nat)) : Nat → Nat → Option (Nat × Nat)
  | 0, _ => none
  | n + 1, k =>
    let h := ecMul a n (k / 2)
    let d := ecAdd h h
    if k % 2 = 1 then ecAdd d a else d

/-- A point lies on the curve. -/
def onCurve (x y : Nat) : Bool :=
  decide (x < p256P ∧ y < p256P) && y * y % p256P == (x * x * x + 3 * (p256P - x) + p256B) % p256P

/-- The signature (r then s) over a message verifies under a public key (X then Y), all numbers 32 bytes big-endian (R523, R525, R531). -/
def ecdsaVerify (key msg sig : List Byte) : Bool :=
  let n := p256N
  let x := beNat (slice key 0 32)
  let y := beNat (slice key 32 32)
  let r := beNat (slice sig 0 32)
  let t := beNat (slice sig 32 32)
  if onCurve x y && decide (0 < r ∧ r < n ∧ 0 < t ∧ t < n) then
    let w := invMod n t
    let e := beNat (sha256 msg)
    match ecAdd (ecMul (some p256G) 256 (e * w % n)) (ecMul (some (x, y)) 256 (r * w % n)) with
    | some (rx, _) => rx % n == r
    | none => false
  else false

end Sys2Proof.Machine
end

