-- ==== Sys2Proof/Machine/RegMap.lean ====
section
/-! DEFINITION. The set-up register map (R564, the register index): the offset of every register under its own name, and one row
per register with the bits of each access code (R13), its window (R99 and alike) and the reset value of its software-owned
bits. The recovery registers (R539), which lie in a BAR of their own, are numbered from 0x20_0000, and BAR2 from 0x10_0000. -/

namespace Sys2Proof.Machine

/-- The selector windows. -/
inductive Win where
  | none | lane | cell | guard | rail | enc | src | thr | ev | ring | bob | wc | ledger
deriving DecidableEq, Repr

/-- One row of the register map: offset, how many copies at which stride, window, and bit masks per access code. `rst` is
the reset value of the RW and RWS bits. -/
structure RegRow where
  off : Nat
  cnt : Nat
  stride : Nat
  win : Win
  rw : Word
  rws : Word
  w1c : Word
  rc : Word
  rst : Word
deriving DecidableEq, Repr

/-- LINK.LANE_SEL. -/
abbrev Reg.linkLaneSel : Nat := 0x20000
/-- LINK.LANE_STAT. -/
abbrev Reg.linkLaneStat : Nat := 0x20004
/-- LINK.LANE_CTL. -/
abbrev Reg.linkLaneCtl : Nat := 0x20008
/-- ENGINE.CELL_SEL. -/
abbrev Reg.engineCellSel : Nat := 0x30000
/-- ENGINE.CELL_STAT. -/
abbrev Reg.engineCellStat : Nat := 0x30004
/-- ENGINE.GUARD_CTL. -/
abbrev Reg.engineGuardCtl : Nat := 0x30010
/-- ENGINE.GUARD_WIN. -/
abbrev Reg.engineGuardWin : Nat := 0x30014
/-- ENGINE.GUARD_DATA. -/
abbrev Reg.engineGuardData : Nat := 0x30018
/-- RAIL.RAIL_SEL. -/
abbrev Reg.railRailSel : Nat := 0x40000
/-- RAIL.RAIL_STAT. -/
abbrev Reg.railRailStat : Nat := 0x40004
/-- RAIL.CHG_EVT. -/
abbrev Reg.railChgEvt : Nat := 0x4000c
/-- RAIL.CHG_IRQ_EN. -/
abbrev Reg.railChgIrqEn : Nat := 0x40010
/-- RAIL.SYNC_STAT. -/
abbrev Reg.railSyncStat : Nat := 0x40020
/-- TIME.ST_LO. -/
abbrev Reg.timeStLo : Nat := 0x50000
/-- TIME.ST_HI. -/
abbrev Reg.timeStHi : Nat := 0x50004
/-- TIME.ST_SET_LO. -/
abbrev Reg.timeStSetLo : Nat := 0x50008
/-- TIME.ST_SET_HI. -/
abbrev Reg.timeStSetHi : Nat := 0x5000c
/-- TIME.DISC_CTL. -/
abbrev Reg.timeDiscCtl : Nat := 0x50010
/-- TIME.DISC_STAT. -/
abbrev Reg.timeDiscStat : Nat := 0x50014
/-- TIME.PPS_OFS. -/
abbrev Reg.timePpsOfs : Nat := 0x50018
/-- TIME.PPS_ERR. -/
abbrev Reg.timePpsErr : Nat := 0x5001c
/-- TIME.ENC_SEL. -/
abbrev Reg.timeEncSel : Nat := 0x50020
/-- TIME.ENC_CFG. -/
abbrev Reg.timeEncCfg : Nat := 0x50024
/-- TIME.ENC_SSI. -/
abbrev Reg.timeEncSsi : Nat := 0x50028
/-- TIME.ENC_STAT. -/
abbrev Reg.timeEncStat : Nat := 0x5002c
/-- TIME.ENC_ANGLE. -/
abbrev Reg.timeEncAngle : Nat := 0x50030
/-- TIME.ENC_TURN. -/
abbrev Reg.timeEncTurn : Nat := 0x50034
/-- TIME.ENC_SPEED. -/
abbrev Reg.timeEncSpeed : Nat := 0x50038
/-- TIME.CYC_CFG. -/
abbrev Reg.timeCycCfg : Nat := 0x50040
/-- TIME.CYC_STAT. -/
abbrev Reg.timeCycStat : Nat := 0x50044
/-- PLAN.SLOT_CFG. -/
abbrev Reg.planSlotCfg : Nat := 0x60000
/-- PLAN.PASS_CFG. -/
abbrev Reg.planPassCfg : Nat := 0x60004
/-- PLAN.BOLSTER. -/
abbrev Reg.planBolster : Nat := 0x60008
/-- PLAN.DCL. -/
abbrev Reg.planDcl : Nat := 0x6000c
/-- PLAN.STAT. -/
abbrev Reg.planStat : Nat := 0x60010
/-- PLAN.SLOT_NOW. -/
abbrev Reg.planSlotNow : Nat := 0x60014
/-- PLAN.SRC_SEL. -/
abbrev Reg.planSrcSel : Nat := 0x60020
/-- PLAN.SRC_CFG. -/
abbrev Reg.planSrcCfg : Nat := 0x60024
/-- PLAN.SRC_E. -/
abbrev Reg.planSrcE : Nat := 0x60028
/-- PLAN.CLASSc. -/
abbrev Reg.planClass : Nat := 0x60040
/-- PLAN.SHED_CFG. -/
abbrev Reg.planShedCfg : Nat := 0x60060
/-- PLAN.SHED_LOi. -/
abbrev Reg.planShedLo : Nat := 0x60080
/-- PLAN.SHED_HIi. -/
abbrev Reg.planShedHi : Nat := 0x60084
/-- PLAN.TRIP_STAT. -/
abbrev Reg.planTripStat : Nat := 0x600c0
/-- PLAN.LEDGER_SEL. -/
abbrev Reg.planLedgerSel : Nat := 0x600d0
/-- PLAN.LEDGER_DATA. -/
abbrev Reg.planLedgerData : Nat := 0x600d4
/-- PATTERN.THR_SEL. -/
abbrev Reg.patternThrSel : Nat := 0x70000
/-- PATTERN.THR_CFG. -/
abbrev Reg.patternThrCfg : Nat := 0x70004
/-- PATTERN.THR_STAT. -/
abbrev Reg.patternThrStat : Nat := 0x7000c
/-- PATTERN.EV_SEL. -/
abbrev Reg.patternEvSel : Nat := 0x70020
/-- PATTERN.EV_ROUTE. -/
abbrev Reg.patternEvRoute : Nat := 0x70024
/-- PATTERN.EV_PEND. -/
abbrev Reg.patternEvPend : Nat := 0x70028
/-- PATTERN.SRC_MAPk. -/
abbrev Reg.patternSrcMap : Nat := 0x70040
/-- PATTERN.TAG_CFG. -/
abbrev Reg.patternTagCfg : Nat := 0x700c0
/-- PATTERN.KICK_EN. -/
abbrev Reg.patternKickEn : Nat := 0x700c4
/-- PATTERN.STAT. -/
abbrev Reg.patternStat : Nat := 0x700d0
/-- HOST.CTL. -/
abbrev Reg.hostCtl : Nat := 0x10000
/-- HOST.STAT. -/
abbrev Reg.hostStat : Nat := 0x10004
/-- HOST.DB_BASE_LO. -/
abbrev Reg.hostDbBaseLo : Nat := 0x10008
/-- HOST.DB_BASE_HI. -/
abbrev Reg.hostDbBaseHi : Nat := 0x1000c
/-- HOST.DB_POLL. -/
abbrev Reg.hostDbPoll : Nat := 0x10010
/-- HOST.RING_SEL. -/
abbrev Reg.hostRingSel : Nat := 0x10020
/-- HOST.RING_BASE_LO. -/
abbrev Reg.hostRingBaseLo : Nat := 0x10024
/-- HOST.RING_BASE_HI. -/
abbrev Reg.hostRingBaseHi : Nat := 0x10028
/-- HOST.RING_CFG. -/
abbrev Reg.hostRingCfg : Nat := 0x1002c
/-- HOST.RING_MOD. -/
abbrev Reg.hostRingMod : Nat := 0x10030
/-- HOST.RING_STAT. -/
abbrev Reg.hostRingStat : Nat := 0x10034
/-- HOST.EV_STAT. -/
abbrev Reg.hostEvStat : Nat := 0x10040
/-- CAPTURE.BOB_SEL. -/
abbrev Reg.captureBobSel : Nat := 0x80000
/-- CAPTURE.BOB_STAT. -/
abbrev Reg.captureBobStat : Nat := 0x80004
/-- CAPTURE.MEM_STAT. -/
abbrev Reg.captureMemStat : Nat := 0x80010
/-- TRACE.STAT. -/
abbrev Reg.traceStat : Nat := 0xe0000
/-- TWIN.CFG. -/
abbrev Reg.twinCfg : Nat := 0x90000
/-- TWIN.CTL. -/
abbrev Reg.twinCtl : Nat := 0x90004
/-- TWIN.STAT. -/
abbrev Reg.twinStat : Nat := 0x90008
/-- TWIN.TERM. -/
abbrev Reg.twinTerm : Nat := 0x9000c
/-- TWIN.ALIGN. -/
abbrev Reg.twinAlign : Nat := 0x90010
/-- TWIN.LOSS. -/
abbrev Reg.twinLoss : Nat := 0x90014
/-- SUP.SEQ_STAT. -/
abbrev Reg.supSeqStat : Nat := 0xa0000
/-- SUP.SEQ_CFG. -/
abbrev Reg.supSeqCfg : Nat := 0xa0004
/-- SUP.VIN_CFG. -/
abbrev Reg.supVinCfg : Nat := 0xa0008
/-- SUP.VIN_STAT. -/
abbrev Reg.supVinStat : Nat := 0xa000c
/-- SUP.WC_SEL. -/
abbrev Reg.supWcSel : Nat := 0xa0010
/-- SUP.WC_CFG. -/
abbrev Reg.supWcCfg : Nat := 0xa0014
/-- SUP.WC_STAT. -/
abbrev Reg.supWcStat : Nat := 0xa0018
/-- SUP.WC_CAPT. -/
abbrev Reg.supWcCapt : Nat := 0xa001c
/-- SUP.HK_CTL. -/
abbrev Reg.supHkCtl : Nat := 0xa0020
/-- SUP.HK_TRIG. -/
abbrev Reg.supHkTrig : Nat := 0xa0024
/-- SUP.HK_STAT. -/
abbrev Reg.supHkStat : Nat := 0xa0028
/-- SUP.HK_MARKw. -/
abbrev Reg.supHkMark : Nat := 0xa0030
/-- SUP.HK_SEQn. -/
abbrev Reg.supHkSeq : Nat := 0xa0040
/-- SUP.HK_RESn. -/
abbrev Reg.supHkRes : Nat := 0xa0080
/-- SUP.TS_CFGk. -/
abbrev Reg.supTsCfg : Nat := 0xa00c0
/-- SUP.TEMPk. -/
abbrev Reg.supTemp : Nat := 0xa00d0
/-- SUP.THR_CFG. -/
abbrev Reg.supThrCfg : Nat := 0xa00e4
/-- SUP.THR_STAT. -/
abbrev Reg.supThrStat : Nat := 0xa00e8
/-- SUP.RTC_CTL. -/
abbrev Reg.supRtcCtl : Nat := 0xa0118
/-- SUP.WDT_CTL. -/
abbrev Reg.supWdtCtl : Nat := 0xa0120
/-- SUP.WDT_KICK. -/
abbrev Reg.supWdtKick : Nat := 0xa0124
/-- SUP.WDT_STAT. -/
abbrev Reg.supWdtStat : Nat := 0xa0128
/-- SUP.PB_STAT. -/
abbrev Reg.supPbStat : Nat := 0xa0130
/-- SUP.RST_CAUSE. -/
abbrev Reg.supRstCause : Nat := 0xa0140
/-- SUP.START_STAT. -/
abbrev Reg.supStartStat : Nat := 0xa0144
/-- SUP.PWR_STAT. -/
abbrev Reg.supPwrStat : Nat := 0xa0148
/-- SUP.WAKE_CFG. -/
abbrev Reg.supWakeCfg : Nat := 0xa014c
/-- SUP.WAKE_ST_LO. -/
abbrev Reg.supWakeStLo : Nat := 0xa0150
/-- SUP.WAKE_ST_HI. -/
abbrev Reg.supWakeStHi : Nat := 0xa0154
/-- SUP.PWR_CTL. -/
abbrev Reg.supPwrCtl : Nat := 0xa0158
/-- NVM.STAT. -/
abbrev Reg.nvmStat : Nat := 0xb0000
/-- NVM.CTL. -/
abbrev Reg.nvmCtl : Nat := 0xb0004
/-- NVM.PWDn. -/
abbrev Reg.nvmPwd : Nat := 0xb0010
/-- NVM.OTP_SEL. -/
abbrev Reg.nvmOtpSel : Nat := 0xb0020
/-- NVM.OTP_LO. -/
abbrev Reg.nvmOtpLo : Nat := 0xb0024
/-- NVM.OTP_HI. -/
abbrev Reg.nvmOtpHi : Nat := 0xb0028
/-- NVM.LC_STAT. -/
abbrev Reg.nvmLcStat : Nat := 0xb0030
/-- SUP.NVMW_CTL. -/
abbrev Reg.supNvmwCtl : Nat := 0xa0200
/-- REC.STAT. -/
abbrev Reg.recStat : Nat := 0x200000
/-- REC.ADDR_LO. -/
abbrev Reg.recAddrLo : Nat := 0x200004
/-- REC.ADDR_HI. -/
abbrev Reg.recAddrHi : Nat := 0x200008
/-- REC.CTL. -/
abbrev Reg.recCtl : Nat := 0x20000c
/-- SEC.STAT. -/
abbrev Reg.secStat : Nat := 0xc0000
/-- SEC.KEY_HASHn. -/
abbrev Reg.secKeyHash : Nat := 0xc0010
/-- SEC.DBG_CTL. -/
abbrev Reg.secDbgCtl : Nat := 0xc0030
/-- SEC.FW_STAT. -/
abbrev Reg.secFwStat : Nat := 0xc0034
/-- SEC.RNG_STAT. -/
abbrev Reg.secRngStat : Nat := 0xc0040
/-- SEC.TW_CFG. -/
abbrev Reg.secTwCfg : Nat := 0xc0050
/-- SEC.TW_STAT. -/
abbrev Reg.secTwStat : Nat := 0xc0054
/-- SAFETY.STAT. -/
abbrev Reg.safetyStat : Nat := 0xd0000
/-- SAFETY.MASK. -/
abbrev Reg.safetyMask : Nat := 0xd0004
/-- SAFETY.ECC. -/
abbrev Reg.safetyEcc : Nat := 0xd0008
/-- GLOBAL.ID. -/
abbrev Reg.globalId : Nat := 0x0
/-- GLOBAL.CAP. -/
abbrev Reg.globalCap : Nat := 0x4
/-- GLOBAL.REV. -/
abbrev Reg.globalRev : Nat := 0x8
/-- GLOBAL.DIE_ID_LO. -/
abbrev Reg.globalDieIdLo : Nat := 0x10
/-- GLOBAL.DIE_ID_HI. -/
abbrev Reg.globalDieIdHi : Nat := 0x14
/-- GLOBAL.SEAL_STAT. -/
abbrev Reg.globalSealStat : Nat := 0x20
/-- GLOBAL.ACC_ERR. -/
abbrev Reg.globalAccErr : Nat := 0x24
/-- GLOBAL.SCRATCH. -/
abbrev Reg.globalScratch : Nat := 0x30
/-- supRtcSec. -/
abbrev Reg.supRtcSec : Nat := 0xa0100
/-- supRtcMin. -/
abbrev Reg.supRtcMin : Nat := 0xa0104
/-- supRtcHour. -/
abbrev Reg.supRtcHour : Nat := 0xa0108
/-- supRtcDay. -/
abbrev Reg.supRtcDay : Nat := 0xa010c
/-- supRtcMonth. -/
abbrev Reg.supRtcMonth : Nat := 0xa0110
/-- supRtcYear. -/
abbrev Reg.supRtcYear : Nat := 0xa0114
/-- SUP.NVMW_BUF (R506). -/
abbrev Reg.supNvmwBuf : Nat := 0xa0300
/-- NUDGE, at 0x0000 of BAR2 (R319). -/
abbrev Reg.bar2Nudge : Nat := 0x100000
/-- The MSI-X table, at 0x1000 of BAR2 (R319). -/
abbrev Reg.bar2Msix : Nat := 0x101000
/-- The MSI-X PBA, at 0x3000 of BAR2 (R319). -/
abbrev Reg.bar2Pba : Nat := 0x103000

/-- The registers of block LINK. -/
def regRowsLink : List RegRow :=
  [ ⟨Reg.linkLaneSel, 1, 4, .none, 0x000003ff, 0x00000000, 0x00000000, 0x00000000, 0x00000000⟩
  , ⟨Reg.linkLaneStat, 1, 4, .lane, 0x00000000, 0x00000000, 0x00000000, 0x00000000, 0x00000000⟩
  , ⟨Reg.linkLaneCtl, 1, 4, .lane, 0x0000ff01, 0x00000000, 0x00000000, 0x00000000, 0x00000001⟩ ]

/-- The registers of block ENGINE. -/
def regRowsEngine : List RegRow :=
  [ ⟨Reg.engineCellSel, 1, 4, .none, 0x000003ff, 0x00000000, 0x00000000, 0x00000000, 0x00000000⟩
  , ⟨Reg.engineCellStat, 1, 4, .cell, 0x00000000, 0x00000000, 0x00000000, 0x00000000, 0x00000000⟩
  , ⟨Reg.engineGuardCtl, 1, 4, .none, 0x00000000, 0x00000000, 0x00000001, 0x00000000, 0x00000000⟩
  , ⟨Reg.engineGuardWin, 1, 4, .none, 0x000000ff, 0x00000000, 0x00000000, 0x00000000, 0x00000000⟩
  , ⟨Reg.engineGuardData, 1, 4, .guard, 0x00000000, 0xffffffff, 0x00000000, 0x00000000, 0x00000000⟩ ]

/-- The registers of block RAIL. -/
def regRowsRail : List RegRow :=
  [ ⟨Reg.railRailSel, 1, 4, .none, 0x0000003f, 0x00000000, 0x00000000, 0x00000000, 0x00000000⟩
  , ⟨Reg.railRailStat, 1, 4, .rail, 0x00000000, 0x00000000, 0x00000000, 0x00000000, 0x00000000⟩
  , ⟨Reg.railChgEvt, 1, 4, .rail, 0x00000000, 0x00000000, 0x000003ff, 0x00000000, 0x00000000⟩
  , ⟨Reg.railChgIrqEn, 1, 4, .rail, 0x000003ff, 0x00000000, 0x00000000, 0x00000000, 0x00000000⟩
  , ⟨Reg.railSyncStat, 1, 4, .none, 0x00000000, 0x00000000, 0x00000004, 0x00000000, 0x00000000⟩ ]

/-- The registers of block TIME. -/
def regRowsTime0 : List RegRow :=
  [ ⟨Reg.timeStLo, 1, 4, .none, 0x00000000, 0x00000000, 0x00000000, 0x00000000, 0x00000000⟩
  , ⟨Reg.timeStHi, 1, 4, .none, 0x00000000, 0x00000000, 0x00000000, 0x00000000, 0x00000000⟩
  , ⟨Reg.timeStSetLo, 1, 4, .none, 0xffffffff, 0x00000000, 0x00000000, 0x00000000, 0x00000000⟩
  , ⟨Reg.timeStSetHi, 1, 4, .none, 0xffffffff, 0x00000000, 0x00000000, 0x00000000, 0x00000000⟩
  , ⟨Reg.timeDiscCtl, 1, 4, .none, 0x70ffff00, 0x00000000, 0x00000000, 0x00000000, 0x40100a00⟩
  , ⟨Reg.timeDiscStat, 1, 4, .none, 0x00000000, 0x00000000, 0x0c000000, 0x00000000, 0x00000000⟩
  , ⟨Reg.timePpsOfs, 1, 4, .none, 0x3fffffff, 0x00000000, 0x00000000, 0x00000000, 0x00000000⟩
  , ⟨Reg.timePpsErr, 1, 4, .none, 0x00000000, 0x00000000, 0x00000000, 0x00000000, 0x00000000⟩
  , ⟨Reg.timeEncSel, 1, 4, .none, 0x0000000f, 0x00000000, 0x00000000, 0x00000000, 0x00000000⟩
  , ⟨Reg.timeEncCfg, 1, 4, .enc, 0xfeffffff, 0x00000000, 0x00000000, 0x00000000, 0x00000000⟩
  , ⟨Reg.timeEncSsi, 1, 4, .enc, 0xffffffff, 0x00000000, 0x00000000, 0x00000000, 0x00000000⟩
  , ⟨Reg.timeEncStat, 1, 4, .enc, 0x00000000, 0x00000000, 0x00000000, 0x00000000, 0x00000000⟩
  , ⟨Reg.timeEncAngle, 1, 4, .enc, 0x00000000, 0x00000000, 0x00000000, 0x00000000, 0x00000000⟩
  , ⟨Reg.timeEncTurn, 1, 4, .enc, 0x00000000, 0x00000000, 0x00000000, 0x00000000, 0x00000000⟩
  , ⟨Reg.timeEncSpeed, 1, 4, .enc, 0x00000000, 0x00000000, 0x00000000, 0x00000000, 0x00000000⟩
  , ⟨Reg.timeCycCfg, 1, 4, .none, 0xffffffff, 0x00000000, 0x00000000, 0x00000000, 0x00000000⟩ ]

/-- The registers of block TIME. -/
def regRowsTime1 : List RegRow :=
  [ ⟨Reg.timeCycStat, 1, 4, .none, 0x00000000, 0x00000000, 0x00000000, 0x00000000, 0x00000000⟩ ]

/-- The registers of block PLAN. -/
def regRowsPlan : List RegRow :=
  [ ⟨Reg.planSlotCfg, 1, 4, .none, 0xb03f7fff, 0x00000000, 0x00000000, 0x00000000, 0x000103e8⟩
  , ⟨Reg.planPassCfg, 1, 4, .none, 0x000fffff, 0x00000000, 0x00000000, 0x00000000, 0x00040190⟩
  , ⟨Reg.planBolster, 1, 4, .none, 0x00000000, 0xf8ffffff, 0x00000000, 0x00000000, 0x18000000⟩
  , ⟨Reg.planDcl, 1, 4, .none, 0xffffffff, 0x00000000, 0x00000000, 0x00000000, 0x00000000⟩
  , ⟨Reg.planStat, 1, 4, .none, 0x00000000, 0x00000000, 0x38000000, 0x00000000, 0x00000000⟩
  , ⟨Reg.planSlotNow, 1, 4, .none, 0x00000000, 0x00000000, 0x00000000, 0x00000000, 0x00000000⟩
  , ⟨Reg.planSrcSel, 1, 4, .none, 0x0000003f, 0x00000000, 0x00000000, 0x00000000, 0x00000000⟩
  , ⟨Reg.planSrcCfg, 1, 4, .src, 0xffff0000, 0x00000000, 0x00000000, 0x00000000, 0x00000000⟩
  , ⟨Reg.planSrcE, 1, 4, .src, 0xffffffff, 0x00000000, 0x00000000, 0x00000000, 0x00000000⟩
  , ⟨Reg.planClass, 8, 4, .none, 0x80ffff00, 0x00000000, 0x00000000, 0x00000000, 0x00ff8000⟩
  , ⟨Reg.planShedCfg, 1, 4, .none, 0x00000000, 0xf800ff0f, 0x00000000, 0x00000000, 0x2000ff01⟩
  , ⟨Reg.planShedLo, 8, 8, .none, 0x00000000, 0xffffffff, 0x00000000, 0x00000000, 0x00000000⟩
  , ⟨Reg.planShedHi, 8, 8, .none, 0x00000000, 0xffffffff, 0x00000000, 0x00000000, 0x00000000⟩
  , ⟨Reg.planTripStat, 1, 4, .none, 0x00000000, 0x00000000, 0x0000ff00, 0x00000000, 0x00000000⟩
  , ⟨Reg.planLedgerSel, 1, 4, .none, 0x00001dff, 0x00000000, 0x00000000, 0x00000000, 0x00000000⟩
  , ⟨Reg.planLedgerData, 1, 4, .ledger, 0x00000000, 0x00000000, 0x00000000, 0x00000000, 0x00000000⟩ ]

/-- The registers of block PATTERN. -/
def regRowsPattern : List RegRow :=
  [ ⟨Reg.patternThrSel, 1, 4, .none, 0x0000000f, 0x00000000, 0x00000000, 0x00000000, 0x00000000⟩
  , ⟨Reg.patternThrCfg, 1, 4, .thr, 0xffffff00, 0x00000000, 0x00000000, 0x00000000, 0x00000000⟩
  , ⟨Reg.patternThrStat, 1, 4, .thr, 0x00000000, 0x00000000, 0x00000000, 0x00000000, 0x00000000⟩
  , ⟨Reg.patternEvSel, 1, 4, .none, 0x000001ff, 0x00000000, 0x00000000, 0x00000000, 0x00000000⟩
  , ⟨Reg.patternEvRoute, 1, 4, .ev, 0xfc00ffff, 0x00000000, 0x00000000, 0x00000000, 0x00000000⟩
  , ⟨Reg.patternEvPend, 1, 4, .ev, 0x00000000, 0x00000000, 0x0000ffff, 0x00000000, 0x00000000⟩
  , ⟨Reg.patternSrcMap, 32, 4, .none, 0x000001ff, 0x00000000, 0x00000000, 0x00000000, 0x000001ff⟩
  , ⟨Reg.patternTagCfg, 1, 4, .none, 0x0000000f, 0x00000000, 0x00000000, 0x00000000, 0x0000000f⟩
  , ⟨Reg.patternKickEn, 1, 4, .none, 0x00000000, 0x0000ffff, 0x00000000, 0x00000000, 0x00000000⟩
  , ⟨Reg.patternStat, 1, 4, .none, 0x00000000, 0x00000000, 0xc0000000, 0x00000000, 0x00000000⟩ ]

/-- The registers of block HOST. -/
def regRowsHost : List RegRow :=
  [ ⟨Reg.hostCtl, 1, 4, .none, 0x00000001, 0x00000000, 0x00000000, 0x00000000, 0x00000000⟩
  , ⟨Reg.hostStat, 1, 4, .none, 0x00000000, 0x00000000, 0x40000000, 0x00000000, 0x00000000⟩
  , ⟨Reg.hostDbBaseLo, 1, 4, .none, 0xfffff000, 0x00000000, 0x00000000, 0x00000000, 0x00000000⟩
  , ⟨Reg.hostDbBaseHi, 1, 4, .none, 0xffffffff, 0x00000000, 0x00000000, 0x00000000, 0x00000000⟩
  , ⟨Reg.hostDbPoll, 1, 4, .none, 0x0000007f, 0x00000000, 0x00000000, 0x00000000, 0x0000000f⟩
  , ⟨Reg.hostRingSel, 1, 4, .none, 0x000000ff, 0x00000000, 0x00000000, 0x00000000, 0x00000000⟩
  , ⟨Reg.hostRingBaseLo, 1, 4, .ring, 0xfffff000, 0x00000000, 0x00000000, 0x00000000, 0x00000000⟩
  , ⟨Reg.hostRingBaseHi, 1, 4, .ring, 0xffffffff, 0x00000000, 0x00000000, 0x00000000, 0x00000000⟩
  , ⟨Reg.hostRingCfg, 1, 4, .ring, 0x801fffff, 0x00000000, 0x00000000, 0x00000000, 0x00040000⟩
  , ⟨Reg.hostRingMod, 1, 4, .ring, 0xffffffff, 0x00000000, 0x00000000, 0x00000000, 0x00000000⟩
  , ⟨Reg.hostRingStat, 1, 4, .ring, 0x00000000, 0x00000000, 0x00000000, 0x00000000, 0x00000000⟩
  , ⟨Reg.hostEvStat, 1, 4, .none, 0x00000000, 0x00000000, 0x00000000, 0xffff0000, 0x00000000⟩ ]

/-- The registers of block CAPTURE. -/
def regRowsCapture : List RegRow :=
  [ ⟨Reg.captureBobSel, 1, 4, .none, 0x00000007, 0x00000000, 0x00000000, 0x00000000, 0x00000000⟩
  , ⟨Reg.captureBobStat, 1, 4, .bob, 0x00000000, 0x00000000, 0x00000000, 0x0000ffff, 0x00000000⟩
  , ⟨Reg.captureMemStat, 1, 4, .none, 0x00000000, 0x00000000, 0x00010000, 0x0000ffff, 0x00000000⟩ ]

/-- The registers of block TRACE. -/
def regRowsTrace : List RegRow :=
  [ ⟨Reg.traceStat, 1, 4, .none, 0x00000000, 0x00000000, 0x00000000, 0x00000000, 0x00000000⟩ ]

/-- The registers of block TWIN. -/
def regRowsTwin : List RegRow :=
  [ ⟨Reg.twinCfg, 1, 4, .none, 0x0000ffff, 0x80000000, 0x00000000, 0x00000000, 0x0000100a⟩
  , ⟨Reg.twinCtl, 1, 4, .none, 0x00000000, 0x00000000, 0x00000000, 0x00000000, 0x00000000⟩
  , ⟨Reg.twinStat, 1, 4, .none, 0x00000000, 0x00000000, 0x00003000, 0x00000000, 0x00000000⟩
  , ⟨Reg.twinTerm, 1, 4, .none, 0x00000000, 0x00000000, 0x00000000, 0x00000000, 0x00000000⟩
  , ⟨Reg.twinAlign, 1, 4, .none, 0x00000000, 0x00000000, 0x00000000, 0xffffffff, 0x00000000⟩
  , ⟨Reg.twinLoss, 1, 4, .none, 0x00000000, 0x00000000, 0x0000001f, 0x00000000, 0x00000000⟩ ]

/-- The registers of block SUP. -/
def regRowsSup0 : List RegRow :=
  [ ⟨Reg.supSeqStat, 1, 4, .none, 0x00000000, 0x00000000, 0x00000000, 0x00000000, 0x00000000⟩
  , ⟨Reg.supSeqCfg, 1, 4, .none, 0x00000000, 0x0000ffff, 0x00000000, 0x00000000, 0x00000a0a⟩
  , ⟨Reg.supVinCfg, 1, 4, .none, 0x00000000, 0x0fff0fff, 0x00000000, 0x00000000, 0x00000000⟩
  , ⟨Reg.supVinStat, 1, 4, .none, 0x00000000, 0x00000000, 0x00000000, 0x00000fff, 0x00000000⟩
  , ⟨Reg.supWcSel, 1, 4, .none, 0x0000000f, 0x00000000, 0x00000000, 0x00000000, 0x00000000⟩
  , ⟨Reg.supWcCfg, 1, 4, .wc, 0x000000e3, 0xffffff00, 0x00000000, 0x00000000, 0x00000060⟩
  , ⟨Reg.supWcStat, 1, 4, .wc, 0x00000000, 0x00000000, 0x08000000, 0x00000000, 0x00000000⟩
  , ⟨Reg.supWcCapt, 1, 4, .wc, 0x00000000, 0x00000000, 0x00000000, 0x00000000, 0x00000000⟩
  , ⟨Reg.supHkCtl, 1, 4, .none, 0xcf00ffff, 0x00000000, 0x00000000, 0x00000000, 0x400003e8⟩
  , ⟨Reg.supHkTrig, 1, 4, .none, 0x003fffff, 0x00000000, 0x00000000, 0x00000000, 0x00000000⟩
  , ⟨Reg.supHkStat, 1, 4, .none, 0x00000000, 0x00000000, 0x40000000, 0x0000ffff, 0x00000000⟩
  , ⟨Reg.supHkMark, 4, 4, .none, 0xffffffff, 0x00000000, 0x00000000, 0x00000000, 0x00000000⟩
  , ⟨Reg.supHkSeq, 16, 4, .none, 0x00003fcf, 0x00000000, 0x00000000, 0x00000000, 0x00000000⟩
  , ⟨Reg.supHkRes, 16, 4, .none, 0x00000000, 0x00000000, 0x00000000, 0x00000000, 0x00000000⟩
  , ⟨Reg.supTsCfg, 4, 4, .none, 0x00000000, 0xc0ffffff, 0x00000000, 0x00000000, 0x00000000⟩
  , ⟨Reg.supTemp, 5, 4, .none, 0x00000000, 0x00000000, 0x00000000, 0x00000000, 0x00000000⟩ ]

/-- The registers of block SUP. -/
def regRowsSup1 : List RegRow :=
  [ ⟨Reg.supThrCfg, 1, 4, .none, 0x00000000, 0xffffffff, 0x00000000, 0x00000000, 0x64050064⟩
  , ⟨Reg.supThrStat, 1, 4, .none, 0x00000000, 0x00000000, 0x00000000, 0x00000000, 0x00000000⟩
  , ⟨Reg.supRtcCtl, 1, 4, .none, 0x00000003, 0x00000000, 0xc0000000, 0x00000000, 0x00000000⟩
  , ⟨Reg.supWdtCtl, 1, 4, .none, 0xb000ffff, 0x00000000, 0x00000000, 0x00000000, 0x10001f40⟩
  , ⟨Reg.supWdtKick, 1, 4, .none, 0x00000000, 0x00000000, 0x00000000, 0x00000000, 0x00000000⟩
  , ⟨Reg.supWdtStat, 1, 4, .none, 0x00000000, 0x00000000, 0x80000000, 0x00ff0000, 0x00000000⟩
  , ⟨Reg.supPbStat, 1, 4, .none, 0x00000000, 0x00000000, 0x40000000, 0x00000000, 0x00000000⟩
  , ⟨Reg.supRstCause, 1, 4, .none, 0x00000000, 0x00000000, 0x00000000, 0x00000000, 0x00000000⟩
  , ⟨Reg.supStartStat, 1, 4, .none, 0x00000000, 0x00000000, 0x00000000, 0x00000000, 0x00000000⟩
  , ⟨Reg.supPwrStat, 1, 4, .none, 0x00000000, 0x00000000, 0x00000000, 0x00000000, 0x00000000⟩
  , ⟨Reg.supWakeCfg, 1, 4, .none, 0x00000007, 0x00000000, 0x00000000, 0x00000000, 0x00000000⟩
  , ⟨Reg.supWakeStLo, 1, 4, .none, 0xffffffff, 0x00000000, 0x00000000, 0x00000000, 0x00000000⟩
  , ⟨Reg.supWakeStHi, 1, 4, .none, 0xffffffff, 0x00000000, 0x00000000, 0x00000000, 0x00000000⟩
  , ⟨Reg.supPwrCtl, 1, 4, .none, 0x00000000, 0x00000000, 0x00000010, 0x00000000, 0x00000000⟩
  , ⟨Reg.supNvmwCtl, 1, 4, .none, 0x00000fff, 0x00000000, 0x10000000, 0x00000000, 0x00000000⟩ ]

/-- The registers of block NVM. -/
def regRowsNvm : List RegRow :=
  [ ⟨Reg.nvmStat, 1, 4, .none, 0x00000000, 0x00000000, 0x00000000, 0x00000000, 0x00000000⟩
  , ⟨Reg.nvmCtl, 1, 4, .none, 0x00000001, 0x00000100, 0x00000008, 0x00000000, 0x00000000⟩
  , ⟨Reg.nvmPwd, 4, 4, .none, 0x00000000, 0x00000000, 0x00000000, 0x00000000, 0x00000000⟩
  , ⟨Reg.nvmOtpSel, 1, 4, .none, 0x800003ff, 0x00000000, 0x00000000, 0x00000000, 0x00000000⟩
  , ⟨Reg.nvmOtpLo, 1, 4, .none, 0x00000000, 0x00000000, 0x00000000, 0x00000000, 0x00000000⟩
  , ⟨Reg.nvmOtpHi, 1, 4, .none, 0x00000000, 0x00000000, 0x00000000, 0x00000000, 0x00000000⟩
  , ⟨Reg.nvmLcStat, 1, 4, .none, 0x00000000, 0x00000000, 0x00000000, 0x00000000, 0x00000000⟩ ]

/-- The registers of block REC. -/
def regRowsRec : List RegRow :=
  [ ⟨Reg.recStat, 1, 4, .none, 0x00000000, 0x00000000, 0x00000000, 0x00000000, 0x00000000⟩
  , ⟨Reg.recAddrLo, 1, 4, .none, 0xffffffc0, 0x00000000, 0x00000000, 0x00000000, 0x00000000⟩
  , ⟨Reg.recAddrHi, 1, 4, .none, 0xffffffff, 0x00000000, 0x00000000, 0x00000000, 0x00000000⟩
  , ⟨Reg.recCtl, 1, 4, .none, 0x00000000, 0x00000000, 0x00000000, 0x00000000, 0x00000000⟩ ]

/-- The registers of block SEC. -/
def regRowsSec : List RegRow :=
  [ ⟨Reg.secStat, 1, 4, .none, 0x00000000, 0x00000000, 0x00000000, 0x00000000, 0x00000000⟩
  , ⟨Reg.secKeyHash, 8, 4, .none, 0x00000000, 0xffffffff, 0x00000000, 0x00000000, 0x00000000⟩
  , ⟨Reg.secDbgCtl, 1, 4, .none, 0x00000001, 0x00000000, 0x00000000, 0x00000000, 0x00000000⟩
  , ⟨Reg.secFwStat, 1, 4, .none, 0x00000000, 0x00000000, 0x00000000, 0x00000000, 0x00000000⟩
  , ⟨Reg.secRngStat, 1, 4, .none, 0x00000000, 0x00000000, 0x00000000, 0x0000ffff, 0x00000000⟩
  , ⟨Reg.secTwCfg, 1, 4, .none, 0x00000003, 0x00000000, 0x00000000, 0x00000000, 0x00000001⟩
  , ⟨Reg.secTwStat, 1, 4, .none, 0x00000000, 0x00000000, 0x00000000, 0x0000ffff, 0x00000000⟩ ]

/-- The registers of block SAFETY. -/
def regRowsSafety : List RegRow :=
  [ ⟨Reg.safetyStat, 1, 4, .none, 0x00000000, 0x00000000, 0x0000007f, 0x00000000, 0x00000000⟩
  , ⟨Reg.safetyMask, 1, 4, .none, 0x00000000, 0x0000007f, 0x00000000, 0x00000000, 0x0000007e⟩
  , ⟨Reg.safetyEcc, 1, 4, .none, 0x00000000, 0x00000000, 0x00000000, 0xffffffff, 0x00000000⟩ ]

/-- The registers of block GLOBAL. -/
def regRowsGlobal : List RegRow :=
  [ ⟨Reg.globalId, 1, 4, .none, 0x00000000, 0x00000000, 0x00000000, 0x00000000, 0x00000000⟩
  , ⟨Reg.globalCap, 1, 4, .none, 0x00000000, 0x00000000, 0x00000000, 0x00000000, 0x00000000⟩
  , ⟨Reg.globalRev, 1, 4, .none, 0x00000000, 0x00000000, 0x00000000, 0x00000000, 0x00000000⟩
  , ⟨Reg.globalDieIdLo, 1, 4, .none, 0x00000000, 0x00000000, 0x00000000, 0x00000000, 0x00000000⟩
  , ⟨Reg.globalDieIdHi, 1, 4, .none, 0x00000000, 0x00000000, 0x00000000, 0x00000000, 0x00000000⟩
  , ⟨Reg.globalSealStat, 1, 4, .none, 0x00000000, 0x00000000, 0x00000000, 0x00000000, 0x00000000⟩
  , ⟨Reg.globalAccErr, 1, 4, .none, 0x00000000, 0x00000000, 0x00000000, 0x0000ffff, 0x00000000⟩
  , ⟨Reg.globalScratch, 1, 4, .none, 0xffffffff, 0x00000000, 0x00000000, 0x00000000, 0x00000000⟩ ]

/-- Every register of the map but the RTC calendar, whose counters are not set-up storage (R444). -/
def regRows : List RegRow :=
  regRowsLink ++ regRowsEngine ++ regRowsRail ++ regRowsTime0 ++ regRowsTime1 ++ regRowsPlan ++ regRowsPattern ++ regRowsHost ++ regRowsCapture ++ regRowsTrace ++ regRowsTwin ++ regRowsSup0 ++ regRowsSup1 ++ regRowsNvm ++ regRowsRec ++ regRowsSec ++ regRowsSafety ++ regRowsGlobal

/-- The row whose register lies at an offset. -/
def regRowAt (off : Nat) : Option RegRow :=
  regRows.find? fun r => decide (r.off ≤ off ∧ off < r.off + r.cnt * r.stride ∧ (off - r.off) % r.stride = 0)

end Sys2Proof.Machine
end

