-- ==== Sys2Proof/Machine/Tab.lean ====
section
/-! DEFINITION. Sparse tables in one canonical form: keys strictly rising, and no entry equal to what an unlisted key reads
as (given by a default function). Byte memories, register files and the per-unit state are such tables, so equal
contents are equal data. -/

namespace Sys2Proof.Machine

/-- A table read: the listed entry, or the default of the key. -/
def tabGet {α : Type} (d : Nat → α) : List (Nat × α) → Nat → α
  | [], i => d i
  | (k, v) :: t, i => if k = i then v else tabGet d t i

/-- Insert or replace at a key, keeping the keys rising. -/
def tabIns {α : Type} : List (Nat × α) → Nat → α → List (Nat × α)
  | [], i, v => [(i, v)]
  | (k, u) :: t, i, v =>
    if i < k then (i, v) :: (k, u) :: t
    else if i = k then (i, v) :: t
    else (k, u) :: tabIns t i v

/-- Remove a key, wherever it is listed. -/
def tabDel {α : Type} : List (Nat × α) → Nat → List (Nat × α)
  | [], _ => []
  | (k, u) :: t, i => if k = i then tabDel t i else (k, u) :: tabDel t i

/-- A table write: writing the default removes the entry. -/
def tabSet {α : Type} [DecidableEq α] (d : Nat → α) (t : List (Nat × α)) (i : Nat) (v : α) : List (Nat × α) :=
  if v = d i then tabDel t i else tabIns t i v

/-- Every key is above `lo`, keys rise strictly, and no entry equals its default. -/
def tabWfFrom {α : Type} [DecidableEq α] (d : Nat → α) : Nat → List (Nat × α) → Bool
  | _, [] => true
  | lo, (k, v) :: t => decide (lo ≤ k) && decide (v ≠ d k) && tabWfFrom d (k + 1) t

/-- The canonical form of a table. -/
def tabWf {α : Type} [DecidableEq α] (d : Nat → α) (t : List (Nat × α)) : Bool := tabWfFrom d 0 t

end Sys2Proof.Machine
end

