-- ==== Sys2Proof/Machine/State.lean ====
section
/-! DEFINITION. The state of the block as plain data: everything the spec gives the device, the queue of waiting commands, the
log of what the device sends, and the counter of free values. Per-unit state (lanes, cells, engines, rails, threads and so on)
is held in canonical sparse tables. Fields that only software writes (RW and RWS fields of the set-up registers) are
in `regs`; status that the device maintains has its own typed field, and a register read composes the word. -/

namespace Sys2Proof.Machine

/-- A byte memory: canonical table of address and byte. -/
abbrev Mem := List Host.Cell

/-- Reasons to stop with a fault. -/
inductive Fault where
  /-- Raised by no meaning: kept so that the type is inhabited; the spec names no stop of the block. Safe. -/
  | none
deriving DecidableEq, Repr

/-- Reasons to refuse. -/
inductive Refusal where
  /-- Raised by Dispatch for a command that has no meaning yet. Safe. -/
  | notModelled (mnemonic : String)
deriving DecidableEq, Repr

/-- Lane states (R100). -/
inductive LaneState where
  | off | locking | measuring | aligning | configuring | ready | run | parked | fault
deriving DecidableEq, Repr

/-- Engine states (R150). -/
inductive EngState where
  | off | loaded | run | relieved | stalled | guardLatched
deriving DecidableEq, Repr

/-- Rail states (R168). -/
inductive RailState where
  | off | stopped | armed | run | envTrip | standby
deriving DecidableEq, Repr

/-- Thread states (R318). -/
inductive ThrState where
  | off | run | wait | halted | faulted | frozen
deriving DecidableEq, Repr

/-- Power states (SUP.PWR_STAT.STATE, R476). -/
inductive PwrState where
  | reset | starting | run | trim | park | sleep | basting | off
deriving DecidableEq, Repr

/-- Bobbin states (R373). -/
inductive BobState where
  | unconfigured | idle | armed | post | locked | draining | stalled | gap | isolated
deriving DecidableEq, Repr

/-- Throttle states (R441). -/
inductive ThrtState where
  | normal | requested | enforced
deriving DecidableEq, Repr

/-- Discipline states (R215). -/
inductive DiscState where
  | free | acquiring | tracking | holdover
deriving DecidableEq, Repr

/-- Angle-source states (R223). -/
inductive EncState where
  | off | relative | valid | fault
deriving DecidableEq, Repr

/-- Cycle-source states (R227). -/
inductive CycState where
  | unbound | invalid | acquiring | tracking | holdover
deriving DecidableEq, Repr

/-- Life-cycle states (R516). -/
inductive LcState where
  | blank | vendor | integration | sealed | ret | void
deriving DecidableEq, Repr

/-- A downstream command waiting to be sent (R58 to R60, R118). `sw` bit 0 is the high side, bit 1 the low side; instants are ST values
at the gate command point. -/
inductive DnCmd where
  /-- An off-edge with LEAD 2 and POS 0, ahead of everything queued (R118): a guard edge, which cancels later turn-ons (R119), or, with
  `cancel` false, the turn-off of diode emulation (R132) or of a burst (R183, R184). -/
  | guardEdge (sw : BitVec 2) (prof : BitVec 4) (cancel : Bool)
  /-- A turn-on with LEAD 2 and POS 0 by the same path, moved later by the guard's dead time (R183, R184). -/
  | onNow (sw : BitVec 2)
  /-- An edge sent by the priority path at a given instant (R119 cancels, R183 supersedes). -/
  | prioEdge (sw : BitVec 2) (level : Bool) (at_ : DWord) (prof : BitVec 4)
  /-- An edge of the modulator (R123, R125); its profile is chosen when it is sent unless the program gave one (R129, R138). -/
  | edge (sw : BitVec 2) (level : Bool) (at_ : DWord) (prof : Option (BitVec 4))
  /-- RANGE_SET for the sample at or after an instant (R134). -/
  | rangeSet (coarse : Bool) (at_ : DWord)
  /-- PROFILE_WRITE (R60, R62). -/
  | profileWrite (prof : BitVec 4) (word : BitVec 2) (commit : Bool) (data : Word)
  /-- CONFIG (R60, R63). -/
  | config (wr : Bool) (cseq : Byte) (adr : Byte) (data : BitVec 16)
  /-- TAKE (R60, R399, R405). -/
  | take (term : Word) (arm : Bool)
deriving DecidableEq, Repr

/-- An edge that has left the device, with the band it was sent with (R129), kept while the guard may have to cancel it (R119) and while samples of its time may
still arrive. -/
structure SentEdge where
  sw : BitVec 2
  level : Bool
  at_ : DWord
  band : Nat := 0
deriving DecidableEq, Repr

/-- Transition timing of a lane's switch node (R110): the last sample pair and its instant, the level the node settled at last, and of a transition under way its first crossing (10 % of
the bus estimate when rising, 90 % when falling), the largest change of current from sample to sample, and the integral of v x i. -/
structure Trans where
  v : Int := 0
  i : Int := 0
  at_ : DWord := 0
  up : Bool := false
  first : Option DWord := none
  iFirst : Int := 0
  di : Nat := 0
  vi : Int := 0
deriving DecidableEq, Repr

/-- A transition that the pipeline has timed (R110): its direction, its 10 % and 90 % crossings in order of time, the current at the first, its di/dt in A/us and its integral of v x i in fJ. -/
structure Transit where
  up : Bool
  start : Nat
  stop : Nat
  cur : Int
  di : Nat
  vi : Int
deriving DecidableEq, Repr

/-- One lane, its cell's guard state included (R121: the guard state belongs to the cell). `txScr` and `rxScr` are the scramblers of the two directions (R42), `shN` and `shBad` the sync
headers counted for block lock, `seqIn` the SEQ of the last upstream superframe, `rtSum` the round trips summed and `advance` the downstream phase in ST units (R73),
`peer4` PEER_OK at step 4 (R95), `dtCell` the DT_MIN in the cell (R146), `lastDn` the last superframe sent, `rangeSf` the superframe of the last range change sent or seen
(R134), `swungHi` and `swungLo` the turn-offs whose swing has been timed (R127), `burstDe` and `burstProf` what a burst keeps of its page (R186). -/
structure Lane where
  st : LaneState := .off
  cause : BitVec 4 := 0
  flight : Byte := 0
  status : BitVec 12 := 0
  locked : Bool := false
  good : Nat := 0
  coarse : Bool := true
  settle : Nat := 0
  framErr : Nat := 0
  auxSeq : Byte := 0
  lastGood : Bool := false
  lastTrailer : DWord := 0
  auxHi : Option (Nat × Byte) := none
  aux : List (Nat × BitVec 16) := []
  attempts : Nat := 0
  measN : Nat := 0
  cfgSeq : Byte := 0
  cfgWait : Option (Byte × Byte × BitVec 16 × Bool) := none
  cfgAck : Option Byte := none
  cfgQ : List (Byte × BitVec 16 × Bool) := []
  cfgMode : Nat := 0
  profBlock : List Byte := []
  profOp : Option Nat := none
  lateOp : Option Nat := none
  hbCount : BitVec 16 := 0
  hbSince : Nat := 0
  armSince : Nat := 64
  dnq : List DnCmd := []
  sent : List SentEdge := []
  cmdHi : Bool := false
  cmdLo : Bool := false
  onHiAt : DWord := 0
  offHiAt : Option DWord := none
  offLoAt : Option DWord := none
  blind : Bool := false
  omitted : Bool := false
  silenced : Bool := false
  hits : BitVec 4 := 0
  hitsLast : BitVec 4 := 0
  interv : Bool := false
  intervN : Nat := 0
  latched : Bool := false
  holdHi : Bool := false
  holdLo : Bool := false
  vwinRun : Nat := 0
  useGuardHi : Bool := false
  useGuardLo : Bool := false
  ppLate : Bool := false
  burst : Bool := false
  burstTill : Option DWord := none
  deFired : Bool := false
  trainAt : DWord := 0
  txScr : BitVec 58 := 0
  rxScr : BitVec 58 := 0
  blkLock : Bool := false
  shN : Nat := 0
  shBad : Nat := 0
  badRun : Nat := 0
  goodAt : DWord := 0
  seqIn : Byte := 0
  rtSum : Nat := 0
  advance : Nat := 0
  peer4 : Bool := false
  dtCell : Nat := 0
  parkN : Nat := 0
  lastDn : Option Nat := none
  hbAt : DWord := 0
  ppLateLast : Bool := false
  rangeSf : Option Nat := none
  trans : Trans := {}
  swungHi : DWord := 0
  swungLo : DWord := 0
  burstDe : Bool := false
  burstProf : BitVec 4 := 0
deriving DecidableEq, Repr

/-- Who serves a cell and how far a relief sequence has come (R152, R156). -/
inductive Relief where
  | own
  | starting (op : Nat) (back : Bool) (step : Nat) (mismatch : Bool)
  | relieved
  | cold
deriving DecidableEq, Repr

/-- Sums of one switch's health estimates over the interval (R148): samples for the on-state slope with their sums of i, v, i x i and i x v, turn-ons timed, and turn-offs with the sum of their energies
normalised to 100 A, in fJ. -/
structure SideEst where
  n : Nat := 0
  i : Int := 0
  v : Int := 0
  ii : Int := 0
  iv : Int := 0
  nOn : Nat := 0
  nOff : Nat := 0
  eOff : Int := 0
deriving DecidableEq, Repr

/-- What a health record gathers for a cell (R148): intervention periods, DT_CLAMP events, the highest TEMP, whether relief carried the cell, when the interval began, the sums of the two switches, and the
thresholds and the thermal impedance of the first valid interval. -/
structure Health where
  guard : Nat := 0
  dt : Nat := 0
  temp : Option (BitVec 16) := none
  relief : Bool := false
  since : DWord := 0
  hi : SideEst := {}
  lo : SideEst := {}
  vthHi : Option Int := none
  vthLo : Option Int := none
  zth : Option Nat := none
deriving DecidableEq, Repr

/-- One cell's pages, relief state and health. -/
structure Cell where
  active : List Byte := []
  staged : List Byte := []
  swapOp : Option Nat := none
  /-- The page that an ordered swap brings (R33). -/
  swapPage : List Byte := []
  relief : Relief := .own
  health : Health := {}
deriving DecidableEq, Repr

/-- The outputs of a period program (R138). EDGEQ pushes are whole words, in order. -/
structure Outputs where
  duty : Word := 0
  mode : Word := 1
  rangeReq : Word := 0
  edgeq : List Word := []
  user0 : Word := 0
  user1 : Word := 0
deriving DecidableEq, Repr

/-- The accumulation stage of one period (R106, R110). -/
structure Acc where
  n : Nat := 0
  sumI : Int := 0
  sumSqI : Int := 0
  peakI : Int := 0
  sumV : Int := 0
  nBus : Nat := 0
  sumBus : Int := 0
  tOn : Nat := 0
  energy : Int := 0
deriving DecidableEq, Repr

/-- One cell engine (0 to 1023) or relief engine (1024 + k). `out` are the outputs of the last END, `outNow` those of the running period; `ppCycles` belongs to the last completed run, `lastCycles` to the
last run; `finished`: the run started last is over; `made`: the period whose edges the modulator has made; `eLast`: v x i over the closed period, in fJ. -/
structure Engine where
  st : EngState := .off
  carries : Option Nat := none
  regs : List (Nat × Word) := []
  loc : List (Nat × Word) := []
  image : List Word := []
  pc : Nat := 0
  running : Bool := false
  cycles : Nat := 0
  ppCycles : Nat := 0
  out : Outputs := {}
  stage : Outputs := {}
  inputs : List (Nat × Word) := []
  pub : List Byte := []
  pindex : Word := 0
  busEst : Option Word := none
  acc : Acc := {}
  ppFault : Bool := false
  overrun : Bool := false
  missEnd : Nat := 0
  ended : Bool := false
  lowJoined : Bool := false
  bound : DWord := 0
  lastI : Int := 0
  filtI : List Int := []
  filtV : List Int := []
  dtHL : Nat := 0
  dtLH : Nat := 0
  dtHLb : Nat := 0
  dtLHb : Nat := 0
  workProf : List (Nat × Nat) := []
  softN : List (Nat × Nat) := []
  hardN : List (Nat × Nat) := []
  fineHold : Nat := 0
  outNow : Outputs := {}
  lastCycles : Nat := 0
  finished : Bool := false
  stallAt : DWord := 0
  made : Option DWord := none
  eLast : Int := 0
deriving DecidableEq, Repr

/-- One rail. `reqs`: accepted rail operations that wait for its lead boundary, in order (R600). `edge` is the last rail boundary, `edge0` the one before, and `leadAt` the last boundary of its lead (R105); `eFine` is the energy
account in fJ, `sens` the samples and sums of the sense lane in the period; `endAt`: when the lead's run ENDed; `pubDone`: the period's publication has been decided; `qualAt`, `outAt`,
`taperAt`, `renewAt`, `provAt`, `burstAt`: since when the line holds its window or has left it, the CV current is below I_TAPER, the STORE fields stand, the last provisional pass, the burst; `holdN`: lead
periods since the burst. -/
structure Rail where
  active : List Byte := []
  staged : List Byte := []
  swapOp : Option (Nat × Bool) := none
  /-- The page that an ordered swap brings (R33). -/
  swapPage : List Byte := []
  reqs : List Nat := []
  st : RailState := .off
  sub : Nat := 0
  synced : Bool := false
  glide : Bool := false
  burst : Bool := false
  envWarn : Bool := false
  pubLate : Bool := false
  light : Bool := false
  limitsStale : Bool := false
  envCount : Nat := 0
  pMeas : Int := 0
  portions : List Nat := [0, 0, 0, 0, 0, 0, 0, 0]
  loTarget : Int := 0
  grantHi : Int := 0
  grantLo : Int := 0
  pcapPrev : Int := 0
  eacc : Int := 0
  eLast : Int := 0
  prov : Bool := false
  slotSince : Bool := false
  pubStage : List (Nat × Byte) := []
  leadEnded : Bool := false
  tAct : Nat := 0
  syncN : Nat := 0
  syncMiss : Nat := 0
  holdoff : Bool := false
  senseHist : List (Option Int) := []
  burstPage : List Byte := []
  inWindow : Bool := false
  lost : Bool := false
  lostPower : Int := 0
  lossByTrip : Bool := false
  vreg : Bool := false
  rampFrac : Nat := 0
  takeReq : Bool := false
  chgEvt : BitVec 10 := 0
  angleZero : Bool := false
  spNew : Bool := false
  edge : Option DWord := none
  edge0 : DWord := 0
  leadAt : DWord := 0
  eFine : Int := 0
  sens : Nat × Int × Int := (0, 0, 0)
  endAt : DWord := 0
  pubDone : Bool := true
  qualAt : DWord := 0
  outAt : DWord := 0
  taperAt : Option DWord := none
  renewAt : DWord := 0
  provAt : DWord := 0
  vAcc : Int := 0
  vCount : Nat := 0
  burstAt : DWord := 0
  holdN : Nat := 0
deriving DecidableEq, Repr

/-- The hand-over in progress (R201 to R204, R602): from the loss of an ONLINE source until HANDOVER_DONE or HO_FAIL. -/
structure Handover where
  on : Bool := false
  count : Nat := 0
  lost : List Nat := []
  late : Bool := false
  since : DWord := 0
deriving DecidableEq, Repr

/-- SYNC_IN as the feeders see it (R187, R205). -/
structure SyncIn where
  period : BitVec 24 := 0
  lost : Bool := false
  lastEdge : Option DWord := none
deriving DecidableEq, Repr

/-- Ship time and its discipline (R206 to R215). -/
structure Time where
  st : DWord := 0
  frac : Int := 0
  freqAdj : Int := 0
  freqTarget : Int := 0
  disc : DiscState := .free
  stHi : Word := 0
  lastEdge : Option DWord := none
  goodAt : DWord := 0
  slewAcc : Nat := 0
  adjAtEdge : Int := 0
  autoDone : Bool := false
  firstEdge : Bool := true
  goodEdges : Nat := 0
  ppsErr : Int := 0
  stepRej : Bool := false
  ppsRej : Bool := false
deriving DecidableEq, Repr

/-- One angle source (R217 to R223). `position` is the 64-bit position as an integer in units of 2^-32 turn. -/
structure Enc where
  st : EncState := .off
  cause : BitVec 4 := 0
  faults : Nat := 0
  count : Int := 0
  turn : Int := 0
  angle : Word := 0
  zSeen : Bool := false
  goodFrames : Nat := 0
  hist : List (Int × Nat) := []
  cntAt : DWord := 0
  cntPrev : DWord := 0
  cntUp : Bool := true
  nCounts : Nat := 0
  frameAt : Option DWord := none
  goodPos : Int := 0
  goodFrameAt : DWord := 0
  sample : Int := 0
  sampleAt : DWord := 0
  speed : Int := 0
  turnLatch : Word := 0
  speedLatch : Word := 0
deriving DecidableEq, Repr

/-- One cycle source (R226 to R228). -/
structure Cyc where
  st : CycState := .unbound
  phase : Word := 0
  rate : Nat := 0
  heldRate : Nat := 0
  cycles : Word := 0
  atSt : DWord := 0
  lowAt : Option DWord := none
  heldAt : DWord := 0
  trackAt : DWord := 0
  broke : Bool := true
deriving DecidableEq, Repr

/-- Consumers of marks (R229). -/
inductive MarkWho where
  | thread (t : Nat) (adr : Nat)
  | setpoint (op : Nat)
  | trigger (b : Nat) (term : Nat)
  | housekeeping
deriving DecidableEq, Repr

/-- An armed mark: its word's fields with the target worked out (R231); `due` is the instant for which a sample or the phase line schedules it (R232), `late` the instant at which it
turned out to be past, with the count of the other targets passed (R233, R234). -/
structure Mark where
  who : MarkWho
  kind : BitVec 2
  src : Nat
  anyTurn : Bool
  dir : BitVec 2
  target : DWord
  period : Word
  due : Option DWord := none
  late : Option (DWord × Nat) := none
deriving DecidableEq, Repr

/-- A running pass (R241, R283). -/
structure Pass where
  slot : Word
  from_ : DWord
  restarted : Bool
  requests : List Grant
  releases : List (Nat × Option Nat)
deriving DecidableEq, Repr

/-- The planner (R239 to R285). -/
structure Planner where
  slotNow : Word := 0
  slotStart : DWord := 0
  slotLen : Nat := 1000
  lockPhase : Option DWord := none
  passDone : Option Word := none
  nextStart : DWord := 0
  lenClosed : Nat := 1000
  lenNext : Option Word := none
  cfgLive : Word := 0x000103E8#32
  locked : Bool := false
  pass : Option Pass := none
  reqs : List Grant := []
  grants : List Grant := []
  releases : List (Nat × Option Nat) := []
  next : Option (Word × List Target × List Grant) := none
  nextAfterTrip : BitVec 8 := 0
  shed : List (List Nat) := []
  shedActive : Byte := 0
  latch : Byte := 0
  level : Byte := 0
  lockErr : Bool := false
  carried : Bool := false
  shedShort : Bool := false
  clamped : Bool := false
  uncovered : Bool := false
  tripLost : List Nat := []
  curtailed : Nat := 0
  running : Bool := true
  vbusClosed : Option Int := none
  online : List Nat := []
  clampActed : Bool := false
deriving DecidableEq, Repr

/-- What a pattern thread waits for (R293, R294). -/
inductive Wait where
  | event (ev : Nat) (rd : Nat) (timeout : Word)
  | mark (adr : Nat) (rd : Nat)
deriving DecidableEq, Repr

/-- An armed wait: what for, the address of its instruction, the handler level it was issued at (0 none, 1 normal, 2 fast), and the result latched for it
with a mark's fire instant (R297). -/
structure WaitRec where
  on : Wait
  pc : Nat
  level : Nat
  result : Option Word := none
  fire : DWord := 0
  since : DWord := 0
deriving DecidableEq, Repr

/-- One store-buffer entry (R307). -/
structure StEntry where
  adr : Nat
  len : Nat
  data : Word
deriving DecidableEq, Repr

/-- One pattern thread (R286 to R318). -/
structure Thread where
  st : ThrState := .off
  cause : BitVec 4 := 0
  pc : Nat := 0
  p : List (Nat × Word) := []
  f : List (Nat × Word) := []
  nie : Bool := false
  fie : Bool := false
  inNormal : Bool := false
  inFast : Bool := false
  npc : Word := 0
  fpc : Word := 0
  ievN : BitVec 9 := 0
  ievF : BitVec 9 := 0
  fire : DWord := 0
  stHi : Word := 0
  nwr : Nat := 0
  nrd : Nat := 0
  held : List (List Byte) := []
  buf : List StEntry := []
  waits : List WaitRec := []
  sel : Option (Nat × Bool) := none
  vbase : Nat := 0
  gev : Nat := 0
  nbase : Nat := 0
  frozenFrom : ThrState := .off
  stAt : DWord := 0
deriving DecidableEq, Repr

/-- One ring (R323 to R331, R358). Key: SQ q at q, CQ q at 64 + q, EQ at 128, AQ a at 192 + a. -/
structure Ring where
  en : Bool := false
  st : Nat := 0
  cause : Nat := 0
  prod : Nat := 0
  cons : Nat := 0
  phase : Bool := false
  unsig : Nat := 0
  unsigAt : DWord := 0
  turn : Nat := 0
deriving DecidableEq, Repr

/-- An operation in flight (R343, R348), in fetch order in `State.ops`. `tag` 4096 is the running start-plan entry (R472).
`committed`: the tag table holds its commit point (R348); `done`: it has ended and its completion record waits to be
written (R342). -/
structure Op where
  tag : Nat
  sq : Nat
  desc : List Byte
  data : Option (List Byte) := none
  waiting : Bool := false
  held : Bool := false
  accepted : Bool := false
  since : DWord := 0
  applied : Bool := false
  committed : Bool := false
  step : Nat := 0
  value : Nat := 0
  done : Bool := false
deriving DecidableEq, Repr

/-- A fetched archive extent (R359). -/
structure Extent where
  bus : Nat
  len : Nat
  arch : Nat
  used : Nat
deriving DecidableEq, Repr

/-- The host interface but for the rings' own state (R319 to R360). -/
structure HostIf where
  ready : Bool := false
  dbErr : Bool := false
  fetchStop : Bool := false
  heldLost : Nat := 0
  lossyLost : Nat := 0
  repHeld : Nat := 0
  repLossy : Nat := 0
  evSeq : BitVec 16 := 0
  accErr : Nat := 0
  rdata : Word := 0
  pba : List Nat := []
  msixMask : List Nat := []
  perst : Bool := false
  rrHigh : Nat := 0
  rrLow : Nat := 0
  polledAt : DWord := 0
deriving DecidableEq, Repr

/-- A stored frame: step, lane and its 25 words (R362, R363). -/
structure Frame where
  step : Nat
  lane : Nat
  words : List DWord
deriving DecidableEq, Repr

/-- A summary frame being gathered for a lane and step (R363): sample count, sums, sums of squares and extremes of current and voltage, STATUS, superframe
counts, range changes, and the auxiliary values and trailer the lane had last. -/
structure Red where
  step : Nat
  lane : Nat
  n : Nat := 0
  iSum : Int := 0
  iSq : Int := 0
  iMin : Int := 0
  iMax : Int := 0
  vSum : Int := 0
  vSq : Int := 0
  vMin : Int := 0
  vMax : Int := 0
  stOr : BitVec 12 := 0
  stLast : BitVec 12 := 0
  good : Nat := 0
  bad : Nat := 0
  rng : Nat := 0
  aux : List Nat := []
  trailer : DWord := 0
deriving DecidableEq, Repr

/-- A committed object (R365): `first` is its first step; `pieces` are the archive ranges written, `drained` the bytes written. -/
structure Object where
  seq : Word
  flags : Byte
  stFirst : DWord
  stTrig : DWord
  first : Nat
  pre : Nat
  post : Nat
  trig : BitVec 16
  extra : Nat
  gap : Nat
  frames : List Frame
  bytes : List Byte
  pieces : List (Nat × Nat)
  drained : Nat
deriving DecidableEq, Repr

/-- One bobbin (R361 to R383). `sf` is the superframe being gathered, `since` the first step recorded since arming or of the current chunk, `hits` the
instants of trigger terms (4: the host's) with the superframe each is true from. -/
structure Bobbin where
  cfg : List Byte := []
  st : BobState := .unconfigured
  missed : Nat := 0
  bound : Option Nat := none
  seq : Word := 0
  sf : Option Nat := none
  since : Option Nat := none
  was : Bool := false
  trigStep : Nat := 0
  stTrig : DWord := 0
  trig : BitVec 16 := 0
  trigOp : Option Nat := none
  extra : Nat := 0
  gap : Nat := 0
  gapBefore : Bool := false
  hits : List (Nat × Nat × DWord) := []
  frames : List Frame := []
  reds : List Red := []
  cur : List Byte := []
  curFirst : DWord := 0
  objects : List Object := []
deriving DecidableEq, Repr

/-- Capture, archive and trace (R361 to R389). -/
structure Capture where
  ue : Bool := false
  ce : Nat := 0
  held : List (Nat × Nat) := []
  order : List (Nat × Nat) := []
  drain : List (Nat × Nat × Nat) := []
  stalledAq : List Nat := []
  fullAq : List Nat := []
  paused : Bool := false
  traceCtl : List Byte := []
  halted : Bool := false
  buf : List (DWord × List Byte) := []
  lost : Nat := 0
  tackSeq : Word := 0
  lastAt : DWord := 0
  tackAt : DWord := 0
deriving DecidableEq, Repr

/-- An action that waits for its apply instant (R397). -/
inductive Apply where
  | op (tag : Nat)
  | peerOp (desc : List Byte)
  | rsp (rail : Nat) (value : Word)
deriving DecidableEq, Repr

/-- Twin operation (R390 to R417). `termAt`: when the term took effect (R500); `waiting`: an OFF device waits for its twin (R415), `waits` START_WAITs have passed. `takeAt`: the last TAKE left then (R414).
`taken`, `passBegun`: requests that the lost twin's pass has taken (R408). `aligns`: rails realigned of late (R402), `await`: rails whose copy is due, `copies`:
copies that came first. `mism`: mismatching rails, each since when; `badOwn`, `badPeer`: CRC-fail bitmaps that wait for their counterpart, `sfSent`: the last superframe of which the twin was told; `frameAt`: the last good
dovetail frame; `waitAt`: since when an OFF device waits; `bidAt`: when the TAKE of the bid left; `aliveAt`: the last change of TWIN_ALIVE_OUT; `applyQ`: actions with their apply instants. -/
structure Twin where
  st : TwinState := .off
  term : Word := 0
  termAt : DWord := 0
  aligned : Bool := false
  link : Bool := false
  dvUp : Byte := 0
  aliveIn : Bool := false
  aliveOut : Bool := false
  reqIn : Bool := false
  cmdRej : Bool := false
  termErr : Bool := false
  raises : Nat := 0
  takeAt : Option DWord := none
  loss : BitVec 5 := 0
  lossAt : DWord := 0
  realigns : Nat := 0
  crcDiv : Nat := 0
  peer : TwinState := .off
  peerSt : DWord := 0
  peerTerm : Word := 0
  badHere : List Nat := []
  badOwn : List (List Nat) := []
  badPeer : List (List Nat) := []
  sfSent : Option Nat := none
  frameAt : DWord := 0
  waitAt : DWord := 0
  bidAt : Option DWord := none
  aliveAt : Option DWord := none
  peerFault : List Nat := []
  digOwn : List (Nat × List (BitVec 16)) := []
  digPeer : List (Nat × List (BitVec 16)) := []
  mism : List (Nat × DWord) := []
  slotMism : Bool := false
  aligns : List (Nat × DWord) := []
  await : List Nat := []
  copies : List (Nat × List (Nat × Byte) × List (Nat × Byte)) := []
  joinStep : Nat := 0
  joinCount : Nat := 0
  joinIn : Option DvItem := none
  applyQ : List (DWord × Apply) := []
  taken : List Grant := []
  passBegun : Bool := false
  yielded : Bool := false
  yieldIn : Bool := false
  waiting : Bool := false
  waits : Nat := 0
deriving DecidableEq, Repr

/-- One window comparator (R431 to R433). -/
structure Wc where
  rd : WcRead := .inside
  capt : Word := 0
  stres : Nat := 0
  test : Nat := 0
  stbusy : Bool := false
  testAt : Nat := 0
deriving DecidableEq, Repr

/-- The supervisor (R418 to R460). -/
structure Sup where
  seq : Nat := 0
  seqRail : Nat := 1
  seqGood : Bool := false
  firstFail : Nat := 0
  en : BitVec 12 := 1
  target : Nat := 1
  vin : Nat := 0
  vinOk : Bool := true
  vinMin : Option Nat := none
  vinMinRec : Option Nat := none
  brace : Bool := false
  braceAt : Nat := 0
  vinOkAt : Nat := 0
  seqAt : Nat := 0
  dipOff : Bool := false
  snap : BitVec 12 := 0
  hkBusy : Bool := false
  hkMarkErr : Bool := false
  hkDue : List Nat := []
  hkAt : Nat := 0
  tempAt : Nat := 0
  hkOverrun : Nat := 0
  hkRound : Byte := 0
  hkLate : Bool := false
  hkTempDue : Bool := false
  hkRes : List (Nat × Word) := []
  temps : List (Nat × Word) := []
  hot : BitVec 4 := 0
  bulk : ThrtState := .normal
  ana : ThrtState := .normal
  bulkAt : Nat := 0
  anaAt : Nat := 0
  rtc : List (Nat × Byte) := [(3, 1), (4, 1)]
  rtcAt : Nat := 0
  osf : Bool := true
  rtcRej : Bool := false
  shBar : Option (List (Nat × Byte)) := none
  shTw : Option (List (Nat × Byte)) := none
  shBarAt : Nat := 0
  shTwAt : Nat := 0
  wdtRun : Bool := false
  wdtKeyAt : Option Nat := none
  wdtSince : Nat := 0
  wdtSaid : Bool := false
  badKey : Nat := 0
  warned : Bool := false
  wdtOffLogged : Bool := false
  pressed : Bool := false
  pressAt : Nat := 0
  short : Bool := false
  pbHeld : Nat := 0
  forced : Bool := false
  wdx : Bool := false
  wdxAt : Nat := 0
  batsw : Bool := false
  batswAt : Nat := 0
  mr : Bool := false
  logLost : Bool := false
  newLogs : List (Nat × Nat) := []
  boot : Word := 0
deriving DecidableEq, Repr

/-- A closing or closed selvedge (R483, R485). -/
structure Selvedge where
  kind : Nat
  index : Nat
  force : Bool
  op : Nat
  closed : Bool
deriving DecidableEq, Repr

/-- Reset, start-up and power states (R461 to R490). -/
structure Pwr where
  st : PwrState := .reset
  wakeCause : BitVec 4 := 0
  rej : Bool := false
  episode : Bool := true
  raised : List RstSrc := [.por]
  held : List RstSrc := [.por]
  startTo : Bool := false
  taken : Bool := true
  yielding : Bool := false
  yieldAt : Nat := 0
  raisedAt : List (RstSrc × Nat) := []
  relAt : Nat := 0
  startAt : Nat := 0
  runAt : Nat := 0
  borDown : Bool := false
  causeFirst : BitVec 4 := 0
  causeSrc : BitVec 9 := 1
  causeTo : Bool := false
  fails : Nat := 0
  stage : Nat := 0
  prevReady : Bool := true
  ready : Bool := false
  step : Nat := 0
  planIdx : Nat := 0
  planStatus : Byte := 0
  planErr : Bool := false
  planDone : Bool := false
  planRunning : Bool := false
  wakeUp : Bool := false
  stAlarm : Bool := false
  offNext : Bool := false
  retry : Bool := false
  seqFails : Nat := 0
  selv : List Selvedge := []
  island : Bool := true
  islandOp : Option Nat := none
  appliedRows : Nat := 0
  badRows : Nat := 0
  applied : Bool := false
deriving DecidableEq, Repr

/-- Who runs an NVM page program (R501, NVM.STAT.OWNER). -/
inductive NvmOwner where
  | host (op : Nat)
  | twowire
  | supervisor (what : Nat)
  | image (op : Nat) (page : Nat)
deriving DecidableEq, Repr

/-- The page program that is running. -/
structure NvmJob where
  owner : NvmOwner
  page : Nat
  data : List Byte
deriving DecidableEq, Repr

/-- The NVM and OTP controllers and the life cycle (R491 to R522). -/
structure Nvm where
  mem : Mem := []
  job : Option NvmJob := none
  waitHost : List Nat := []
  waitSup : List (Nat × List Byte) := []
  twBuf : List (Nat × Byte) := []
  twErr : Bool := false
  twBusy : Bool := false
  fails : Nat := 0
  rej : Bool := false
  unlocked : Bool := false
  pwd : List (Nat × Word) := []
  otp : List (Nat × DWord) := [(2, 0xFE01#64), (3, 0xFE01#64), (4, 0xFD02#64), (5, 0xFD02#64)]
  spares : List (Nat × DWord) := []
  redir : List Nat := []
  weak : List Nat := []
  otpLo : Word := 0
  otpHi : Word := 0
  otpRedir : Bool := false
  otpFull : Bool := false
  lc : LcState := .integration
  interrupted : Bool := false
  pendingSeal : Bool := false
  sealedNow : Bool := false
  reopened : Bool := false
  lcJob : Option (Nat × List (Nat × DWord)) := none
  fuseJob : List (Nat × DWord) := []
deriving DecidableEq, Repr

/-- The debug chain (R538): which lockstep pairs stand halted (bit n, pair n), what was read or written of the halted cores' registers (key 4096 x pair + register) and of
their memory, and the pattern threads that the chain has halted, each with the state it comes back to. -/
structure Debug where
  pairs : Nat := 0
  regs : List (Nat × Word) := []
  mem : List (Nat × Word) := []
  threads : List (Nat × ThrState) := []
deriving DecidableEq, Repr

/-- The security unit: images, challenge, TAP, TRNG, two-wire port, recovery (R523 to R548). -/
structure Sec where
  chal : Option (List Byte) := none
  respFails : Nat := 0
  staging : List Nat := []
  staged : Option (Nat × List Byte) := none
  bank : Bool := false
  gen : Word := 0
  otherValid : Bool := false
  fwPairs : Nat := 0
  fwOp : Option Nat := none
  rngReady : Bool := false
  rngFails : Nat := 0
  tapIr : Byte := 0x01
  bsr : DWord := 0
  twPtr : Nat := 0
  twLatch : Word := 0
  twWc : BitVec 4 := 0
  fwWc : BitVec 4 := 0
  nacks : Nat := 0
  hang : Bool := false
  adr : BitVec 2 := 0
  recBusy : Bool := false
  recResult : Nat := 0
  recOp : List Byte := []
  dbg : Debug := {}
  fwWrites : List (Nat × Word) := []
  chalAt : Nat := 0
deriving DecidableEq, Repr

/-- What the device sends outside (log entry 3). -/
inductive Out where
  | superframe (lane : Nat) (blocks : List (BitVec 2 × DWord))
  | cqRecord (q : Nat) (adr : Nat) (bytes : List Byte)
  | eqRecord (adr : Nat) (bytes : List Byte)
  | hostWrite (adr : Nat) (bytes : List Byte)
  | hostRead (adr : Nat) (len : Nat)
  | msix (vec : Nat)
  | dovetail (i : DvItem)
  | yieldMsg
  | resetReq
  | archive (bus : Nat) (arch : Nat) (off : Nat) (len : Nat) (obj : Object)
  | syncOut (rail : Nat)
  | twowire (bytes : List Byte)
  | nack
  | jtag (ir : Byte) (reg : DWord)
deriving DecidableEq, Repr

/-- The state of the block. -/
structure State where
  pending : List Instr := []
  out : List Out := []
  free : Nat := 0
  /-- Cycles of 10 ns that have passed, in every power state: the model's own measure of time where ST does not run (log entry 1). -/
  cycles : Nat := 0
  grade : BitVec 2 := 0
  regs : List (Nat × Word) := []
  lanes : List (Nat × Lane) := []
  cells : List (Nat × Cell) := []
  engines : List (Nat × Engine) := []
  guardSram : List (Nat × Word) := []
  guardOtp : Bool := false
  guardUe : List Nat := []
  guardRej : Bool := false
  drawerMem : Mem := []
  railMem : Mem := []
  ledger : Mem := []
  patMem : List (Nat × Word) := []
  rails : List (Nat × Rail) := []
  sync : SyncIn := {}
  ho : Handover := {}
  time : Time := {}
  encs : List (Nat × Enc) := []
  cycs : List (Nat × Cyc) := []
  marks : List Mark := []
  plan : Planner := {}
  threads : List (Nat × Thread) := []
  evPend : List (Nat × BitVec 16) := []
  deadlock : Bool := false
  foreign : Bool := false
  broken : BitVec 4 := 0
  /-- When a route last changed (R316). -/
  routeAt : DWord := 0
  rings : List (Nat × Ring) := []
  ops : List Op := []
  cqWait : List (Nat × List (List Byte × Bool × Nat)) := []
  eqHeld : List (List Byte) := []
  eqLossy : List (List (List Byte)) := []
  host : HostIf := {}
  extents : List (Nat × List Extent) := []
  bobs : List (Nat × Bobbin) := []
  cap : Capture := {}
  twin : Twin := {}
  wcs : List (Nat × Wc) := []
  sup : Sup := {}
  pwr : Pwr := {}
  nvm : Nvm := {}
  sec : Sec := {}
  safetyStat : BitVec 7 := 0
  ue : Nat := 0
  ce : Nat := 0
deriving DecidableEq, Repr

/-- The machine right after power-up reset: VSUP has entered its window, POR is raised and holds (R462), only
VSUP is enabled (SUP.SEQ_STAT reset 0x0000_0001), every register at its reset value. NVM is erased and the OTP is that
of a part as shipped, in INTEGRATION (log entry 11); registers without a stated value follow log entry 12. -/
def State.reset : State := {}

end Sys2Proof.Machine
end

