-- ==== Sys2Proof/Machine/Ops.lean ====
section
/-! DEFINITION. The named operations over the state: reading and writing a unit, a register's stored bits and the byte
memories; what leaves the device; free values; and the grade's fused quarters. -/

namespace Sys2Proof.Machine

/-- A quotient for which the spec states no rounding: exact when it is whole, else the floor or one more (log entry 7). -/
def roundDiv (a : Int) (b : Nat) : Int :=
  if b = 0 then 0
  else if Int.fmod a b = 0 then Int.fdiv a b
  else if Config.roundUp a b then Int.fdiv a b + 1 else Int.fdiv a b

/-- Send something outside (log entry 3). -/
def State.emit (s : State) (o : Out) : State := { s with out := o :: s.out }

/-- Send several things, in order. -/
def State.emitAll (s : State) (l : List Out) : State := l.foldl State.emit s

/-- A fresh free word (log entry 4). -/
def State.freshWord (s : State) : Word × State := (Config.freeWord s.free, { s with free := s.free + 1 })

/-- A fresh free yes or no (log entry 4). -/
def State.freshBool (s : State) : Bool × State := (Config.freeBool s.free, { s with free := s.free + 1 })

/-- A list of n fresh free bytes (log entry 4). -/
def State.freshBytes (s : State) (n : Nat) : List Byte × State :=
  ((List.range n).map fun i => Config.freeByte (s.free + i), { s with free := s.free + n })

/-! ## Units -/

/-- Lane n. -/
def State.lane (s : State) (n : Nat) : Lane := tabGet (fun _ => {}) s.lanes n
/-- Put lane n. -/
def State.setLane (s : State) (n : Nat) (l : Lane) : State := { s with lanes := tabSet (fun _ => {}) s.lanes n l }
/-- Change lane n. -/
def State.modLane (s : State) (n : Nat) (f : Lane → Lane) : State := s.setLane n (f (s.lane n))

/-- Cell n. -/
def State.cell (s : State) (n : Nat) : Cell := tabGet (fun _ => {}) s.cells n
/-- Put cell n. -/
def State.setCell (s : State) (n : Nat) (c : Cell) : State := { s with cells := tabSet (fun _ => {}) s.cells n c }
/-- Change cell n. -/
def State.modCell (s : State) (n : Nat) (f : Cell → Cell) : State := s.setCell n (f (s.cell n))

/-- Engine e: CE e below 1,024, RE k at 1,024 + k. -/
def State.eng (s : State) (e : Nat) : Engine := tabGet (fun _ => {}) s.engines e
/-- Put engine e. -/
def State.setEng (s : State) (e : Nat) (g : Engine) : State := { s with engines := tabSet (fun _ => {}) s.engines e g }
/-- Change engine e. -/
def State.modEng (s : State) (e : Nat) (f : Engine → Engine) : State := s.setEng e (f (s.eng e))

/-- Rail m. -/
def State.rail (s : State) (m : Nat) : Rail := tabGet (fun _ => {}) s.rails m
/-- Put rail m. -/
def State.setRail (s : State) (m : Nat) (r : Rail) : State := { s with rails := tabSet (fun _ => {}) s.rails m r }
/-- Change rail m. -/
def State.modRail (s : State) (m : Nat) (f : Rail → Rail) : State := s.setRail m (f (s.rail m))

/-- Angle source k. -/
def State.enc (s : State) (k : Nat) : Enc := tabGet (fun _ => {}) s.encs k
/-- Put angle source k. -/
def State.setEnc (s : State) (k : Nat) (e : Enc) : State := { s with encs := tabSet (fun _ => {}) s.encs k e }

/-- Cycle source k. -/
def State.cyc (s : State) (k : Nat) : Cyc := tabGet (fun _ => {}) s.cycs k
/-- Put cycle source k. -/
def State.setCyc (s : State) (k : Nat) (c : Cyc) : State := { s with cycs := tabSet (fun _ => {}) s.cycs k c }

/-- Thread t. -/
def State.thr (s : State) (t : Nat) : Thread := tabGet (fun _ => {}) s.threads t
/-- Put thread t. -/
def State.setThr (s : State) (t : Nat) (x : Thread) : State := { s with threads := tabSet (fun _ => {}) s.threads t x }
/-- Change thread t. -/
def State.modThr (s : State) (t : Nat) (f : Thread → Thread) : State := s.setThr t (f (s.thr t))

/-- Ring k: SQ q at q, CQ q at 64 + q, the EQ at 128, AQ a at 192 + a. -/
def State.ring (s : State) (k : Nat) : Ring := tabGet (fun _ => {}) s.rings k
/-- Put ring k. -/
def State.setRing (s : State) (k : Nat) (r : Ring) : State := { s with rings := tabSet (fun _ => {}) s.rings k r }
/-- Change ring k. -/
def State.modRing (s : State) (k : Nat) (f : Ring → Ring) : State := s.setRing k (f (s.ring k))

/-- Bobbin b. -/
def State.bob (s : State) (b : Nat) : Bobbin := tabGet (fun _ => {}) s.bobs b
/-- Put bobbin b. -/
def State.setBob (s : State) (b : Nat) (x : Bobbin) : State := { s with bobs := tabSet (fun _ => {}) s.bobs b x }
/-- Change bobbin b. -/
def State.modBob (s : State) (b : Nat) (f : Bobbin → Bobbin) : State := s.setBob b (f (s.bob b))

/-- Window comparator i. -/
def State.wc (s : State) (i : Nat) : Wc := tabGet (fun _ => {}) s.wcs i
/-- Put window comparator i. -/
def State.setWc (s : State) (i : Nat) (w : Wc) : State := { s with wcs := tabSet (fun _ => {}) s.wcs i w }

/-! ## Stored register bits -/

/-- Nominal and full-scale voltage in mV of the rail that WC0 to WC11 watch (R419). -/
def wcNominal : Nat → Nat × Nat
  | 0 => (3300, 4096) | 1 => (2500, 4096) | 2 => (3300, 4096) | 3 => (1800, 2048) | 4 => (1200, 2048) | 5 => (750, 1024)
  | 6 => (750, 1024) | 7 => (850, 1024) | 8 => (1200, 2048) | 9 => (1800, 2048) | 10 => (1100, 2048) | 11 => (400, 1024)
  | _ => (0, 1)

/-- SUP.WC_CFG at reset: LO and HI at 95 % and 105 % of nominal rounded (R431), FILT 3; WC12 to WC15 have no stated thresholds (log
entry 12). -/
def wcCfgReset (i : Nat) : Word :=
  let (n, f) := wcNominal i
  let lo := (95 * n * 4096 + 50 * f) / (100 * f)
  let hi := (105 * n * 4096 + 50 * f) / (100 * f)
  putf 20 12 hi ||| putf 8 12 lo ||| 0x60

/-- The key of a stored register: its offset and its window position. -/
def regKey (off ix : Nat) : Nat := off * 2048 + ix

/-- What a stored register reads when nothing is listed: its reset value. -/
def regDefault (key : Nat) : Word :=
  if key / 2048 = Reg.supWcCfg then wcCfgReset (key % 2048)
  else match regRowAt (key / 2048) with
    | some r => r.rst
    | none => 0

/-- The stored (RW and RWS) bits of the register at an offset and window position. -/
def State.reg (s : State) (off : Nat) (ix : Nat := 0) : Word := tabGet regDefault s.regs (regKey off ix)

/-- Put the stored bits of a register. -/
def State.setReg (s : State) (off ix : Nat) (v : Word) : State :=
  { s with regs := tabSet regDefault s.regs (regKey off ix) v }

/-! ## Byte memories -/

/-- Read one byte of a memory whose unlisted bytes read as `d`. -/
def memGet (d : Byte) (m : Mem) (a : Nat) : Byte := tabGet (fun _ => d) m a

/-- Write one byte. -/
def memSet (d : Byte) (m : Mem) (a : Nat) (v : Byte) : Mem := tabSet (fun _ => d) m a v

/-- Read n bytes, lowest address first. -/
def memRead (d : Byte) (m : Mem) (a : Nat) : Nat → List Byte
  | 0 => []
  | n + 1 => memGet d m a :: memRead d m (a + 1) n

/-- Write bytes from an address up. -/
def memWrite (d : Byte) (m : Mem) (a : Nat) : List Byte → Mem
  | [] => m
  | b :: t => memWrite d (memSet d m a b) (a + 1) t

/-- The little-endian number of n bytes. -/
def memLe (m : Mem) (a n : Nat) : Nat := leAt (memRead 0 m a n) 0 n

/-- Ledger memory is 256 KiB (R286). -/
def ledgerSize : Nat := 0x40000

/-- The first byte of the read-only regions of ledger memory (R286). -/
def ledgerRo : Nat := 0x3BE00

/-- Write bytes into ledger memory; bytes past its end are dropped. -/
def State.ledgerWrite (s : State) (a : Nat) (bs : List Byte) : State :=
  { s with ledger := memWrite 0 s.ledger a (bs.take (ledgerSize - a)) }

/-- A number of n bytes from ledger memory. -/
def State.ledgerLe (s : State) (a n : Nat) : Nat := memLe s.ledger a n

/-- n bytes of ledger memory. -/
def State.ledgerBytes (s : State) (a n : Nat) : List Byte := memRead 0 s.ledger a n

/-- A number of n bytes from rail memory of rail m (R172). -/
def State.rmLe (s : State) (m off n : Nat) : Nat := memLe s.railMem (4096 * m + off) n

/-- The same, signed. -/
def State.rmInt (s : State) (m off n : Nat) : Int := asSigned (8 * n) (s.rmLe m off n)

/-- Write n little-endian bytes into rail memory of rail m. -/
def State.rmPut (s : State) (m off n v : Nat) : State :=
  { s with railMem := memWrite 0 s.railMem (4096 * m + off) (toLe n v) }

/-- The same for a signed value. -/
def State.rmPutI (s : State) (m off n : Nat) (v : Int) : State := s.rmPut m off n (toTwos (8 * n) v)

/-- Write n little-endian bytes into drawer memory of drawer k. -/
def State.dmPut (s : State) (k off n v : Nat) : State :=
  { s with drawerMem := memWrite 0 s.drawerMem (4096 * k + off) (toLe n v) }

/-- NVM bytes; an unlisted byte is erased, 0xFF (log entry 11). -/
def State.nvmBytes (s : State) (a n : Nat) : List Byte := memRead 0xFF s.nvm.mem a n

/-- Program NVM bytes. -/
def State.nvmPut (s : State) (a : Nat) (bs : List Byte) : State :=
  { s with nvm := { s.nvm with mem := memWrite 0xFF s.nvm.mem a bs } }

/-- An OTP row (R510); an unlisted row reads 0. -/
def State.otpRow (s : State) (r : Nat) : DWord := tabGet (fun _ => 0) s.nvm.otp r

/-- Put an OTP row. -/
def State.setOtp (s : State) (r : Nat) (v : DWord) : State :=
  { s with nvm := { s.nvm with otp := tabSet (fun _ => 0) s.nvm.otp r v } }

/-! ## Grade (R5 to R8) -/

/-- How many quarters the grade has enabled (R5, GLOBAL.CAP). -/
def quartersOf (grade : BitVec 2) : Nat :=
  match grade.toNat with
  | 0 => 4 | 1 => 2 | 2 => 1 | _ => 0

/-- Lane, cell or engine n lies in an enabled quarter (R21). -/
def State.laneOk (s : State) (n : Nat) : Bool := decide (n / 256 < quartersOf s.grade)

/-- Rail m lies in an enabled quarter (R21). -/
def State.railOk (s : State) (m : Nat) : Bool := decide (m < 64 ∧ m / 16 < quartersOf s.grade)

/-- Drawer k lies in an enabled quarter (R21). -/
def State.drawerOk (s : State) (k : Nat) : Bool := decide (k < 64 ∧ k / 16 < quartersOf s.grade)

/-- The part is sealed: SEALED, RETURN or VOID is in force (R570). -/
def State.isSealed (s : State) : Bool :=
  s.nvm.sealedNow || s.nvm.lc == .sealed || s.nvm.lc == .ret || s.nvm.lc == .void

/-- The twin state is ACTIVE or SOLO. -/
def State.roleActs (s : State) : Bool := s.twin.st == .solo || s.twin.st == .active

/-- A number of 10 ns cycles has passed since an instant (log entry 1). -/
def State.passed (s : State) (since n : Nat) : Bool := decide (since + n ≤ s.cycles)

/-- Cycles in a microsecond. -/
abbrev usCycles : Nat := 100
/-- Cycles in a millisecond. -/
abbrev msCycles : Nat := 100000

/-- The host and the device reach each other: the firmware runs, the device does not sleep, is not in BASTING, OFF or a reset (R319, R320, R360, R469, R480), and PERST# does not hold the link
down (R481). -/
def State.ringsUp (s : State) : Bool :=
  s.host.ready && !s.host.perst && !(s.pwr.st == .sleep || s.pwr.st == .basting || s.pwr.st == .off || s.pwr.st == .reset)

/-- An access of the host to a register of BAR0: nothing where the host does not reach it. -/
def State.viaBar0 (s : State) (f : State → State) : State := if s.ringsUp then f s else s

/-- A path reaches the supervisor space (R418, R539): BAR0 where it is reachable, in BASTING too; accesses of the two-wire port and the firmware stand for ones that those have made. -/
def State.pathUp (s : State) : Path → Bool
  | .bar0 => s.ringsUp || (s.pwr.st == .basting && !s.host.perst)
  | .twowire | .firmware => true

end Sys2Proof.Machine
end

