-- ==== Sys2Proof/Machine/Events.lean ====
section
/-! DEFINITION. Raising pattern events and hardware sources (R298 to R302), sending event records (R351 to R353), completion records (R340 to
R342) and interrupt messages (R354), and the operations in flight (R343, R345). -/

namespace Sys2Proof.Machine

/-! ## Pattern events and the interrupt controller -/

/-- PATTERN.EV_ROUTE of event e. -/
def State.route (s : State) (e : Nat) : Word := s.reg Reg.patternEvRoute e

/-- The pending bits of event e, one per thread (R299). -/
def State.pend (s : State) (e : Nat) : BitVec 16 := tabGet (fun _ => 0) s.evPend e

/-- Put the pending bits of event e. -/
def State.setPend (s : State) (e : Nat) (v : BitVec 16) : State := { s with evPend := tabSet (fun _ => 0) s.evPend e v }

/-- A thread that can take interrupts at all (R288). -/
def thrTakes (x : Thread) : Bool := x.st == .run || x.st == .wait

/-- A route is an interrupt that this thread can take now (R301). -/
def irqTakeable (x : Thread) (r : Word) : Bool :=
  wbit r 30 && thrTakes x &&
    (if wbit r 29 then x.fie && !x.inFast else x.nie && !x.inNormal && !x.inFast)

/-- Fast before normal, then the higher PRIO; the earlier number wins ties because events are met in rising order (R301). -/
def irqRank (r : Word) : Nat := 8 * b2n (wbit r 29) + fld r 28 26

/-- The interrupt the controller selects for thread t (R301): its event, whether it is fast. -/
def irqBest (s : State) (t : Nat) : Option (Nat × Bool) :=
  s.evPend.foldl (fun best (e, p) =>
    let r := s.route e
    if p.getLsbD t && wbit r t && irqTakeable (s.thr t) r then
      match best with
      | some (b, _) => if irqRank (s.route b) < irqRank r then some (e, wbit r 29) else best
      | none => some (e, wbit r 29)
    else best) none

/-- Select again for thread t; a spurious selection stays until it is claimed (R302). -/
def State.select (s : State) (t : Nat) : State :=
  match (s.thr t).sel with
  | some (511, _) => s
  | _ => s.modThr t fun x => { x with sel := irqBest s t }

/-- Select again for every thread. -/
def State.selectAll (s : State) : State := (List.range 16).foldl State.select s

/-- The selected request of thread t is withdrawn when it is event e (R302): the thread claims 511 in its class. -/
def State.withdraw (s : State) (t e : Nat) : State :=
  match (s.thr t).sel with
  | some (e', f) => if e' = e ∧ e ≠ 511 then s.modThr t fun x => { x with sel := some (511, f) } else s
  | none => s

/-- Clear the pending bits of event e in the threads of a mask, withdrawing selected requests (R302). -/
def State.clearPend (s : State) (e : Nat) (mask : BitVec 16) : State :=
  let s := (List.range 16).foldl (fun s t => if mask.getLsbD t && (s.pend e).getLsbD t then s.withdraw t e else s) s
  (s.setPend e (s.pend e &&& ~~~mask)).selectAll

/-- The level of the innermost handler of a thread: 0 none, 1 normal, 2 fast (R303). -/
def Thread.level (x : Thread) : Nat := if x.inFast then 2 else if x.inNormal then 1 else 0

/-- Latch a result for the armed waits that a test accepts (R297). -/
def Thread.latch (x : Thread) (p : WaitRec → Bool) (v : Word) (fire : DWord) : Thread :=
  { x with waits := x.waits.map fun w => if w.result.isNone && p w then { w with result := some v, fire := fire } else w }

/-- The wait is a WAITE on event e. -/
def WaitRec.isEvent (w : WaitRec) (e : Nat) : Bool :=
  match w.on with
  | .event k _ _ => k == e
  | .mark _ _ => false

/-- A WAITE that a handler interrupts latches the event that becomes pending (R297). -/
def State.latchWaits (s : State) (e : Nat) : State :=
  { s with threads := s.threads.map fun (t, x) =>
      if wbit (s.route e) t && (t < 16) then (t, x.latch (fun w => w.isEvent e && decide (w.level < x.level)) 0 0) else (t, x) }

/-- HOLD of trigger term k of a bobbin record; the host's trigger holds for no further superframe (R369). -/
def termHold (cfg : List Byte) (k : Nat) : Nat := if k < 4 then leAt cfg (0xA6 + 32 * k) 2 else 0

/-- A term has its instant: the first sample pair at or after an ST, true from the superframe that contains it, or from the one being gathered when that is
later (R369). -/
def Bobbin.hit (b : Bobbin) (k : Nat) (at_ : DWord) : Bobbin :=
  let pair := (at_.toNat + 15) / 16 * 16
  { b with hits := b.hits ++ [(k, max (pair / 1024) (b.sf.getD 0), BitVec.ofNat 64 pair)] }

/-- The raise of event e is the instant of the EVENT terms on it (R369). -/
def State.termRaise (s : State) (e : Nat) : State :=
  { s with bobs := s.bobs.map fun (i, b) =>
      if byteAt b.cfg 1 != 0 || !(b.st == .armed || b.st == .post || b.st == .locked) then (i, b)
      else (i, (List.range 4).foldl (fun b k =>
        if byteAt b.cfg (0xA0 + 32 * k) = 2 && leAt b.cfg (0xA4 + 32 * k) 2 == e then b.hit k s.time.st else b) b) }

/-- Raise event e (R298, R299); `byEmit` is a raise by EMIT. 511 is never raised. -/
def State.raiseEv (s : State) (e : Nat) (byEmit : Bool := false) : State :=
  if 511 ≤ e then s
  else if wbit (s.route e) 31 && !byEmit then { s with foreign := true }
  else (((s.setPend e (s.pend e ||| (s.route e).setWidth 16)).latchWaits e).termRaise e).selectAll

/-- A hardware source: its record in ledger memory, then its mapped event (R300). -/
def State.source (s : State) (k detail : Nat) : State :=
  let a := ledgerRo + 16 * k
  let n := s.ledgerLe (a + 12) 4
  let s := s.ledgerWrite a (toLe 8 s.time.st.toNat ++ toLe 4 detail ++ toLe 4 (n + 1))
  s.raiseEv (s.reg (Reg.patternSrcMap + 4 * k)).toNat

/-! ## Rings -/

/-- The ring key of the event ring. -/
def eqKey : Nat := 128

/-- RING_CFG of ring k. -/
def State.ringCfg (s : State) (k : Nat) : Word := s.reg Reg.hostRingCfg k

/-- The host address of ring k (R323). -/
def State.ringBase (s : State) (k : Nat) : Nat := (s.reg Reg.hostRingBaseLo k).toNat + 2 ^ 32 * (s.reg Reg.hostRingBaseHi k).toNat

/-- Entries of ring k. -/
def State.ringSize (s : State) (k : Nat) : Nat := 2 ^ fld (s.ringCfg k) 20 16

/-- Entries a ring holds (R324). -/
def State.ringHeld (s : State) (k : Nat) : Nat :=
  let r := s.ring k
  (r.prod + s.ringSize k - r.cons) % s.ringSize k

/-- A ring that the device serves: enabled and ACTIVE (R331, R357). -/
def Ring.live (r : Ring) : Bool := r.en && r.st == 1

/-- Free slots of a ring (R324: full at size - 1 entries). -/
def State.ringFree (s : State) (k : Nat) : Nat := s.ringSize k - 1 - s.ringHeld k

/-- The message of ring k's vector goes out, or waits in the PBA when the vector is masked (R354). -/
def State.msixSend (s : State) (k : Nat) : State :=
  let v := fld (s.ringCfg k) 9 4
  let s := s.modRing k fun r => { r with unsig := 0 }
  if s.host.msixMask.contains v then { s with host := { s.host with pba := insertN s.host.pba v } }
  else s.emit (.msix v)

/-- After a record is written: COAL_N and FLAGS.IRQ (R354). -/
def State.moderate (s : State) (k : Nat) (irq : Bool) : State :=
  let s := s.modRing k fun r => { r with unsig := r.unsig + 1, unsigAt := if r.unsig = 0 then s.time.st else r.unsigAt }
  let n := fld (s.reg Reg.hostRingMod k) 15 0
  if irq || (n != 0 && decide (n ≤ (s.ring k).unsig)) then s.msixSend k else s

/-- Take the next slot of a device-written ring: the slot, its PHASE, and the state with the index advanced (R324, R325). -/
def State.takeSlot (s : State) (k : Nat) : Nat × Bool × State :=
  let r := s.ring k
  let wrap := decide (s.ringSize k ≤ r.prod + 1)
  (r.prod, r.phase, s.setRing k { r with prod := if wrap then 0 else r.prod + 1, phase := r.phase != wrap })

/-- The 32 bytes of an event record before PHASE and SEQ (R351). -/
def eqRec (ty flags detail : Nat) (st : DWord) (body : List Byte) : List Byte :=
  [BitVec.ofNat 8 ty, BitVec.ofNat 8 flags, 0, 0] ++ toLe 4 detail ++ toLe 8 st.toNat ++ fitTo 16 body

/-- Write one event record into the EQ (R351): PHASE and SEQ are fixed now. -/
def State.eqWrite (s : State) (r : List Byte) : State :=
  let (slot, ph, s) := s.takeSlot eqKey
  let r := patch r 1 (BitVec.ofNat 8 (byteAt r 1 ||| b2n ph) :: toLe 2 s.host.evSeq.toNat)
  let s := { s with host := { s.host with evSeq := s.host.evSeq + 1 } }
  (s.emit (.eqRecord (s.ringBase eqKey + 32 * slot) r)).moderate eqKey false

/-- Fetching stops at 4,096 waiting held records and resumes below 2,048 (R352). -/
def State.fetchGate (s : State) : State :=
  let n := s.eqHeld.length
  let stop := if 4096 ≤ n then true else if n < 2048 then false else s.host.fetchStop
  { s with host := { s.host with fetchStop := stop } }

/-- The device can write to host memory: it does not sleep (R360) and PERST# does not hold the link down (R481). -/
def State.linkOn (s : State) : Bool := !(s.pwr.st == .sleep) && !s.host.perst

/-- Write waiting records while slots are free and the link is up (R360, R481): held before lossy, an EVENTS_LOST record for drops not yet reported when the held buffer is
empty (R352; log entry 20), a HEALTH pair whole or not at all (R353). -/
def eqDrain : Nat → State → State
  | 0, s => s
  | n + 1, s =>
    if !(s.ring eqKey).live || s.ringFree eqKey = 0 || !s.linkOn then s
    else match s.eqHeld with
      | r :: t => eqDrain n ({ s with eqHeld := t }.eqWrite r)
      | [] =>
        if s.host.repHeld + s.host.repLossy ≠ 0 then
          let b := toLe 4 s.host.repLossy ++ toLe 4 s.host.repHeld
          let s := { s with host := { s.host with repHeld := 0, repLossy := 0 } }
          eqDrain n (s.eqWrite (eqRec 0x15 0 0 s.time.st b))
        else match s.eqLossy with
          | g :: t => if g.length ≤ s.ringFree eqKey then eqDrain n (g.foldl State.eqWrite { s with eqLossy := t }) else s
          | [] => s

/-- Write what can be written of the waiting event records. -/
def State.eqFlush (s : State) : State := (eqDrain (s.eqHeld.length + s.eqLossy.length + 1) s).fetchGate

/-- A held event record (R351, R352). -/
def State.event (s : State) (ty detail : Nat) (body : List Byte := []) : State :=
  let r := eqRec ty 0 detail s.time.st body
  if s.eqHeld.length < 8192 then { s with eqHeld := s.eqHeld ++ [r] }.eqFlush
  else { s with host := { s.host with heldLost := satInc 255 s.host.heldLost, repHeld := s.host.repHeld + 1 } }.eqFlush

/-- A lossy event record, or pair of them (R352, R353). -/
def State.eventLossy (s : State) (g : List (List Byte)) : State :=
  if s.eqLossy.length < 1024 then { s with eqLossy := s.eqLossy ++ [g] }.eqFlush
  else { s with host := { s.host with lossyLost := satInc 255 s.host.lossyLost, repLossy := s.host.repLossy + 1 } }.eqFlush

/-! ## Operations in flight and completions -/

/-- The tag under which the start plan's running entry executes (R472); larger tags are the twin's mirrored operations (R396), which complete
nowhere here. -/
def planTag : Nat := 4096

/-- The mirrored operation's tag. -/
def mirrorTag : Nat := 4097

/-- OPCODE of a descriptor (R332). -/
def Op.code (o : Op) : Nat := byteAt o.desc 0

/-- FLAGS of a descriptor (R332). -/
def Op.flags (o : Op) : Nat := byteAt o.desc 1

/-- Tag in flight as an operation (R343). -/
def State.findOp (s : State) (tag : Nat) : Option Op := s.ops.find? fun o => o.tag == tag

/-- Replace the operation of a tag. -/
def State.putOp (s : State) (o : Op) : State := { s with ops := s.ops.map fun p => if p.tag = o.tag then o else p }

/-- Change the operation of a tag. -/
def State.modOp (s : State) (tag : Nat) (f : Op → Op) : State :=
  { s with ops := s.ops.map fun p => if p.tag = tag then f p else p }

/-- Remove the operation of a tag. -/
def State.dropOp (s : State) (tag : Nat) : State := { s with ops := s.ops.filter fun p => p.tag != tag }

/-- The completion queue bound to an SQ (R323). -/
def State.cqOf (s : State) (sq : Nat) : Nat := fld (s.ringCfg sq) 15 10

/-- The waiting completion records of a CQ (R342). -/
def State.cqWaiting (s : State) (q : Nat) : List (List Byte × Bool × Nat) := tabGet (fun _ => []) s.cqWait q

/-- Write waiting completion records of CQ q while it is enabled and has room (R342); PHASE and SQ_HEAD are fixed at the write (R340), and the
tag leaves flight (R343). -/
def cqDrain : Nat → Nat → State → State
  | 0, _, s => s
  | n + 1, q, s =>
    if !(s.ring (64 + q)).live || s.ringFree (64 + q) = 0 || !s.linkOn then s
    else match s.cqWaiting q with
      | [] => s
      | (r, irq, tag) :: t =>
        let (slot, ph, s) := { s with cqWait := tabSet (fun _ => []) s.cqWait q t }.takeSlot (64 + q)
        let r := patch r 1 [BitVec.ofNat 8 (byteAt r 1 ||| 128 * b2n ph)]
        let r := patch r 6 (toLe 2 (s.ring (byteAt r 4)).cons)
        let s := { s with ops := s.ops.filter fun o => !(o.tag == tag && o.done) }
        cqDrain n q ((s.emit (.cqRecord q (s.ringBase (64 + q) + 16 * slot) r)).moderate (64 + q) irq)

/-- Write what can be written of the records of CQ q. -/
def State.cqFlush (s : State) (q : Nat) : State := cqDrain (s.cqWaiting q).length q s

/-- A completion record before PHASE and SQ_HEAD (R340). -/
def cqRec (tag status code sq flags result : Nat) : List Byte :=
  toLe 2 tag ++ [BitVec.ofNat 8 status, BitVec.ofNat 8 code, BitVec.ofNat 8 sq, BitVec.ofNat 8 flags, 0, 0] ++ toLe 8 result

/-- Post a completion record for a descriptor of an SQ. -/
def State.postCq (s : State) (tag status code sq flags result : Nat) (irq : Bool) : State :=
  let q := s.cqOf sq
  let l := s.cqWaiting q ++ [(cqRec tag status code sq flags result, irq, tag)]
  { s with cqWait := tabSet (fun _ => []) s.cqWait q l }.cqFlush q

/-- Status codes (R355). -/
abbrev stOk : Nat := 0x00
abbrev stPartial : Nat := 0x01
abbrev stAborted : Nat := 0x02
abbrev stAbortTooLate : Nat := 0x03
abbrev stDeferred : Nat := 0x04
abbrev stCurtailed : Nat := 0x05
abbrev stRefused : Nat := 0x06
abbrev stIsolated : Nat := 0x07
abbrev stBusy : Nat := 0x08
abbrev stTooLarge : Nat := 0x09
abbrev stBadDesc : Nat := 0x0A
abbrev stNotReady : Nat := 0x0B
abbrev stDenied : Nat := 0x0C
abbrev stTimeout : Nat := 0x0D
abbrev stThrottled : Nat := 0x0F
abbrev stMediaError : Nat := 0x12
abbrev stTwinRole : Nat := 0x13

/-- The operations fetched before a tag, in fetch order. -/
def opsBefore (l : List Op) (tag : Nat) : List Op := l.takeWhile fun o => o.tag != tag

/-- How many bytes of operand data an operation reads from host memory, at its ADDR (R333). -/
def dataLen (d : List Byte) : Nat :=
  match byteAt d 0 with
  | 0x50 | 0x53 | 0x61 => 256
  | 0x51 => 1024
  | 0x40 => 512
  | 0x62 => leAt d 0xC 2
  | 0x71 => 64
  | _ => 0

/-- An operation has started (R344): it has been accepted or has ended; one with operand data starts with the read of them, as soon as what stands before it has started (log entry 52). -/
def Op.started (o : Op) : Bool := o.done || o.accepted || o.committed || dataLen o.desc != 0

/-- The management cores do no duties: both pairs restart one after the other on a new image (R528), or both stand halted by the debug chain (R538). -/
def State.fwAway (s : State) : Bool := s.sec.fwOp.isSome || s.sec.dbg.pairs == 3

/-- The operations that the management firmware serves (R31, R528): pattern and firmware images, pages and their swaps, profiles, quarantine and relief (log entry 55). -/
def fwServed (c : Nat) : Bool := c == 0x30 || decide (0x50 ≤ c ∧ c ≤ 0x53) || decide (0x80 ≤ c ∧ c ≤ 0x84)

/-- The operation may start (R344, R345): every descriptor fetched earlier from its SQ has started, no FENCE among them is unreleased, and a descriptor with the FENCE flag, itself or earlier in the SQ, has everything
before it completed. One that the management firmware serves waits while that is away. Entries of the start plan and the twin's operations are no descriptors. -/
def State.mayStart (s : State) (o : Op) : Bool :=
  let before := (opsBefore s.ops o.tag).filter fun p => p.sq == o.sq && decide (p.tag < planTag)
  !(s.fwAway && fwServed o.code) && (decide (planTag ≤ o.tag) ||
    ((before.all fun p => p.started && !(p.code == 0x02 && !p.done))
      && ((before ++ [o]).zipIdx.all fun e => !bitOf e.1.flags 0 || (before.take e.2).all fun p => p.done)))

/-- The operation with a tag when its opcode is `code`, it has not ended and it may start. -/
def State.liveOp (s : State) (tag code : Nat) : Option Op :=
  match s.findOp tag with
  | some o => if o.code == code && !o.done && s.mayStart o then some o else none
  | none => none

/-- Run an operation's effect, or nothing when the tag names no such operation (log entry 13). -/
def withOp (s : State) (tag code : Nat) (f : Op → State → State) : State :=
  match s.liveOp tag code with
  | some o => f o s
  | none => s

/-- The tag table records the operation's commit point (R348). -/
def State.commit (s : State) (o : Op) : State := s.modOp o.tag fun p => { p with committed := true }

end Sys2Proof.Machine
end

