-- ==== Sys2Proof/Machine/Operands.lean ====
section
/-! DEFINITION. The operand forms: descriptor operands (R333), cell parameter pages (R144), rail parameter pages (R162, R163), guard sets (R113), mark
words (R229), with the checks the spec puts on each. -/

namespace Sys2Proof.Machine

/-! ## Descriptor operands (R333): offsets from the start of the descriptor -/

/-- The u8 operand at an offset. -/
def Op.u8 (o : Op) (off : Nat) : Nat := byteAt o.desc off
/-- The u16 operand at an offset. -/
def Op.u16 (o : Op) (off : Nat) : Nat := leAt o.desc off 2
/-- The u32 operand at an offset. -/
def Op.u32 (o : Op) (off : Nat) : Nat := leAt o.desc off 4
/-- The u64 operand at an offset. -/
def Op.u64 (o : Op) (off : Nat) : Nat := leAt o.desc off 8
/-- The data read from host memory for the operation; empty before it has been read. -/
def Op.bytes (o : Op) : List Byte := o.data.getD []

/-! ## Guard sets and guard map (R113) -/

/-- Word i of the guard store: 0 to 127 the sets, 128 to 255 the map. -/
def State.guardWord (s : State) (i : Nat) : Word := tabGet (fun _ => 0) s.guardSram i

/-- The guard set that the guard map names for cell n (R113, ENGINE.GUARD_WIN). -/
def State.gsetOf (s : State) (n : Nat) : Nat := bitsOf (s.guardWord (128 + n / 8)).toNat (4 * (n % 8) + 3) (4 * (n % 8))

/-- The 32 bytes of guard set g. -/
def State.guardBytes (s : State) (g : Nat) : List Byte :=
  (List.range 8).flatMap fun i => toLe 4 (s.guardWord (8 * g + i)).toNat

/-- The limits of a guard set. -/
structure GuardSet where
  ipk : Nat
  dutyMax : Nat
  dtMin : Nat
  dvdtMax : Nat
  vbusMin : Nat
  vbusMax : Nat
  vBlank : Nat
  latchN : Nat
  crcOk : Bool
deriving DecidableEq, Repr

/-- Read a guard set; LATCH_N 0 means 8 (R113). -/
def guardOf (b : List Byte) : GuardSet where
  ipk := leAt b 0 2
  dutyMax := leAt b 2 2
  dtMin := leAt b 4 2
  dvdtMax := leAt b 6 2
  vbusMin := leAt b 8 2
  vbusMax := leAt b 10 2
  vBlank := leAt b 12 2
  latchN := if byteAt b 14 = 0 then 8 else byteAt b 14
  crcOk := crcBytes (b.take 30) == leAt b 30 2

/-- The guard set of cell n; one whose storage has shown an uncorrectable error counts as bad (R555). -/
def State.guardFor (s : State) (n : Nat) : GuardSet :=
  let g := guardOf (s.guardBytes (s.gsetOf n))
  { g with crcOk := g.crcOk && !s.guardUe.contains n }

/-! ## Rail parameter page (R162, R163) -/

/-- The rail has an active page. -/
def Rail.hasPage (r : Rail) : Bool := r.active != []

/-- KIND: 0 SOURCE, 1 FEEDER, 2 DRIVE, 3 STORE (R160). -/
def rpKind (p : List Byte) : Nat := byteAt p 1
/-- FLAGS bit: 0 SYNC_EN, 1 SYNC_OUT, 2 UNDERSHOOT_EN, 3 BUS_FORM. -/
def rpFlag (p : List Byte) (i : Nat) : Bool := bitOf (byteAt p 3) i
/-- LEAD. -/
def rpLead (p : List Byte) : Nat := leAt p 4 2
/-- SENSE_LANE, none for 0xFFFF. -/
def rpSense (p : List Byte) : Option Nat := if leAt p 6 2 = 0xFFFF then none else some (leAt p 6 2)
/-- PERIOD T in ST units. -/
def rpPeriod (p : List Byte) : Nat := leAt p 8 4
/-- PUB_DELAY. -/
def rpPubDelay (p : List Byte) : Nat := leAt p 0x10 4
/-- SENSE_MAP quantity of the voltage field. -/
def rpMapV (p : List Byte) : Nat := bitsOf (byteAt p 0x14) 7 4
/-- SENSE_MAP quantity of the current field. -/
def rpMapI (p : List Byte) : Nat := bitsOf (byteAt p 0x14) 3 0
/-- CLASS. -/
def rpClass (p : List Byte) : Nat := byteAt p 0x15
/-- TBASE. -/
def rpTbase (p : List Byte) : Nat := byteAt p 0x16
/-- PMAX, W. -/
def rpPmax (p : List Byte) : Int := (leAt p 0x18 4 : Nat)
/-- PMIN, W, at most 0. -/
def rpPmin (p : List Byte) : Int := sleAt p 0x1C 4
/-- RAMP, W per ms. -/
def rpRamp (p : List Byte) : Nat := leAt p 0x20 4
/-- ENV_DWELL. -/
def rpDwell (p : List Byte) : Nat := leAt p 0x24 2
/-- PREARM_PULSE. -/
def rpPrearmPulse (p : List Byte) : Nat := leAt p 0x26 2
/-- VBUS_NOM, mV. -/
def rpVbusNom (p : List Byte) : Nat := 100 * leAt p 0x2A 2
/-- LIMIT_TTL, s. -/
def rpTtl (p : List Byte) : Nat := leAt p 0x2E 2
/-- The lanes of CELLS, rising; the rail number gives the quarter. -/
def rpCells (m : Nat) (p : List Byte) : List Nat :=
  let b := leAt p 0x40 32
  (setBitsOf 256 b).map fun i => 256 * (m / 16) + i
/-- The WAKE entries up to the end of the list. -/
def rpWake (p : List Byte) : List (Nat × Nat) :=
  ((List.range 8).map fun i => (byteAt p (0x60 + 4 * i), leAt p (0x62 + 4 * i) 2)).takeWhile fun e => e.1 != 0
/-- A 16-bit kind field. -/
def rpK16 (p : List Byte) (off : Nat) : Nat := leAt p off 2

/-- The rail is of a kind, by its active page. -/
def Rail.isKind (r : Rail) (k : Nat) : Bool := r.hasPage && rpKind r.active == k

/-- WAKE entries are well formed up to the end of the list: ADDR 0x80 to 0xFF, reserved byte 0 (R162). -/
def wakeOk (p : List Byte) : Nat → Nat → Bool
  | 0, _ => true
  | n + 1, i =>
    let a := byteAt p (0x60 + 4 * i)
    if a = 0 then true else decide (0x80 ≤ a) && byteAt p (0x61 + 4 * i) == 0 && wakeOk p n (i + 1)

/-- The kind fields keep their ranges, and their unused bytes are 0 (R163, R164). -/
def kindFieldsOk (p : List Byte) : Bool :=
  match rpKind p with
  | 0 => decide (4000 ≤ rpK16 p 0x104 ∧ rpK16 p 0x104 ≤ 7000)
      && (rpK16 p 0x108 == 0 || decide (100 ≤ rpK16 p 0x108 ∧ rpK16 p 0x108 ≤ 60000))
      && decide (1 ≤ byteAt p 0x10A ∧ byteAt p 0x10A ≤ 8) && bitsOf (byteAt p 0x10B) 6 3 == 0
      && zerosAt p 0x120 0xE0
  | 1 => zerosAt p 0x102 2 && zerosAt p 0x11D 0xE3
      && (!rpFlag p 2 || decide (4 ≤ rpK16 p 0x112 ∧ rpK16 p 0x112 ≤ 1000))
      && (!rpFlag p 0 || decide (byteAt p 0x11C ≤ 20))
      && ((rpK16 p 0x116 == 0 && rpK16 p 0x118 == 0) || decide (rpK16 p 0x116 < rpK16 p 0x118))
  | 2 => decide (1 ≤ byteAt p 0x100 ∧ byteAt p 0x100 ≤ 64) && decide (byteAt p 0x101 ≤ 1)
      && zerosAt p 0x102 2 && zerosAt p 0x11A 2 && zerosAt p 0x120 0xE0
  | 3 => decide (1 ≤ rpK16 p 0x10E ∧ rpK16 p 0x10E ≤ 3600) && zerosAt p 0x120 0xE0
  | _ => false

/-- The fields of R162 that concern the page alone keep their ranges (R162, R164). -/
def railPageForm (m : Nat) (p : List Byte) : Bool :=
  let k := rpKind p
  let t := rpPeriod p
  p.length == 1024 && byteAt p 0 == 1 && decide (k ≤ 3) && byteAt p 2 == m && bitsOf (byteAt p 3) 7 4 == 0
    && (rpCells m p).contains (rpLead p)
    && decide (160000 ≤ t ∧ t ≤ 8000000) && decide (leAt p 0xC 4 < t)
    && decide (16000 ≤ rpPubDelay p ∧ rpPubDelay p ≤ t / 2)
    && decide (rpMapV p ≤ 3 ∧ rpMapI p ≤ 3) && decide (rpClass p ≤ 7)
    && (match k with | 2 => decide (rpTbase p ≤ 15) | 0 => decide (rpTbase p ≤ 3) | _ => rpTbase p == 0)
    && byteAt p 0x17 == 0 && decide (rpPmin p ≤ 0) && decide (1 ≤ rpRamp p)
    && decide (1 ≤ rpDwell p ∧ rpDwell p ≤ 64) && decide (rpPrearmPulse p ≤ 16000)
    && decide (1 ≤ leAt p 0x28 2 ∧ leAt p 0x28 2 ≤ 1000)
    && (k == 0 || k == 3 || leAt p 0x2C 2 == 0) && (k == 3 || rpTtl p == 0)
    && zerosAt p 0x30 16 && zerosAt p 0x80 128 && zerosAt p 0x200 512 && wakeOk p 8 0
    && (k == 1 || bitsOf (byteAt p 3) 2 0 == 0) && (k == 0 || k == 3 || !rpFlag p 3)
    && (!rpFlag p 2 || (rpSense p).isSome) && kindFieldsOk p

/-- The rails other than m that have an active page. -/
def State.otherRails (s : State) (m : Nat) : List (Nat × Rail) :=
  s.rails.filter fun e => e.1 != m && e.2.hasPage

/-- A rail page may be staged for rail m (R162 to R164, R7, R225): its form, its sense lane in the rail's quarter and outside its cells (R179), its lanes free of every
other rail, SYNC_OUT and the cycle source not taken. -/
def State.railPageOk (s : State) (m : Nat) (p : List Byte) : Bool :=
  let others := s.otherRails m
  let cells := rpCells m p
  let senseOk := match rpSense p with
    | none => true
    | some n => decide (n / 256 = m / 16) && !cells.contains n
  let lanes := match rpSense p with | none => cells | some n => n :: cells
  let taken := others.any fun (k, r) =>
    lanes.any fun n => (rpCells k r.active).contains n || rpSense r.active == some n
  let syncTaken := rpFlag p 1 && others.any fun (_, r) => rpFlag r.active 1
  let cycTaken := rpKind p == 0 && others.any fun (_, r) => rpKind r.active == 0 && rpTbase r.active == rpTbase p
  s.railOk m && railPageForm m p && senseOk && !taken && !syncTaken && !cycTaken

/-- The OTP envelope row of rail m holds PMAX, PMIN, RAMP and ENV_DWELL (R166, R512). -/
def envelopeOf (p : List Byte) : Nat × Nat × Nat × Nat := (leAt p 0x18 4, leAt p 0x1C 4, leAt p 0x20 4, leAt p 0x24 2)

/-! ## Cell parameter page (R144) -/

/-- PROG: 0 VM_BUCK, 1 VM_BIDIR, 2 FOC_LEG, 3 AFE_LEG, 0xFF CUSTOM. -/
def cpProg (p : List Byte) : Nat := byteAt p 1
/-- RAIL. -/
def cpRail (p : List Byte) : Nat := byteAt p 2
/-- FLAGS bit: 0 LEAD, 1 FF_EN, 2 DE_EN, 3 HEALTH_EN, 4 AUTO_RELIEF. -/
def cpFlag (p : List Byte) (i : Nat) : Bool := bitOf (byteAt p 3) i
/-- SUM_PHASE. -/
def cpSumPhase (p : List Byte) : Nat := bitsOf (byteAt p 3) 6 5
/-- PLEAT_PHASE. -/
def cpPleat (p : List Byte) : Nat := leAt p 4 4
/-- DUTY_MIN, Q0.16. -/
def cpDutyMin (p : List Byte) : Nat := leAt p 8 2
/-- DUTY_MAX_PAGE, Q0.16. -/
def cpDutyMax (p : List Byte) : Nat := leAt p 0xA 2
/-- DT_INIT. -/
def cpDtInit (p : List Byte) : Nat := leAt p 0xC 2
/-- DT_STEP. -/
def cpDtStep (p : List Byte) : Nat := leAt p 0xE 2
/-- DT_MAX. -/
def cpDtMax (p : List Byte) : Nat := leAt p 0x10 2
/-- DT_MARGIN. -/
def cpDtMargin (p : List Byte) : Nat := leAt p 0x12 2
/-- DIDT_TARGET. -/
def cpDidt (p : List Byte) : Nat := leAt p 0x14 2
/-- DVDT_TARGET. -/
def cpDvdt (p : List Byte) : Nat := leAt p 0x16 2
/-- PROF_LO of a band and direction (0 turn-on, 1 turn-off). -/
def cpProfLo (p : List Byte) (band d : Nat) : Nat := byteAt p (0x18 + 2 * band + d) % 16
/-- PROF_HI of a band and direction. -/
def cpProfHi (p : List Byte) (band d : Nat) : Nat := byteAt p (0x18 + 2 * band + d) / 16
/-- BAND_EDGES[i], A. -/
def cpBand (p : List Byte) (i : Nat) : Nat := leAt p (0x20 + 2 * i) 2
/-- GUARD_PROF. -/
def cpGuardProf (p : List Byte) : BitVec 4 := BitVec.ofNat 4 (byteAt p 0x26)
/-- FINE_RETURN, mA. -/
def cpFineReturn (p : List Byte) : Nat := 100 * leAt p 0x28 2
/-- FINE_HOLD, periods. -/
def cpFineHold (p : List Byte) : Nat := leAt p 0x2A 2
/-- ZCD_OFFSET, mA. -/
def cpZcd (p : List Byte) : Int := 10 * sleAt p 0x2C 2
/-- FF_VNOM in 0.1 V. -/
def cpFfVnom (p : List Byte) : Nat := leAt p 0x2E 2
/-- CELL_SAFE_KIND is SAFE_SHORT_LOW. -/
def cpShortLow (p : List Byte) : Bool := leAt p 0x3A 2 == 1
/-- REF_WORD, 0 meaning 0x0C0. -/
def cpRefWord (p : List Byte) : Nat := if leAt p 0x88 4 = 0 then 0xC0 else leAt p 0x88 4
/-- The phase a cell takes its reference from and enters in the sums (R172, R601): PHASE_IDX for FOC_LEG and AFE_LEG, 0 for VM_BUCK and VM_BIDIR, SUM_PHASE
for CUSTOM (3: none). -/
def cpPhase (p : List Byte) : Nat :=
  match cpProg p with
  | 0 | 1 => 0
  | 2 | 3 => leAt p 0x8C 4
  | _ => cpSumPhase p

/-- Calibration of a code (R110): (code x gain) >> 15 + offset, arithmetic shift. -/
def calibrate (gain : Nat) (ofs code : Int) : Int := Int.fdiv (code * gain) 32768 + ofs

/-- The rules of R144 and R145 for a page staged for cell n: those of the page alone, PLEAT_PHASE below the T of the rail's active page where there is one, and
DUTY_MAX_PAGE not above the guard set's. DESIGN CHOICE (log entry 21): PROF_LO not above PROF_HI is asked of a band, BAND_EDGES may hold equal values, and PHASE_IDX is held to 2 on every stock page. -/
def State.cellPageOk (s : State) (n : Nat) (p : List Byte) : Bool :=
  let prog := cpProg p
  let stock := prog != 0xFF
  let m := cpRail p
  let h := leAt p 0x38 2
  p.length == 256 && byteAt p 0 == 1 && (decide (prog ≤ 3) || prog == 0xFF)
    && decide (m < 64 ∧ m / 16 = n / 256) && s.laneOk n && !cpFlag p 7 && (!stock || cpSumPhase p == 0)
    && (!(s.rail m).hasPage || decide (cpPleat p < rpPeriod (s.rail m).active))
    && decide (cpDutyMax p ≤ (s.guardFor n).dutyMax)
    && (List.range 8).all (fun i => decide (byteAt p (0x18 + i) % 16 ≤ byteAt p (0x18 + i) / 16))
    && decide (cpBand p 0 ≤ cpBand p 1 ∧ cpBand p 1 ≤ cpBand p 2)
    && byteAt p 0x26 / 16 == 0 && decide (byteAt p 0x27 ≤ 5)
    && (!(cpFlag p 1 || prog == 0 || prog == 1) || decide (1 ≤ cpFfVnom p))
    && (h == 0 || decide (100 ≤ h ∧ h ≤ 60000)) && zerosAt p 0x40 64
    && (!stock || (zerosAt p 0x90 112 && decide (leAt p 0x8C 4 ≤ 2)
          && (leAt p 0x88 4 == 0 || (leAt p 0x88 4 % 4 == 0 && decide (0xC0 ≤ leAt p 0x88 4 ∧ leAt p 0x88 4 ≤ 0xFE0)))))

/-- The rail that cell n's active page names, when the page exists. -/
def State.railOf (s : State) (n : Nat) : Option Nat :=
  if (s.cell n).active = [] then none else some (cpRail (s.cell n).active)

/-- The switching period in force for cell n: the rail's period in force (R105, R175); 0 with no page. -/
def State.periodOf (s : State) (n : Nat) : Nat :=
  match s.railOf n with
  | some m => (s.rail m).tAct
  | none => 0

/-! ## Boundaries (R105, R162, R175) -/

/-- The rail has acquired SYNC_IN (R187). -/
def Rail.acquired (r : Rail) : Bool := r.isKind 1 && rpFlag r.active 0 && decide (3 ≤ r.syncN)

/-- The rail's boundaries do not run free: it is synchronised, on its way there, or gliding (R162, R187, R188). -/
def Rail.steered (r : Rail) : Bool := r.synced || r.glide || r.acquired

/-- The latest instant up to t at which ST mod T is ORIGIN (R162). -/
def Rail.freeEdge (r : Rail) (t : Nat) : Nat :=
  if r.tAct = 0 then 0 else t - (t + r.tAct - leAt r.active 0xC 4 % r.tAct) % r.tAct

/-- The latest boundary of the rail up to instant t: a free-running one lies where ST mod T is ORIGIN, a whole T after the last where that came from a synchronised period; a steered one a period in
force after the last (R162, R187, R188). -/
def Rail.edgeAt (r : Rail) (t : Nat) : Nat :=
  match r.edge with
  | none => r.freeEdge t
  | some e =>
    let e := e.toNat
    if r.steered then (if e ≤ t then e + (t - e) / r.tAct * r.tAct else r.edge0.toNat)
    else
      let x := r.freeEdge t
      if e < x ∧ x < e + r.tAct then e else x

/-- A cell's distance from its rail's boundaries (R105): PLEAT_PHASE, scaled by T_act / T and rounded down while the period in force is not T (R175). -/
def State.pleatOf (s : State) (n : Nat) : Nat :=
  match s.railOf n with
  | none => 0
  | some m =>
    let t := rpPeriod (s.rail m).active
    if t = 0 then 0 else cpPleat (s.cell n).active * (s.rail m).tAct / t

/-- The latest period boundary of cell n up to instant t (R105). -/
def State.cellEdge (s : State) (n t : Nat) : Nat :=
  match s.railOf n with
  | none => 0
  | some m =>
    let off := s.pleatOf n
    if off ≤ t then (s.rail m).edgeAt (t - off) + off else 0

/-- The first period boundary of cell n after instant b (R105). -/
def State.cellNext (s : State) (n b : Nat) : Nat :=
  match s.railOf n with
  | none => b
  | some m =>
    let r := s.rail m
    let off := s.pleatOf n
    match r.steered, r.edge with
    | true, some e => if b < e.toNat + off then e.toNat + off else e.toNat + r.tAct + off
    | _, _ =>
      let x := if off ≤ b + r.tAct then r.freeEdge (b + r.tAct - off) + off else b + r.tAct
      if b < x then x else b + r.tAct

/-- A boundary at instant c has come since the one at b; a step of ST back by more than any period makes every later boundary new (R214). -/
def newer (b c : Nat) : Bool := decide (b < c) || decide (c + 16777216 < b)

/-- Rail that has lane n as a cell or a sense lane by its active page. -/
def State.railHaving (s : State) (n : Nat) : Option Nat :=
  (s.rails.find? fun e => e.2.hasPage && ((rpCells e.1 e.2.active).contains n || rpSense e.2.active == some n)).map (·.1)

/-- The rail of which lane n is the sense lane. -/
def State.senseOf (s : State) (n : Nat) : Option Nat :=
  (s.rails.find? fun e => e.2.hasPage && rpSense e.2.active == some n).map (·.1)

/-- The engine that carries cell n now: its own, or RE k of its drawer when that carries it (R151, R158). -/
def State.serving (s : State) (n : Nat) : Nat :=
  match (s.cell n).relief with
  | .relieved | .cold | .starting _ true _ _ => 1024 + n / 16
  | .own | .starting _ false _ _ => n

/-- The engines that work for cell n: its own, and the drawer's relief engine while that carries it (R102, R152). -/
def State.enginesOf (s : State) (n : Nat) : List Nat :=
  if (s.eng (1024 + n / 16)).carries = some n then [n, 1024 + n / 16] else [n]

/-- The cell that engine e works for: n for CE n, the carried one for a relief engine. -/
def State.cellOf (s : State) (e : Nat) : Option Nat := if e < 1024 then some e else (s.eng e).carries

/-- The lead of rail m and the engine that carries it (R24). -/
def State.leadEngine (s : State) (m : Nat) : Nat := s.serving (rpLead (s.rail m).active)

/-! ## Mark words (R229) -/

/-- A mark word is refused (R230): reserved values or bits, PERIOD 0 does not matter here, an UNBOUND cycle source or an OFF angle source. -/
def State.markBad (s : State) (w : List Byte) : Bool :=
  let kind := byteAt w 8
  let src := byteAt w 9
  let fl := byteAt w 10
  w.length != 16 || decide (3 ≤ kind) || decide (16 ≤ src) || decide (16 ≤ fl) || bitsOf fl 3 2 == 3 || byteAt w 11 != 0
    || (kind == 0 && src != 0) || (kind == 2 && decide (4 ≤ src))
    || (kind == 1 && (s.enc src).st == .off) || (kind == 2 && (s.cyc src).st == .unbound)

/-- Displacement in position units over a time in ST units at a speed in 0.001 rpm (R221, R222). -/
def travel (speed : Int) (dt : Nat) : Int := roundDiv (speed * (dt : Int) * 4294967296) 960000000000000

/-- The time in ST units in which a speed in 0.001 rpm covers a distance of the same sign, rounded up (R231). -/
def travelTime (dist speed : Int) : Nat := (dist.natAbs * 960000000000000 + speed.natAbs * 4294967296 - 1) / (speed.natAbs * 4294967296)

/-- The extrapolated position of an angle source at an instant, from its latest sample (R221). -/
def Enc.posAt (e : Enc) (t : DWord) : Int := e.sample + travel e.speed (t - e.sampleAt).toNat

/-- Cycles and phase of a source as one number, advanced in ST at its rate in 0.001 Hz (R226). -/
def Cyc.totalAt (c : Cyc) (t : DWord) : Nat :=
  c.cycles.toNat * 2 ^ 32 + c.phase.toNat + (t - c.atSt).toNat * c.rate * 2 ^ 32 / 16000000000000

/-- The instant at which a source's phase has gone on by `ahead` from its last update, rounded up (R226, R231). -/
def Cyc.instant (c : Cyc) (ahead : Nat) : DWord := c.atSt + BitVec.ofNat 64 ((ahead * 16000000000000 + c.rate * 2 ^ 32 - 1) / (c.rate * 2 ^ 32))

/-- The source's phase is defined: TRACKING or HOLDOVER (R227, R234). -/
def Cyc.live (c : Cyc) : Bool := c.st == .tracking || c.st == .holdover

/-- An instant has come (R231). -/
def State.reached (s : State) (t : DWord) : Bool := decide ((s.time.st - t).toNat < 2 ^ 63)

/-- How far the target lies ahead of a position: in any turn or cycle less than one of them, else as a signed 64-bit distance (R231). -/
def Mark.ahead (m : Mark) (pos : Int) : Int :=
  let d := (m.target.toNat : Int) - pos
  if m.anyTurn then Int.emod d 4294967296 else asSigned 64 (toTwos 64 d)

/-- How far the target lies behind a position. -/
def Mark.behind (m : Mark) (pos : Int) : Int := if m.anyTurn then Int.emod (pos - (m.target.toNat : Int)) 4294967296 else -(m.ahead pos)

/-- Targets that a repeating mark passes over a distance beyond the first (R233). -/
def Mark.others (m : Mark) (dist : Nat) : Nat := if m.period = 0 then 0 else dist / m.period.toNat

/-- The instant at which an angle mark crosses its target as the latest sample and its speed predict it, before the next sample can be delivered (24,576 ST units after it: the next
tick and 512 ns, R221, R232). -/
def Enc.crossing (e : Enc) (m : Mark) : Option DWord :=
  let v := e.speed
  let go := travel v 24576
  let f := m.ahead e.sample
  let b := m.behind e.sample
  if 0 < v && m.dir != 2 && decide (0 ≤ f ∧ f ≤ go) then some (e.sampleAt + BitVec.ofNat 64 (travelTime f v))
  else if v < 0 && m.dir != 1 && decide (0 ≤ b ∧ b ≤ -go) then some (e.sampleAt + BitVec.ofNat 64 (travelTime b v))
  else none

/-- A mark evaluated on its base now (R231, R232, R234): past when armed, it is late at once; on an angle source that is VALID it is scheduled by the latest sample, on a cycle source
that is TRACKING or in HOLDOVER by the phase line; on another source it stays armed. An ANGLE target and a target in any turn or cycle is never past: the mark waits for its
crossing (DESIGN CHOICE, log entry 50: R231 says what past is for ST alone; the model takes the same for a cycle count and phase). -/
def State.evalMark (s : State) (m : Mark) : Mark :=
  match m.kind.toNat with
  | 0 => if s.reached m.target then { m with late := some (s.time.st, m.others (s.time.st - m.target).toNat) } else m
  | 1 => { m with due := if (s.enc m.src).st == .valid then (s.enc m.src).crossing m else none }
  | _ =>
    let c := s.cyc m.src
    if !c.live then { m with due := none }
    else
      let f := m.ahead (c.totalAt s.time.st)
      if !m.anyTurn && decide (f ≤ 0) then { m with late := some (s.time.st, m.others f.natAbs) }
      else { m with due := if c.rate = 0 then none else some (c.instant (f.toNat + c.totalAt s.time.st - c.totalAt c.atSt)) }

/-- The mark of a word armed now (R231): with REL the target is VALUE added to the base's present position. -/
def State.markOf (s : State) (who : MarkWho) (w : List Byte) : Mark :=
  let kind := byteAt w 8
  let src := byteAt w 9
  let fl := byteAt w 10
  let base : Nat := match kind with
    | 0 => s.time.st.toNat
    | 1 => toTwos 64 ((s.enc src).posAt s.time.st)
    | _ => (s.cyc src).totalAt s.time.st
  let v := leAt w 0 8
  { who := who, kind := BitVec.ofNat 2 kind, src := src, anyTurn := bitOf fl 1, dir := BitVec.ofNat 2 (fl / 4),
    target := BitVec.ofNat 64 (if bitOf fl 0 then v + base else v), period := BitVec.ofNat 32 (leAt w 12 4) }

/-- Arm the mark of a word for a consumer (R229 to R234). -/
def State.armMark (s : State) (who : MarkWho) (w : List Byte) : State := { s with marks := s.marks ++ [s.evalMark (s.markOf who w)] }

/-- Control runs: angle sources, cycle sources and marks act in RUN, TRIM and PARK (R224). -/
def State.controls (s : State) : Bool := s.pwr.st == .run || s.pwr.st == .trim || s.pwr.st == .park

end Sys2Proof.Machine
end

