-- ==== Sys2Proof/Machine/Desc.lean ====
section
/-! DEFINITION. The format check of a descriptor (R332 to R335) and the state checks that stand before an operation starts (R333, R339, R356). -/

namespace Sys2Proof.Machine

/-- The operand bytes of an opcode, as offset and length pairs (R333); none for a reserved opcode. -/
def operandMap : Nat → Option (List (Nat × Nat))
  | 0x00 => some [] | 0x01 => some [(8, 2)] | 0x02 => some [(8, 1)] | 0x03 => some [(8, 1)]
  | 0x10 => some [(8, 1)] | 0x11 => some [(8, 1)] | 0x12 => some [(8, 1), (0xC, 4)]
  | 0x13 => some [(8, 1), (0xC, 4), (0x10, 16)] | 0x14 => some [(8, 1)] | 0x15 => some [(8, 1), (0x10, 16)]
  | 0x20 => some [(8, 32), (0x28, 8)] | 0x21 => some [(8, 2)]
  | 0x30 => some [(8, 8)] | 0x31 => some [(8, 1), (0xC, 2)] | 0x32 => some [(8, 1)] | 0x33 => some [(8, 3), (0xC, 2)]
  | 0x40 => some [(8, 1), (0x10, 8)] | 0x41 => some [(8, 1)] | 0x42 => some [(8, 1)]
  | 0x43 => some [(8, 1), (0x10, 8), (0x18, 4), (0x20, 8)] | 0x44 => some [(8, 1)] | 0x45 => some [(8, 2)]
  | 0x46 => some [(8, 8), (0x10, 8)] | 0x47 => some [(8, 16)]
  | 0x50 => some [(8, 2), (0x10, 8)] | 0x51 => some [(8, 1), (0x10, 8)] | 0x52 => some [(8, 1), (0xA, 2)]
  | 0x53 => some [(8, 2), (0xC, 2), (0x10, 8)]
  | 0x60 => some [(8, 4), (0xC, 4), (0x10, 8)] | 0x61 => some [(8, 2), (0x10, 8)]
  | 0x62 => some [(8, 1), (0xC, 2), (0x10, 8)] | 0x63 => some [(8, 1), (0xC, 2), (0x10, 8)]
  | 0x70 => some [(8, 8)] | 0x71 => some [(8, 8)] | 0x72 => some [(8, 2), (0x10, 8)] | 0x73 => some [(8, 1)]
  | 0x80 => some [(8, 1), (0xA, 2), (0xC, 1)] | 0x81 => some [(8, 1), (0xA, 2)]
  | 0x82 => some [(8, 2), (0x10, 8)] | 0x83 => some [(8, 2)] | 0x84 => some [(8, 1), (0xA, 2), (0x10, 8)]
  | 0x85 => some []
  | _ => none

/-- The bytes of an operation that hold a 64-byte aligned ADDR (R333). -/
def addrAt : Nat → Option Nat
  | 0x30 | 0x70 | 0x71 => some 8
  | 0x40 | 0x50 | 0x51 | 0x53 | 0x60 | 0x61 | 0x62 | 0x63 | 0x72 | 0x82 | 0x84 => some 0x10
  | 0x43 => some 0x20
  | _ => none

/-- Byte i of a descriptor lies in its header fields or in an operand of the map. -/
def usedByte (m : List (Nat × Nat)) (i : Nat) : Bool :=
  decide (i < 4) || m.any fun e => decide (e.1 ≤ i ∧ i < e.1 + e.2)

/-- A unit number of QUARANTINE names a unit of its kind: the cell engine of a lane (R485), drawer, bobbin, two-wire block (R333, R334). -/
def State.unitOk (s : State) (kind index : Nat) : Bool :=
  match kind with
  | 0 => decide (index < 1024) && s.laneOk index
  | 1 => s.drawerOk index
  | 2 => decide (index < 8)
  | 3 => index == 0
  | _ => false

/-- a lies after b, as slot numbers are compared (R239). -/
def slotAfter (a b : Nat) : Bool :=
  let d := (a + 2 ^ 32 - b % 2 ^ 32) % 2 ^ 32
  decide (1 ≤ d ∧ d ≤ 2 ^ 31 - 1)

/-- A request record breaks R252 or R253. PMIN_ACC counts only with CURTAILABLE. -/
def State.requestBad (s : State) (b : List Byte) : Bool :=
  let m := byteAt b 0
  let cl := byteAt b 1
  let fl := byteAt b 2
  let peak := leAt b 4 4
  let e := BitVec.ofNat 32 (leAt b 0x18 4)
  let l := BitVec.ofNat 32 (leAt b 0x1C 4)
  b.length != 32 || !s.railOk m || (decide (8 ≤ cl) && cl != 0xFF) || decide (8 ≤ fl) || byteAt b 3 != 0 || peak == 0
    || (bitOf fl 1 && decide (peak < leAt b 8 4)) || !zerosAt b 0xC 4 || slotAfter e.toNat l.toNat
    || (slotAfter e.toNat s.plan.slotNow.toNat && decide (512 < (e - s.plan.slotNow).toNat))
    || (bitOf fl 2 && !(s.rail m).isKind 2)

/-- The fields of RAIL_LIMITS keep the ranges of R163: LIMIT fields of a STORE page. -/
def limitsOk (d : List Byte) : Bool := decide (1 ≤ leAt d 0x1E 2 ∧ leAt d 0x1E 2 ≤ 3600)

/-- The range that ARCHIVE_RELEASE names is one of 4 KiB units within the archive's addresses (R382). -/
def archRangeOk (d : List Byte) : Bool := leAt d 8 8 % 4096 == 0 && leAt d 0x10 8 % 4096 == 0 && decide (leAt d 8 8 + leAt d 0x10 8 ≤ 2 ^ 52)

/-- The reserved bits of a trace control record are 0 (R384). -/
def traceCtlOk (d : List Byte) : Bool := decide (byteAt d 0xA < 8) && bitsOf (byteAt d 0xB) 6 3 == 0 && zerosAt d 0x10 8

/-- Numbers and record fields of an operation lie in their ranges and in enabled quarters (R334, R335, R7). -/
def State.numbersOk (s : State) (d : List Byte) : Bool :=
  let n8 := byteAt d 8
  let n16 := leAt d 8 2
  let a16 := leAt d 0xA 2
  match byteAt d 0 with
  | 0x01 | 0x21 => decide (n16 < 4096)
  | 0x02 => decide (n8 ≤ 1)
  | 0x03 => decide (n8 ≤ 3)
  | 0x10 | 0x11 | 0x12 | 0x14 | 0x51 => s.railOk n8
  | 0x15 => s.railOk n8 && limitsOk d
  | 0x13 => s.railOk n8 && !s.markBad (slice d 0x10 16) && zerosAt d 0x1C 4
  | 0x20 => leAt d 0x28 8 % 32 == 0 && !s.requestBad (slice d 8 32)
  | 0x31 => decide (n8 < 16) && leAt d 0xC 2 % 4 == 0
  | 0x32 => decide (n8 < 16)
  | 0x33 => decide (n16 ≤ 510) && decide (byteAt d 0xA ≤ 1) && (byteAt d 0xA == 1 || zerosAt d 0xC 2)
  | 0x40 | 0x41 | 0x42 | 0x43 | 0x44 | 0x45 => decide (n8 < 8)
  | 0x46 => archRangeOk d
  | 0x47 => traceCtlOk d
  | 0x50 | 0x53 | 0x82 | 0x83 => decide (n16 < 1024) && s.laneOk n16
  | 0x52 => match n8 with
    | 0 => decide (a16 < 1024) && s.laneOk a16
    | 1 | 2 => s.railOk a16
    | _ => false
  | 0x60 => decide (leAt d 0xC 4 ≤ 65536)
  | 0x61 => decide (n16 < 4096)
  | 0x62 => decide (n8 < 16 ∧ 1 ≤ leAt d 0xC 2 ∧ leAt d 0xC 2 ≤ 240)
  | 0x63 => decide (n8 < 16 ∧ leAt d 0xC 2 ≤ 63)
  | 0x72 => decide (1 ≤ n16 ∧ n16 ≤ 4096)
  | 0x73 => decide (n8 ≤ 5)
  | 0x80 => s.unitOk n8 a16 && decide (byteAt d 0xC ≤ 1)
  | 0x81 => s.unitOk n8 a16
  | 0x84 => match n8 with
    | 0 => decide (a16 < 1024) && s.laneOk a16
    | 1 => a16 == 0
    | _ => false
  | _ => true

/-- The descriptor breaks a format rule (R332, R334): BAD_DESC at fetch. The alignment of ADDR is checked unless the entry is of the start plan, whose ADDR is an NVM byte
offset (R472). -/
def State.badDesc (s : State) (d : List Byte) (plan : Bool := false) : Bool :=
  match operandMap (byteAt d 0) with
  | none => true
  | some m =>
    d.length != 64 || decide (4 ≤ byteAt d 1) || decide (4096 ≤ leAt d 2 2)
      || (List.range 64).any (fun i => !usedByte m i && byteAt d i != 0)
      || (!plan && match addrAt (byteAt d 0) with
          | some a => leAt d a 8 % 64 != 0
          | none => false)
      || !s.numbersOk d

/-- Operations marked A in R333. -/
def roleA (code : Nat) : Bool := (decide (0x10 ≤ code ∧ code ≤ 0x15)) || code == 0x20 || code == 0x21 || code == 0x33

/-- BULK operations (R339): 0x40 to 0x47 but BOBBIN_RELEASE and ARCHIVE_RELEASE. -/
def bulkOp (code : Nat) : Bool := decide (0x40 ≤ code ∧ code ≤ 0x47) && code != 0x44 && code != 0x46

/-- BULK is enforced: by its throttle, or in TRIM (R339, R442). -/
def State.bulkOff (s : State) : Bool := s.sup.bulk == .enforced || s.pwr.st == .trim

/-- ANALYTICS is enforced: by its throttle, or in TRIM (R131, R442). -/
def State.analyticsOff (s : State) : Bool := s.sup.ana == .enforced || s.pwr.st == .trim

/-- The state check at the start of an operation (R333, R339, R407), in the order of R356; none when it may start now. An operation marked A in TAKING is not refused: it
is held (R407). -/
def State.stateStatus (s : State) (code : Nat) : Option Nat :=
  if roleA code && !(s.roleActs || s.twin.st == .taking) then some stTwinRole
  else if bulkOp code && s.bulkOff then some stThrottled
  else none

end Sys2Proof.Machine
end

