-- ==== Sys2Proof/Machine/Complete.lean ====
section
/-! DEFINITION. How an operation ends: its completion record (R341), or, for an entry of the start plan, its status in SUP.START_STAT and the next
entry (R472). -/

namespace Sys2Proof.Machine

/-- The opcodes a start plan may hold (R472): 0x00, 0x03 with STATE 0 to 2, 0x10 to 0x15, 0x50 to 0x53. -/
def planOpcode (d : List Byte) : Bool :=
  let c := byteAt d 0
  c == 0 || (c == 3 && decide (byteAt d 8 ≤ 2)) || decide (0x10 ≤ c ∧ c ≤ 0x15) || decide (0x50 ≤ c ∧ c ≤ 0x53)

/-- The address of that data. -/
def dataAddr (d : List Byte) : Nat :=
  match addrAt (byteAt d 0) with
  | some a => leAt d a 8
  | none => 0

/-- Fetch entry i of the start plan from NVM 0x1000 + 64 i (R472): the plan ends at its 64th entry or at an all-zero one; an entry that may not
start ends with its status, and any status but TWIN_ROLE stops the replay. -/
def planFetch : Nat → Nat → State → State
  | 0, i, s => { s with pwr := { s.pwr with planIdx := i, planDone := true, planRunning := false } }
  | n + 1, i, s =>
    let d := s.nvmBytes (0x1000 + 64 * i) 64
    let stop := fun (st : Nat) => { s with pwr := { s.pwr with planIdx := i, planStatus := BitVec.ofNat 8 st, planErr := true, planDone := true, planRunning := false } }
    if i = 64 ∨ leAt d 0 64 = 0 then { s with pwr := { s.pwr with planIdx := i, planDone := true, planRunning := false } }
    else if !planOpcode d || s.badDesc d true then stop stBadDesc
    else match s.stateStatus (byteAt d 0) with
      | some st =>
        if st = stTwinRole then planFetch n (i + 1) { s with pwr := { s.pwr with planStatus := BitVec.ofNat 8 st } }
        else stop st
      | none =>
        let data := if dataLen d = 0 then none else some (s.nvmBytes (dataAddr d) (dataLen d))
        { s with ops := s.ops ++ [{ tag := planTag, sq := 0, desc := d, data := data }],
                 pwr := { s.pwr with planIdx := i, planRunning := true } }

/-- The replay starts at the first leaving of OFF by the twin state (R472). -/
def State.planStart (s : State) : State :=
  if s.pwr.planDone || s.pwr.planRunning then s else planFetch 65 0 s

/-- An entry of the start plan has ended with a status (R472). -/
def State.planEnd (s : State) (status : Nat) : State :=
  let s := s.dropOp planTag
  let s := { s with pwr := { s.pwr with planStatus := BitVec.ofNat 8 status } }
  if status = stOk ∨ status = stTwinRole then planFetch 65 (s.pwr.planIdx + 1) s
  else { s with pwr := { s.pwr with planErr := true, planDone := true, planRunning := false } }

/-- An operation ends (R341): its record is posted, and it stays in flight until the record is written. An entry of the start
plan goes on with the next one (R472), and a mirrored operation leaves nothing. -/
def State.complete (s : State) (o : Op) (status : Nat) (flags : Nat := 0) (result : Nat := 0) : State :=
  if o.tag = planTag then s.planEnd status
  else if planTag < o.tag then s.dropOp o.tag
  else
    let s := s.modOp o.tag fun p => { p with done := true }
    s.postCq o.tag status o.code o.sq flags result (bitOf o.flags 1)

/-- The same by tag; a tag that is not in flight, or is done, completes nothing. -/
def State.completeTag (s : State) (tag status : Nat) (flags : Nat := 0) (result : Nat := 0) : State :=
  match s.findOp tag with
  | some o => if o.done then s else s.complete o status flags result
  | none => s

/-- Run an operation: the checks of R356 that stand before its own, in that order (`bad` is BAD_DESC, `pre` a DENIED or NOT_READY of the operation), then
its effect. One marked A is held in TAKING, before anything could refuse it (R407). An accepted operation goes on without them. -/
def opRun (s : State) (tag code : Nat) (bad : Op → State → Bool) (pre : Op → State → Option Nat) (f : Op → State → State) : State :=
  withOp s tag code fun o s =>
    if o.accepted then f o s
    else if bad o s then s.complete o stBadDesc
    else if roleA code && !(s.roleActs || s.twin.st == .taking) then s.complete o stTwinRole
    else if roleA code && s.twin.st == .taking then s.modOp tag fun p => { p with held := true }
    else match pre o s with
      | some st => s.complete o st
      | none => if bulkOp code && s.bulkOff then s.complete o stThrottled else f o s

/-- An operation is accepted now, and starts (R344); its time limits run from here (R337, R483). -/
def State.acceptOp (s : State) (tag : Nat) : State :=
  s.modOp tag fun p => { p with accepted := true, since := if p.accepted then p.since else s.time.st }

/-- The status codes in the order in which they are reported (R356). -/
def statusOrder : List Nat := [stBadDesc, stTwinRole, stDenied, stNotReady, stThrottled, stIsolated, stBusy, stTooLarge]

/-- The code to report of those that apply (R356). -/
def firstStatus (l : List (Option Nat)) : Option Nat := statusOrder.find? fun c => l.contains (some c)

/-- No check of the operation's own. -/
def noBad (_ : Op) (_ : State) : Bool := false

/-- No DENIED or NOT_READY of the operation's own. -/
def noPre (_ : Op) (_ : State) : Option Nat := none

/-- A closed selvedge encloses a unit of a kind (R333, R485). -/
def State.selvClosed (s : State) (kind index : Nat) : Bool := s.pwr.selv.any fun v => v.closed && v.kind == kind && v.index == index

end Sys2Proof.Machine
end

