-- ==== Sys2Proof/Machine/Flags.lean ====
section
/-! DEFINITION. The flag computations that several families share: SAFETY.STAT and SAFE_N (R556, R563), RAIL.CHG_EVT and IRQ_N (R205), RAIL_FLAGS (R172), the twin state with its ROLE and
events (R394, R395), what a role does to the lanes (R96) and ENG_STATE (R150). -/

namespace Sys2Proof.Machine

/-! ## SAFETY (R555, R556, R563) -/

/-- Set bit i of SAFETY.STAT: 0 LANE_BLIND, 1 LANE_LOST, 2 STALL, 3 GUARD_LATCH, 4 ENV_TRIP, 5 CLAMP, 6 HO_FAIL. -/
def State.safety (s : State) (i : Nat) : State := { s with safetyStat := setBit s.safetyStat i true }

/-- SAFE_N is driven low while an enabled bit of SAFETY.STAT is set (R556); in a reset episode and in OFF it is not driven (R468). -/
def State.safeLow (s : State) : Option Bool :=
  if s.pwr.episode || s.pwr.st == .off then none
  else some (s.safetyStat &&& (s.reg Reg.safetyMask).setWidth 7 != 0)

/-- The SAFETY event ECC_UE (R555, R563): the memory by its place in the table of R555, and the lane or rail, 0xFFFF for none. -/
def State.eccEvent (s : State) (mem unit : Nat) : State := s.event 0x12 0x01 ([BitVec.ofNat 8 mem, 0, 0, 0] ++ toLe 2 unit)

/-- An uncorrectable memory error outside capture memory and NVM: counted, with its event. -/
def State.eccUe (s : State) (mem unit : Nat) : State := { s with ue := satInc 0xFFFF s.ue }.eccEvent mem unit

/-- A corrected error outside capture memory and NVM is counted and has no other effect (R555). -/
def State.eccCe (s : State) : State := { s with ce := satInc 0xFFFF s.ce }

/-- A word has been fetched or read whose memory reports f, no uncorrectable error: a corrected one is counted. -/
def State.fetched (s : State) (f : Ecc) : State := if f = .corrected then s.eccCe else s

/-! ## RAIL.CHG_EVT (R205) -/

/-- Set bit i of RAIL.CHG_EVT of rail m. -/
def State.chgSet (s : State) (m i : Nat) : State := s.modRail m fun r => { r with chgEvt := setBit r.chgEvt i true }

/-- A charger event (bits 0 to 5): the bit sets and a CHARGER event carries it (R205, R353; log entry 22). -/
def State.charger (s : State) (m i : Nat) : State := (s.chgSet m i).event 0x09 m (toLe 4 (2 ^ i))

/-- IRQ_N is driven low while a STORE rail has a bit set in both registers (R205). -/
def State.irqLow (s : State) : Bool :=
  s.rails.any fun (m, r) => r.isKind 3 && (r.chgEvt &&& (s.reg Reg.railChgIrqEn m).setWidth 10 != 0)

/-- HO_ACTIVE: a lost source, or a store in TAKING or RETURNING (RAIL.RAIL_STAT). -/
def Rail.hoActive (r : Rail) : Bool :=
  (r.isKind 0 && (r.sub == 5 || r.sub == 6)) || (r.isKind 3 && r.st == .run && (r.sub == 5 || r.sub == 6))

/-- RAIL.RAIL_STAT bits [23:16], which RAIL_FLAGS repeats (R172). -/
def Rail.flags (r : Rail) : Nat :=
  128 * b2n r.synced + 64 * b2n r.glide + 32 * b2n r.burst + 16 * b2n r.envWarn + 8 * b2n r.pubLate + 4 * b2n r.light
    + 2 * b2n r.limitsStale + b2n r.hoActive

/-! ## ENG_STATE (R150) -/

/-- The cell has a valid active page and its engine a program: the stock one, or a loaded image for CUSTOM (R134, R150). -/
def progReady (c : Cell) (e : Engine) : Bool := c.active != [] && (cpProg c.active != 0xFF || e.image != [])

/-- ENG_STATE of cell engine n worked out again (R150): RUN only while the engine serves its cell; RELIEVED, STALLED and GUARD_LATCHED end by their own rules. -/
def State.refreshEng (s : State) (n : Nat) : State :=
  let l := s.lane n
  s.modEng n fun e =>
    match e.st with
    | .relieved | .stalled | .guardLatched => e
    | _ =>
      let st : EngState :=
        if l.latched then .guardLatched
        else if !(s.guardFor n).crcOk || !(l.st == .ready || l.st == .run) || !progReady (s.cell n) e then .off
        else if l.st == .run && s.serving n = n then .run else .loaded
      { e with st := st }

/-- The initial outputs (R598). -/
def initOutputs (page : List Byte) : Outputs := { mode := if page != [] && cpShortLow page then 2 else 1 }

/-- The lanes in FAULT, as the twin is told them (R554). -/
def State.faultLanes (s : State) : List (Fin 1024) := s.lanes.filterMap fun (n, l) => if h : n < 1024 then (if l.st == .fault then some ⟨n, h⟩ else none) else none

/-- The engines of cell n stop their runs: out of RUN no program runs (R109), and what it wrote is discarded. -/
def State.haltRuns (s : State) (n : Nat) : State :=
  (s.enginesOf n).foldl (fun s e => s.modEng e fun g => { g with running := false, stage := g.out }) s

/-- Lane n changes state; entering RUN gives its engine the initial outputs (R598) and no bus estimate (R112), leaving RUN ends the run in progress (R109), and the twin learns of a
lane that enters or leaves FAULT (R554). -/
def State.laneTo (s : State) (n : Nat) (st : LaneState) : State :=
  let was := (s.lane n).st
  let s := s.modLane n fun l => { l with st := st }
  let s := if s.twin.link && (st == .fault) != (was == .fault) then s.emit (.dovetail (.laneFaults s.faultLanes)) else s
  let s := if st == .run && was != .run then
      let o := initOutputs (s.cell n).active
      s.modEng (s.serving n) fun e => { e with out := o, outNow := o, stage := o, busEst := none, made := none }
    else if was == .run && st != .run then s.haltRuns n
    else s
  s.refreshEng n

/-! ## Twin state and role (R394 to R396) -/

/-- ROLE that the device sends (R57, R394): 0 IDLE, 1 ACTIVE, 2 SHADOW. A JOINING device sends SHADOW from step 3 of R416 (log entry 23). -/
def roleOf (t : Twin) : Nat :=
  match t.st with
  | .off => 0
  | .solo | .active | .taking => 1
  | .joining => if 3 ≤ t.joinStep then 2 else 0
  | .shadow | .detached => 2

/-- Lanes may leave READY for RUN: not in RETURN (R516). -/
def State.mayLeaveReady (s : State) : Bool := s.nvm.lc != .ret

/-- Lanes in READY with a valid guard set move to RUN when the device has a role (R96, R116). -/
def State.lanesToRun (s : State) : State :=
  if !s.mayLeaveReady then s else s.lanes.foldl (fun s (n, l) => if l.st == .ready && (s.guardFor n).crcOk then s.laneTo n .run else s) s

/-- Lanes in RUN return to READY when the role returns to none (R96). -/
def State.lanesFromRun (s : State) : State :=
  s.lanes.foldl (fun s (n, l) => if l.st == .run then s.laneTo n .ready else s) s

/-- A change of ROLE: hardware source 19 and the lanes (R395, R96). -/
def State.roleChanged (s : State) (was : Nat) : State :=
  let now := roleOf s.twin
  if now = was then s
  else
    let s := s.source 19 now
    if now = 0 then s.lanesFromRun else s.lanesToRun

/-- TWIN.CFG.PORT (R390). -/
def State.port (s : State) : Bool := wbit (s.reg Reg.twinCfg) 31

/-- What the device tells its twin of itself (R391, R396). -/
def State.stampItem (s : State) : DvItem := .stamp s.time.st s.twin.st s.twin.term s.twin.dvUp s.port s.grade 0x01

/-- The term becomes v (R412, R500). -/
def State.setTerm (s : State) (v : Word) : State :=
  if v = s.twin.term then s else { s with twin := { s.twin with term := v, termAt := s.time.st } }

/-- The twin state changes: a TWIN event with the new role and the term (R395, R353), a change of role, and, on first leaving OFF, the start plan (R472). -/
def State.twinTo (s : State) (st : TwinState) : State :=
  let was := s.twin.st
  if st = was then s
  else
    let r := roleOf s.twin
    let s := { s with twin := { s.twin with st := st } }
    let s := s.event 0x10 (roleOf s.twin) (toLe 4 s.twin.term.toNat)
    let s := s.emit (.dovetail s.stampItem)
    let s := s.roleChanged r
    if was == .off then s.planStart else s

end Sys2Proof.Machine
end

