-- ==== Sys2Proof/Machine/Edges.lean ====
section
/-! DEFINITION. What the device sends to a cell: the scrambler of the line code (R42, R44), the commanded state of the two switches, the hem guard's filters on outgoing edges (R117), guard edges and
the cancelling of turn-ons already sent (R118, R119), and the packing of one downstream superframe (R57 to R60). -/

namespace Sys2Proof.Machine

/-! ## Line code (R42 to R44) -/

/-- One bit through the self-synchronising scrambler x^58 + x^39 + 1: `x` is the bit of the stream, `h` the last 58 line bits, newest in bit 0. The result is the bit on the other side. -/
def scrBit (h : BitVec 58) (x : Bool) : Bool := (x != h.getLsbD 38) != h.getLsbD 57

/-- Scramble n payload bits, the highest first (R44): the line word so far and the last 58 line bits. -/
def scramble : Nat → Nat → BitVec 58 → Nat → Nat × BitVec 58
  | 0, _, h, out => (out, h)
  | n + 1, w, h, out =>
    let b := scrBit h (w.testBit n)
    scramble n w (h.shiftConcat b) (2 * out + b2n b)

/-- Descramble n line bits, the highest first: the payload word so far and the last 58 line bits. -/
def descramble : Nat → Nat → BitVec 58 → Nat → Nat × BitVec 58
  | 0, _, h, out => (out, h)
  | n + 1, w, h, out =>
    let x := w.testBit n
    descramble n w (h.shiftConcat x) (2 * out + b2n (scrBit h x))

/-- The sync header of block i of a superframe (R43). -/
def syncHdr (i : Nat) : BitVec 2 := if i = 24 then 2 else 1

/-- The blocks of a superframe on the line, from their payloads: sync headers and scrambled payloads (R42 to R44). -/
def lineOf (h : BitVec 58) : Nat → List DWord → List (BitVec 2 × DWord) × BitVec 58
  | _, [] => ([], h)
  | i, w :: t =>
    let (x, h) := scramble 64 w.toNat h 0
    let (l, h) := lineOf h (i + 1) t
    ((syncHdr i, BitVec.ofNat 64 x) :: l, h)

/-- The payloads of blocks as they come from the line. -/
def payloadsOf (h : BitVec 58) : List (BitVec 2 × DWord) → List DWord × BitVec 58
  | [] => ([], h)
  | b :: t =>
    let (x, h) := descramble 64 b.2.toNat h 0
    let (l, h) := payloadsOf h t
    (BitVec.ofNat 64 x :: l, h)

/-- Block lock (R42; the rule of IEEE 802.3 Clause 49, PRESUMED, log entry 51): 64 valid sync headers in a row give it, and 16 invalid ones among 64 take it away. -/
def Lane.blockLock (l : Lane) (hdr : BitVec 2) : Lane :=
  let bad := hdr == 0 || hdr == 3
  let n := l.shN + 1
  let k := l.shBad + b2n bad
  if !l.blkLock then
    if bad then { l with shN := 0, shBad := 0 } else if n = 64 then { l with blkLock := true, shN := 0, shBad := 0 } else { l with shN := n }
  else if k = 16 then { l with blkLock := false, shN := 0, shBad := 0 }
  else if n = 64 then { l with shN := 0, shBad := 0 }
  else { l with shN := n, shBad := k }

/-! ## Commanded state -/

/-- The last accepted value of an auxiliary selector (R54, R55). -/
def Lane.auxOf (l : Lane) (sel : Nat) : Option Nat := (l.aux.find? fun e => e.1 == sel).map fun e => e.2.toNat

/-- The constant GD of the lane's cell (R67). -/
def Lane.gd (l : Lane) : Nat := (l.auxOf 6).getD 0

/-- A sent edge is for the high side or the low side. -/
def SentEdge.hits (e : SentEdge) (hi : Bool) : Bool := e.sw.getLsbD (if hi then 0 else 1)

/-- The sent edge in force for a switch at an instant: the latest by instant, the later sent of equal ones (R70). -/
def Lane.lastEdge (l : Lane) (hi : Bool) (t : Nat) : Option SentEdge :=
  l.sent.foldl (fun b e =>
    if e.hits hi && decide (e.at_.toNat ≤ t) then
      match b with
      | some x => if x.at_.toNat ≤ e.at_.toNat then some e else b
      | none => some e
    else b) none

/-- The switch is commanded on at an instant. -/
def Lane.onAt (l : Lane) (hi : Bool) (t : Nat) : Bool :=
  match l.lastEdge hi t with
  | some e => e.level
  | none => if hi then l.cmdHi else l.cmdLo

/-- Instants of the sent edges of a switch at a level. -/
def Lane.instants (l : Lane) (hi level : Bool) : List Nat :=
  (l.sent.filter fun e => e.hits hi && e.level == level).map fun e => e.at_.toNat

/-- The greatest of a list of numbers, if any. -/
def maxOf (l : List Nat) : Option Nat := l.foldl (fun b t => match b with | some x => some (max x t) | none => some t) none

/-- The least of a list of numbers, if any. -/
def minOf (l : List Nat) : Option Nat := l.foldl (fun b t => match b with | some x => some (min x t) | none => some t) none

/-- The last turn-off sent for a switch at or before an instant. -/
def Lane.offAt (l : Lane) (hi : Bool) (t : Nat) : Option Nat :=
  match maxOf ((l.instants hi false).filter (· ≤ t)) with
  | some x => some x
  | none => (if hi then l.offHiAt else l.offLoAt).map BitVec.toNat

/-- The first turn-off sent for a switch after an instant. -/
def Lane.firstOff (l : Lane) (hi : Bool) (t : Nat) : Option Nat := minOf ((l.instants hi false).filter (t < ·))

/-- Since when the high side has been commanded on at an instant: its first turn-on after its last turn-off. -/
def Lane.highSince (l : Lane) (t : Nat) : Option Nat :=
  if l.onAt true t then
    match maxOf ((l.instants true false).filter (· ≤ t)) with
    | some o => minOf ((l.instants true true).filter fun x => decide (o < x ∧ x ≤ t))
    | none => if l.cmdHi then some l.onHiAt.toNat else minOf ((l.instants true true).filter (· ≤ t))
  else none

/-- Forget sent edges up to an instant, keeping the state they commanded. -/
def Lane.prune (l : Lane) (t : Nat) : Lane :=
  { l with
    sent := l.sent.filter fun e => decide (t < e.at_.toNat)
    cmdHi := l.onAt true t
    cmdLo := l.onAt false t
    onHiAt := match l.highSince t with | some x => BitVec.ofNat 64 x | none => l.onHiAt
    offHiAt := (l.offAt true t).map (BitVec.ofNat 64)
    offLoAt := (l.offAt false t).map (BitVec.ofNat 64) }

/-- The surroundings of one downstream superframe: its strobe, the guard set, the DUTY_MAX limit and the period in ST units, the band of edges sent now, whether the engine's edges may leave,
GUARD_PROF, and the profiles of turn-on and turn-off edges sent now (R129). -/
structure SfCtx where
  strobe : Nat
  g : GuardSet
  dutyLim : Nat
  period : Nat
  band : Nat
  allowed : Bool
  gprof : BitVec 4
  profOn : BitVec 4
  profOff : BitVec 4
deriving DecidableEq, Repr

/-- What has been packed so far; lists are newest first. -/
structure Pack where
  lane : Lane
  edges : List Nat := []
  blocks : List DWord := []
  keep : List DnCmd := []
deriving DecidableEq, Repr

/-- LEAD of an edge with an instant at the gate command point, GD subtracted (R59, R69). -/
def SfCtx.lead (c : SfCtx) (gd at_ : Nat) : Int := Int.fdiv ((at_ : Int) - gd) 1024 - (c.strobe / 1024 : Nat)

/-- The first instant a command sent now can reach: LEAD 2, POS 0. -/
def SfCtx.soonest (c : SfCtx) (gd : Nat) : Nat := c.strobe + 2048 + gd

/-- The 21 bits of an EDGE command (R59). -/
def edgeBits (sw : BitVec 2) (level : Bool) (lead pos : Nat) (prof : BitVec 4) : Nat :=
  sw.toNat * 2 ^ 19 + b2n level * 2 ^ 18 + (lead % 16) * 2 ^ 14 + (pos % 1024) * 16 + prof.toNat

/-- Put an edge into the superframe and remember it as sent. -/
def Pack.edge (p : Pack) (c : SfCtx) (sw : BitVec 2) (level : Bool) (at_ : Nat) (prof : BitVec 4) : Pack :=
  let gd := p.lane.gd
  let useG := (sw.getLsbD 0 && p.lane.useGuardHi) || (sw.getLsbD 1 && p.lane.useGuardLo)
  let prof := if useG then c.gprof else prof
  { p with
    edges := edgeBits sw level (c.lead gd at_).toNat ((at_ - gd) % 1024) prof :: p.edges
    lane := { p.lane with sent := p.lane.sent ++ [{ sw := sw, level := level, at_ := BitVec.ofNat 64 at_, band := c.band }] } }

/-- Put another block into the superframe: type code and payload (R60). -/
def Pack.block (p : Pack) (code payload : Nat) : Pack :=
  { p with blocks := BitVec.ofNat 64 (2 ^ 63 + code * 2 ^ 56 + payload) :: p.blocks }

/-- Keep a command for a later superframe. -/
def Pack.hold (p : Pack) (d : DnCmd) : Pack := { p with keep := d :: p.keep }

/-- Drop a command whose LEAD fell below 2 (R118, R125). -/
def Pack.late (p : Pack) : Pack := { p with lane := { p.lane with ppLate := true } }

/-- The duty or dead-time filter acted (R117, R120, R122). -/
def Pack.acted (p : Pack) : Pack :=
  { p with lane := { p.lane with hits := setBit p.lane.hits 0 true, interv := true } }

/-- What the guard makes of a turn-on: `hold` tells whether the dead-time filter holds it. -/
inductive Verdict where
  | send (at_ : Nat) (moved : Bool)
  | hold (dead : Bool)
deriving DecidableEq, Repr

/-- The hem guard's filter on a turn-on of a switch (R117, R119, R120, R552). -/
def guardOn (c : SfCtx) (l : Lane) (hi : Bool) (at_ : Nat) : Verdict :=
  if l.latched || l.blind || (if hi then l.holdHi else l.holdLo) then .hold false
  else if l.onAt (!hi) at_ then
    match l.firstOff (!hi) at_ with
    | some t => .send (t + c.g.dtMin) true
    | none => .hold true
  else
    match l.offAt (!hi) at_ with
    | some t => if at_ < t + c.g.dtMin then .send (t + c.g.dtMin) true else .send at_ false
    | none => .send at_ false

/-- The DUTY_MAX filter on a high-side turn-off (R117): the instant it goes out with, not before the soonest one that can still be
reached, and whether it was moved. DESIGN CHOICE (log entry 50): the limit bounds each on-interval of the high side, not the sum of a period's. -/
def guardOffAt (c : SfCtx) (l : Lane) (at_ : Nat) : Nat × Bool :=
  match l.highSince at_ with
  | some t => if t + c.dutyLim < at_ then (max (t + c.dutyLim) (c.soonest l.gd), true) else (at_, false)
  | none => (at_, false)

/-- Send a turn-off; its high-side part is moved earlier where DUTY_MAX asks for it. -/
def Pack.off (p : Pack) (c : SfCtx) (sw : BitVec 2) (at_ : Nat) (prof : BitVec 4) : Pack :=
  let (t, moved) := if sw.getLsbD 0 then guardOffAt c p.lane at_ else (at_, false)
  if moved then
    let p := (p.edge c 1 false t prof).acted
    if sw.getLsbD 1 then p.edge c 2 false at_ prof else p
  else p.edge c sw false at_ prof

/-- Send or hold a turn-on of one switch whose own instant `at_` may lie too near: one the guard does not hold and whose LEAD is below 2 is late, one further off than LEAD `most` waits. Only the dead-time filter's
moves and holds show as DUTY_HIT (R122). `own` is false for a burst's edges, which are no guard actions (R185) and are dropped when held. -/
def Pack.on (p : Pack) (c : SfCtx) (sw : BitVec 2) (at_ : Nat) (prof : BitVec 4) (d : DnCmd) (own : Bool) (most : Int) : Pack :=
  match guardOn c p.lane (sw.getLsbD 0) at_ with
  | .send t moved =>
    let k := c.lead p.lane.gd t
    let q := if moved && own then p.acted else p
    if k < 2 then q.late
    else if most < k then p.hold d
    else
      let q := q.edge c sw true t prof
      if sw.getLsbD 1 then { q with lane := { q.lane with deFired := false } } else q
  | .hold dead => if own then (if dead then p.acted else p).hold d else p

/-- Cancel every turn-on of a switch already sent for a later instant (R119). -/
def Pack.cancel (p : Pack) (c : SfCtx) (hi : Bool) (after : Nat) : Pack :=
  ((p.lane.instants hi true).filter (after < ·)).foldl
    (fun p t => p.edge c (if hi then 1 else 2) false t c.gprof) p

/-- The superframe has room for another edge or another block: at most 48 edges in 16 blocks, 7 other blocks and one HEARTBEAT. -/
def Pack.room (p : Pack) (isEdge : Bool) : Bool :=
  if isEdge then decide (p.edges.length < 48) else decide (p.blocks.length < 7)

/-- Pack one waiting command (R58 to R60, R118, R125, R134). A RANGE_SET for a superframe in which the range has changed or will change moves to the next period boundary (R77, R134). -/
def packOne (c : SfCtx) (p : Pack) (d : DnCmd) : Pack :=
  match d with
  | .guardEdge sw prof cancel =>
    let t := c.soonest p.lane.gd
    let p := p.edge c sw false t prof
    if cancel then
      let p := if sw.getLsbD 0 then p.cancel c true t else p
      if sw.getLsbD 1 then p.cancel c false t else p
    else p
  | .onNow sw => p.on c sw (c.soonest p.lane.gd) c.profOn d false 15
  | .prioEdge sw level at_ prof =>
    let k := c.lead p.lane.gd at_.toNat
    if level then p.on c sw at_.toNat prof d false 15
    else if 15 < k then p.hold d
    else if k < 2 then p.late
    else p.edge c sw false at_.toNat prof
  | .edge sw level at_ prof =>
    let k := c.lead p.lane.gd at_.toNat
    let inBurst := p.lane.burst && (match p.lane.burstTill with | some b => decide (at_.toNat < b.toNat) | none => true)
    if !c.allowed then p
    else if inBurst then (if k < 2 then p else p.hold d)
    else if 4 < k || !p.room true then p.hold d
    else if level then p.on c sw at_.toNat (prof.getD c.profOn) d true 15
    else if k < 2 then p.late
    else p.off c sw at_.toNat (prof.getD c.profOff)
  | .rangeSet coarse at_ =>
    let ix := (at_.toNat % 1024 + 15) / 16
    let sf := at_.toNat / 1024 + ix / 64
    let k : Int := (sf : Int) - (c.strobe / 1024 : Nat)
    if !c.allowed then p
    else if p.lane.rangeSf = some sf then p.hold (.rangeSet coarse (BitVec.ofNat 64 (at_.toNat + c.period)))
    else if 4 < k || !p.room false then p.hold d
    else if k < 2 then p.late
    else ({ p with lane := { p.lane with rangeSf := some sf } } : Pack).block 2 (b2n coarse * 2 ^ 54 + k.toNat * 2 ^ 50 + (ix % 64) * 2 ^ 44)
  | .profileWrite prof word commit data =>
    if p.room false then p.block 3 (prof.toNat * 2 ^ 52 + word.toNat * 2 ^ 50 + b2n commit * 2 ^ 49 + data.toNat * 2 ^ 16) else p.hold d
  | .config wr cseq adr data =>
    if p.room false then p.block 4 (b2n wr * 2 ^ 55 + cseq.toNat * 2 ^ 40 + adr.toNat * 2 ^ 32 + data.toNat * 2 ^ 16) else p.hold d
  | .take term arm =>
    if p.room false then p.block 5 (term.toNat * 2 ^ 24 + b2n arm * 2 ^ 23) else p.hold d

/-- A command of the priority path, which goes ahead of everything queued (R118). -/
def DnCmd.prio : DnCmd → Bool
  | .guardEdge _ _ _ | .onNow _ | .prioEdge _ _ _ _ => true
  | _ => false

/-- Pack a lane's waiting commands, the priority path first. -/
def packAll (c : SfCtx) (l : Lane) : Pack :=
  let q := l.dnq.filter DnCmd.prio ++ l.dnq.filter fun d => !d.prio
  let p := q.foldl (packOne c) { lane := { l with dnq := [] } }
  { p with lane := { p.lane with dnq := p.keep.reverse } }

/-- EDGE blocks of three commands each, the first in bits [62:42] (R59). -/
def edgeBlocks : List Nat → List DWord
  | a :: b :: c :: t => BitVec.ofNat 64 (a * 2 ^ 42 + b * 2 ^ 21 + c) :: edgeBlocks t
  | [a, b] => [BitVec.ofNat 64 (a * 2 ^ 42 + b * 2 ^ 21)]
  | [a] => [BitVec.ofNat 64 (a * 2 ^ 42)]
  | [] => []

/-- The payloads of the 25 blocks of a downstream superframe: 24 command blocks filled up with IDLE, and the trailer (R43, R56, R57). -/
def superframeOf (cmds : List DWord) (seq role : Nat) : List DWord :=
  let idle : DWord := BitVec.ofNat 64 (2 ^ 63)
  let b := cmds.take 24 ++ List.replicate (24 - cmds.length) idle
  let top := 0x9C * 2 ^ 40 + seq * 2 ^ 32 + role * 2 ^ 30
  b ++ [BitVec.ofNat 64 (top * 2 ^ 16 + crcWords b top 48)]

/-- Queue a downstream command for a lane. -/
def State.dn (s : State) (n : Nat) (d : DnCmd) : State := s.modLane n fun l => { l with dnq := l.dnq ++ [d] }

/-- Queue a command unless the same one waits already. -/
def State.dnOnce (s : State) (n : Nat) (d : DnCmd) : State := if (s.lane n).dnq.contains d then s else s.dn n d

/-- The guards that watch cell n: one for each engine that works for it, whose guard edges all go out until a takeover boundary (R152, R153); a relieved engine's has stopped. -/
def State.guards (s : State) (n : Nat) : List Nat := (s.enginesOf n).filter fun e => !((s.eng e).st == .relieved && !(match (s.cell n).relief with | .starting _ _ _ _ => true | _ => false))

/-- A guard edge of every guard that watches cell n; the same one waits at most once for each. -/
def State.guardEdge (s : State) (n : Nat) (sw : BitVec 2) : State :=
  let d : DnCmd := .guardEdge sw (cpGuardProf (s.cell n).active) true
  if (s.lane n).dnq.contains d then s else (s.guards n).foldl (fun s _ => s.dn n d) s

/-- A guard action on switches of cell n (R118): its guard edges count as an intervention with its bit of CELL_STAT, and the guard holds back the turn-ons of those
switches until the cell's next period boundary (R119, R120, R122). -/
def State.guardAct (s : State) (n : Nat) (sw : BitVec 2) (bit : Nat) : State :=
  (s.guardEdge n sw).modLane n fun l =>
    { l with hits := setBit l.hits bit true, interv := true, holdHi := l.holdHi || sw.getLsbD 0, holdLo := l.holdLo || sw.getLsbD 1 }

/-- The working profile of a band and direction: PROF_LO until learning moved it (R129, R130). -/
def Engine.work (e : Engine) (page : List Byte) (band d : Nat) : Nat :=
  tabGet (fun k => cpProfLo page (k / 2) (k % 2)) e.workProf (2 * band + d)

/-- The band of a current magnitude in mA (R129). -/
def bandOf (page : List Byte) (mA : Int) : Nat :=
  countTrue ((List.range 3).map fun i => decide (1000 * cpBand page i ≤ mA.natAbs))

/-- The surroundings of a superframe of lane n. -/
def State.sfCtx (s : State) (n : Nat) (strobe : Nat) : SfCtx :=
  let page := (s.cell n).active
  let e := s.eng (s.serving n)
  let g := s.guardFor n
  let band := bandOf page e.lastI
  { strobe := strobe, g := g, dutyLim := g.dutyMax * s.periodOf n / 65536, period := s.periodOf n, band := band,
    allowed := (s.lane n).st == .run && g.crcOk && !(s.senseOf n).isSome,
    gprof := cpGuardProf page,
    profOn := BitVec.ofNat 4 (e.work page band 0), profOff := BitVec.ofNat 4 (e.work page band 1) }

end Sys2Proof.Machine
end

