-- ==== Sys2Proof/Machine/Lanes.lean ====
section
/-! DEFINITION. Lane bring-up (R94 to R98), the CONFIG exchange with the cell (R63, R64), profiles (R62, R337), page swaps of a cell (R33, R597) and
the loss of a lane (R101, R552, R553), with the commands of LINK.LANE_CTL and of lane loss. -/

namespace Sys2Proof.Machine

/-! ## CONFIG (R63, R64) -/

/-- Send the next CONFIG when none is unacknowledged (R63): CSEQ[7] is TWIN.CFG.PORT. -/
def Lane.cfgPump (l : Lane) (port : Bool) : Lane :=
  match l.cfgWait, l.cfgQ with
  | none, (adr, data, wr) :: t =>
    let seq : Byte := BitVec.ofNat 8 (128 * b2n port + (l.cfgSeq.toNat + 1) % 128)
    { l with cfgSeq := seq, cfgQ := t, cfgWait := some (seq, adr, data, wr), cfgAck := none,
             dnq := l.dnq ++ [.config wr seq adr (if wr then data else 0)] }
  | _, _ => l

/-- The three configuration registers that bring-up writes or compares, from a page (R144, R95). -/
def cfgOf (page : List Byte) (wr : Bool) : List (Byte × BitVec 16 × Bool) :=
  [(1, BitVec.ofNat 16 (leAt page 0x3A 2), wr), (2, BitVec.ofNat 16 (leAt page 0x3C 2), wr), (3, BitVec.ofNat 16 (leAt page 0x3E 2), wr)]

/-- Word w of profile p in a profile block. -/
def profWord (block : List Byte) (p w : Nat) : Nat := leAt block (16 * p + 4 * w) 4

/-- The PROFILE_WRITEs of one profile, the last with COMMIT (R62). -/
def profCmds (block : List Byte) (p : Nat) : List DnCmd :=
  (List.range 4).map fun w => .profileWrite (BitVec.ofNat 4 p) (BitVec.ofNat 2 w) (w == 3) (wordN (profWord block p w))

/-- PROF_CRC of a profile block (R55): profile 0 word 0 first, each word most significant byte first. -/
def profCrc (block : List Byte) : Nat :=
  (List.range 64).foldl (fun c i => crcBits c (leAt block (4 * i) 4) 32) 0xFFFF

/-! ## The end of a swap (R335, R597) -/

/-- A swap order of operation o still waits somewhere. -/
def State.swapWaits (s : State) (o : Nat) : Bool :=
  s.cells.any (fun e => e.2.swapOp == some o) || s.rails.any (fun e => e.2.swapOp.any fun x => x.1 == o)
    || s.lanes.any (fun e => e.2.lateOp == some o)

/-- Part of a swap has taken effect now; the operation completes with the low ST bits of the last such instant when nothing of it waits any more. -/
def State.swapDone (s : State) (o : Nat) : State :=
  if s.swapWaits o then s
  else match s.findOp o with
    | some p => s.completeTag o stOk 0 p.value
    | none => s

/-- The swap that waits for lane n's late configuration waits no more: the lane is READY with its configuration done, or it has left READY (R597). -/
def State.lateFree (s : State) (n : Nat) : State :=
  match (s.lane n).lateOp with
  | some o => (s.modLane n fun l => { l with lateOp := none }).swapDone o
  | none => s

/-! ## Bring-up (R94) -/

/-- A lane at the start of training (R94): a fresh receiver, no auxiliary values, nothing queued. Profiles, CSEQ and the guard latch stay. DESIGN CHOICE (log entry 50): an unacknowledged CONFIG of the
attempt before is forgotten, so the first CONFIG of the new one waits for no CFG_ACK (R63). -/
def Lane.fresh (l : Lane) : Lane :=
  { l with cause := 0, locked := false, good := 0, badRun := 0, aux := [], auxHi := none, measN := 0, rtSum := 0, cfgWait := none, cfgAck := none,
           cfgQ := [], cfgMode := 0, dnq := [], sent := [], cmdHi := false, cmdLo := false, offHiAt := none, offLoAt := none,
           coarse := true, settle := 0, blind := false, omitted := false, vwinRun := 0, burst := false, burstTill := none, rangeSf := none, trans := {} }

/-- Bring-up step 1 (R94): the lane sends ROLE IDLE and its state is LOCKING. -/
def State.laneStep1 (s : State) (n : Nat) : State :=
  (s.modLane n fun l => { l.fresh with trainAt := s.time.st }).laneTo n .locking

/-- Training starts, with its attempts counted from zero (R94). -/
def State.laneTrain (s : State) (n : Nat) : State := (s.modLane n fun l => { l with attempts := 0 }).laneStep1 n

/-- STATE becomes FAULT with a cause (R94, R95); the lane goes on sending ROLE IDLE. -/
def State.laneFault (s : State) (n : Nat) (cause : BitVec 4) : State :=
  ((s.modLane n fun l => { l with cause := cause, cfgWait := none, cfgQ := [], cfgMode := 0 }).laneTo n .fault).lateFree n

/-- A bring-up step fails: again from step 1, or FAULT with its cause after three attempts (R94). -/
def State.laneFail (s : State) (n : Nat) (cause : BitVec 4) : State :=
  let k := (s.lane n).attempts + 1
  if 3 ≤ k then s.laneFault n cause
  else (s.modLane n fun l => { l with attempts := k }).laneStep1 n

/-- The lane goes silent (LINK.LANE_CTL.EN = 0), or OFF on entry to JOINING (R416). -/
def State.laneOff (s : State) (n : Nat) : State := ((s.modLane n Lane.fresh).laneTo n .off).lateFree n

/-- READY, and RUN at once when the device has a role and the guard set is valid (R96, R116), or PARKED in PARK (R476). -/
def State.laneReady (s : State) (n : Nat) : State :=
  let s := ((s.modLane n fun l => { l with cfgMode := 0, attempts := 0 }).laneTo n .ready).lateFree n
  if s.pwr.st == .park then s.laneTo n .parked
  else if roleOf s.twin ≠ 0 && (s.guardFor n).crcOk && s.mayLeaveReady then s.laneTo n .run else s

/-- All auxiliary values 0x4 to 0xE have been accepted (R94). -/
def Lane.auxAll (l : Lane) : Bool := (List.range 11).all fun i => (l.auxOf (i + 4)).isSome

/-- The cell has a master: this port is it, or the other port is eligible (R53, R95). -/
def Lane.hasMaster (l : Lane) : Bool := l.status.getLsbD 9 || l.status.getLsbD 8

/-- LINK.LANE_CTL.ASYM of lane n: downstream flight minus upstream flight in ST units (R99). -/
def State.asym (s : State) (n : Nat) : Int := asSigned 8 (fld (s.reg Reg.linkLaneCtl n) 15 8)

/-- Both flights together in ST units (R73): the mean round trip of 64 superframes less RXD and TXD. -/
def Lane.flights (l : Lane) : Nat := l.rtSum / 64 - (l.auxOf 4).getD 0 - (l.auxOf 5).getD 0

/-- How far the downstream transmission leads the strobe (R73): the downstream flight, which exceeds the upstream one by ASYM, and RXD. -/
def Lane.leadOf (l : Lane) (asym : Int) : Nat := (((l.flights : Int) + asym) / 2).toNat + (l.auxOf 4).getD 0

/-- Step 4 of bring-up is finished or fails (R73, R75, R65, R94, R95): 64 superframes measured and every value in. The one-way flight is half of both, in whole ns (log entry 7); PEER_OK is kept for step
7, and the downstream phase shifts once. -/
def State.laneMeasured (s : State) (n : Nat) : State :=
  let l := s.lane n
  let page := (s.cell n).active
  let asym := s.asym n
  if l.measN < 64 || !l.auxAll then s
  else
    let s := s.modLane n fun l => { l with flight := BitVec.ofNat 8 (min 255 (l.flights / 32)), peer4 := l.status.getLsbD 8 }
    if 256 < (l.auxOf 4).getD 0 || 384 < (l.auxOf 5).getD 0 || 256 < (l.auxOf 6).getD 0 then s.laneFail n 2
    else if 1600 < l.flights then s.laneFail n 3
    else if page != [] && cpShortLow page && !bitOf ((l.auxOf 0xE).getD 0) 15 then s.laneFault n 5
    else (s.modLane n fun l => { l with advance := l.leadOf asym, measN := 0, rtSum := 0 }).laneTo n .aligning

/-- Step 7 begins (R95, R597): with no master at step 4 the configuration and the profiles are written, else they are compared. -/
def State.laneConfigure (s : State) (n : Nat) : State :=
  let page := (s.cell n).active
  let s := s.laneTo n .configuring
  s.modLane n fun l =>
    let w := !l.peer4
    let q := if page = [] then [] else cfgOf page w
    let p := if w && l.profBlock != [] then (List.range 16).flatMap (profCmds l.profBlock) else []
    Lane.cfgPump { l with cfgMode := if w then 1 else 2, cfgQ := q, dnq := l.dnq ++ p } s.port

/-- A PROFILE_WRITE waits to be sent. -/
def Lane.profWaits (l : Lane) : Bool := l.dnq.any fun d => match d with | .profileWrite _ _ _ _ => true | _ => false

/-- CAPS after the write of SAFE_KIND is still awaited at step 7 (R65). -/
def State.capsWaits (s : State) (n : Nat) : Bool := (s.lane n).cfgMode == 1 && (s.cell n).active != [] && ((s.lane n).auxOf 0xE).isNone

/-- Step 7 is finished (R94, R95, R597), or a comparison fails it for good. PROF_CRC counts once every PROFILE_WRITE has left. -/
def State.laneConfigured (s : State) (n : Nat) : State :=
  let l := s.lane n
  let page := (s.cell n).active
  let caps := l.auxOf 0xE
  let crc := l.auxOf 0xD
  if l.st != .configuring || l.cfgWait.isSome || l.cfgQ != [] then s
  else if l.cfgMode = 1 then
    if s.capsWaits n then s
    else if page != [] && (bitOf (caps.getD 0) 14 != cpShortLow page) then s.laneFault n 5
    else if l.profBlock != [] && (l.profWaits || crc != some (profCrc l.profBlock)) then s
    else s.laneReady n
  else if l.profBlock != [] && crc != some (profCrc l.profBlock) then s.laneFault n 6
  else s.laneReady n

/-! ## Swaps of a cell page (R33, R335, R336, R597) -/

/-- Load the program of an engine (R136, R598): registers and local data cleared, initial outputs. -/
def Engine.loadProgram (e : Engine) (page : List Byte) : Engine :=
  { e with regs := [], loc := [], out := initOutputs page, running := false, pc := 0, ppFault := false, overrun := false }

/-- What a new active page does to an engine that works for the cell (R112, R128, R130, R137, R598): a change of a stock PROG loads that program. -/
def Engine.newPage (e : Engine) (old new : List Byte) : Engine :=
  let e := if cpProg new != 0xFF && (old = [] || cpProg old != cpProg new) then e.loadProgram new else e
  { e with workProf := [], softN := [], hardN := [], dtHL := cpDtInit new, dtLH := cpDtInit new, dtHLb := cpDtInit new, dtLHb := cpDtInit new,
           busEst := none, pindex := 0 }

/-- The lane carries commands to a trained cell (R94, R97). -/
def Lane.live (l : Lane) : Bool := l.st == .ready || l.st == .run || l.st == .parked

/-- The configuration part of step 7 on a lane that reached READY without a page (R597): it writes when the cell has no master, and compares when it has one; without CAPS[15] nothing is written for
SAFE_SHORT_LOW (R65). -/
def State.lateConfig (s : State) (n : Nat) (o : Option Nat) : State :=
  let l := s.lane n
  let page := (s.cell n).active
  let w := !l.hasMaster
  if cpShortLow page && !bitOf ((l.auxOf 0xE).getD 0) 15 then s.laneFault n 5
  else s.modLane n fun l => Lane.cfgPump { l with cfgMode := if w then 3 else 4, cfgQ := l.cfgQ ++ cfgOf page w, lateOp := o } s.port

/-- The page that the ordered swap of cell n brings becomes active now (R33, R34), in both engines when relief is under way (R156). The first page of a lane that reached
READY without one brings the configuration part of step 7 (R597). -/
def State.swapCellNow (s : State) (n : Nat) : State :=
  let c := s.cell n
  let o := c.swapOp
  let l := s.lane n
  let k := 1024 + n / 16
  let h : Health := if cpFlag c.swapPage 3 && !(c.active != [] && cpFlag c.active 3) then { c.health with since := s.time.st } else c.health
  let s := s.setCell n { c with active := c.swapPage, staged := [], swapOp := none, swapPage := [], health := h }
  let s := s.modEng n fun e => e.newPage c.active c.swapPage
  let s := if (s.eng k).carries = some n then s.modEng k fun e => e.newPage c.active c.swapPage else s
  let s := match o with
    | some t => s.modOp t fun p => { p with value := s.time.st.toNat % 2 ^ 32, committed := true }
    | none => s
  let s := if c.active = [] && l.live then s.lateConfig n o else s
  let s := s.refreshEng n
  match o with
  | some t => s.swapDone t
  | none => s

/-- The configuration part of step 7 on a lane already READY has ended (R597): the swap that brought it completes; a failed write or comparison sets
FAULT with CAUSE 0x5. -/
def State.lateEnd (s : State) (n : Nat) (good : Bool) : State :=
  let s := s.modLane n fun l => { l with cfgMode := 0 }
  if good then s.lateFree n else s.laneFault n 5

/-- The late configuration is complete: SAFE_KIND shows in CAPS[14] where it was written (R65, R597). -/
def State.lateCheck (s : State) (n : Nat) : State :=
  let l := s.lane n
  if l.cfgWait.isSome || l.cfgQ != [] then s
  else if l.cfgMode = 4 then s.lateEnd n true
  else if l.cfgMode = 3 then
    match l.auxOf 0xE with
    | some v => s.lateEnd n (bitOf v 14 == cpShortLow (s.cell n).active)
    | none => s
  else s

/-- A CONFIG has been answered: its result code and the register's value (R64, R95, R597). -/
def State.cfgDone (s : State) (n : Nat) (adr : Byte) (data : BitVec 16) (wr : Bool) (res : Byte) (value : BitVec 16) : State :=
  let l := s.lane n
  let aux := if wr && adr == 1 then l.aux.filter (fun e => e.1 != 0xE) else l.aux
  let dt := if adr == 2 && res == 0 then value.toNat else l.dtCell
  let s := s.setLane n { l with cfgWait := none, cfgAck := none, aux := aux, dtCell := dt }
  let bad := res != 0 || (!wr && value != data)
  let pump := fun (s : State) => s.modLane n fun l => l.cfgPump s.port
  match l.cfgMode with
  | 1 => if res != 0 then s.laneFail n 5 else pump s
  | 2 => if res != 0 then s.laneFail n 5 else if bad then s.laneFault n 5 else pump s
  | 3 | 4 => if bad then s.lateEnd n false else (pump s).lateCheck n
  | _ => pump s

/-! ## Loss of a lane (R101, R552, R553) -/

/-- The lane-loss reaction (R553): FAULT with CAUSE 0x7, ROLE IDLE from the next superframe, the cell left out of its rail's words, a LANE_FAULT event,
LANE_LOST in SAFETY.STAT with its SAFETY event. -/
def State.laneLost (s : State) (n : Nat) : State :=
  let s := s.modLane n fun l => { l with cause := 7, omitted := true, locked := false }
  let s := (s.laneTo n .fault).lateFree n
  let s := s.event 0x05 n [8, 7]
  (s.safety 1).event 0x12 0x03 (toLe 2 n)

/-- A lane has lost superframe lock (R101): in RUN the lane-loss reaction; in MEASURING and CONFIGURING the step fails; in ALIGNING it is expected, and the measurement begins again; in READY
and PARKED bring-up starts again from step 1. DESIGN CHOICE (log entry 50): a step that fails so has CAUSE 0x1, the one that names a missing superframe lock. -/
def State.lockLost (s : State) (n : Nat) : State :=
  let s := s.modLane n fun l => { l with locked := false, good := 0, measN := 0, rtSum := 0 }
  match (s.lane n).st with
  | .run => s.laneLost n
  | .measuring | .configuring => s.laneFail n 1
  | .ready | .parked => s.laneTrain n
  | _ => s

/-- k superframe periods have passed on lane n since its last good superframe: that many failed, or that much time has gone by (R45, R552). -/
def State.missed (s : State) (n k : Nat) : Bool :=
  decide (k ≤ (s.lane n).badRun) || decide (1024 * k ≤ (s.time.st - (s.lane n).goodAt).toNat)

/-- LANE_LOCK_LOST (R101, R45): four superframe periods without a superframe that passes. -/
def execLaneLockLost (n : Fin 1024) (s : State) : Host.Outcome State Fault Refusal :=
  .next (if (s.lane n).locked && s.missed n 4 then s.lockLost n else s)

/-- A lane in RUN goes blind (R552): the guard holds back unsent turn-ons until a superframe passes, the hold counts as an intervention, and LANE_BLIND sets in SAFETY.STAT with its SAFETY event. -/
def State.goBlind (s : State) (n : Nat) : State :=
  let l := s.lane n
  if l.st != .run || l.blind then s
  else ((s.setLane n { l with blind := true, interv := true }).safety 0).event 0x12 0x02 (toLe 2 n)

/-- LANE_BLIND (R552): two superframe periods of a lane in RUN have passed without a good superframe. -/
def execLaneBlind (n : Fin 1024) (s : State) : Host.Outcome State Fault Refusal :=
  .next (if s.missed n 2 then s.goBlind n else s)

/-- The lane that the LINK window shows (R99); none for a lane of a disabled quarter. -/
def State.laneSel (s : State) : Option Nat :=
  let n := fld (s.reg Reg.linkLaneSel) 9 0
  if s.laneOk n then some n else none

/-- The lanes stay OFF for now: until the start trains them (R469), and in JOINING until ST has been stepped (R416). -/
def State.lanesHeld (s : State) : Bool :=
  (s.twin.st == .joining && s.twin.joinStep == 0) || (s.pwr.st == .starting && decide (s.pwr.step < 3)) || s.pwr.st == .reset

/-- A write of LINK.LANE_CTL for lane n (R99): ASYM and EN are kept; EN falling silences the lane, EN rising or RETRAIN starts its training. -/
def State.laneCtl (s : State) (n : Nat) (v : Word) : State :=
  let was := wbit (s.reg Reg.linkLaneCtl n) 0
  let s := s.setReg Reg.linkLaneCtl n (v &&& 0x0000FF01)
  if !wbit v 0 then (if was then (s.modLane n fun l => { l with silenced := true }).laneOff n else s)
  else if !was || wbit v 1 then
    let s := s.modLane n fun l => { l with silenced := false }
    if s.lanesHeld then s else s.laneTrain n
  else s

/-- LANE_RETRAIN (R99, R94): a write of RETRAIN restarts bring-up at step 1. -/
def execLaneRetrain (v : Word) (s : State) : Host.Outcome State Fault Refusal :=
  .next <| s.viaBar0 fun s => match s.laneSel with
    | some n => s.laneCtl n v
    | none => s

/-- LANE_EN_WRITE (R99): a write of EN silences the lane or starts its training. -/
def execLaneEnWrite (v : Word) (s : State) : Host.Outcome State Fault Refusal :=
  .next <| s.viaBar0 fun s => match s.laneSel with
    | some n => s.laneCtl n v
    | none => s

/-- The time from the start of training by which a step of bring-up has to be finished, in ST units (R94). -/
def stepLimit : LaneState → Option Nat
  | .locking => some 480000
  | .measuring => some 560000
  | .aligning => some 960000
  | .configuring => some 1440000
  | _ => none

/-- The CAUSE of a step that misses its time (R94, R100). DESIGN CHOICE (log entry 50): a step 4 that has every auxiliary value and fewer than 64 superframes lacked superframes, CAUSE 0x1, and a step 7 with every CONFIG
answered and CAPS in waits for PROF_CRC, 0x6. -/
def State.stepCause (s : State) (n : Nat) : BitVec 4 :=
  let l := s.lane n
  match l.st with
  | .locking => 1
  | .measuring => if l.auxAll then 1 else 8
  | .aligning => 4
  | _ => if l.cfgWait.isSome || l.cfgQ != [] || s.capsWaits n then 5 else 6

/-- BRING_UP_STEP_TIMEOUT (R94): the step in progress has missed its time and fails with its cause (R100). -/
def execBringUpStepTimeout (n : Fin 1024) (s : State) : Host.Outcome State Fault Refusal :=
  .next <| match stepLimit (s.lane n).st with
    | some t => if t ≤ (s.time.st - (s.lane n).trainAt).toNat then s.laneFail n (s.stepCause n) else s
    | none => s

end Sys2Proof.Machine
end

