-- ==== Sys2Proof/Machine/Digest.lean ====
section
/-! DEFINITION. What the twins compare (R396, R402, R554): digests are paired in order per engine and per rail publication, and a difference marks the rail as
mismatched. Digest keys: engine e at e, the publication of rail m at 2048 + m. -/

namespace Sys2Proof.Machine

/-- The device compares with its twin (R396, R402): a SHADOW, a JOINING one that runs (R416), an ACTIVE whose twin is SHADOW. -/
def State.paired (s : State) : Bool :=
  let t := s.twin
  t.link && (t.st == .shadow || (t.st == .joining && decide (3 ≤ t.joinStep)) || (t.st == .active && t.peer == .shadow))

/-- The device sends what the twins exchange (R396). -/
def State.exchanges (s : State) : Bool := s.paired || (s.twin.link && s.twin.st == .active && s.twin.peer == .joining)

/-- A rail mismatches (R402), since now unless it already did. -/
def State.mismatch (s : State) (m : Nat) : State := { s with twin := { s.twin with mism := if s.twin.mism.any fun e => e.1 == m then s.twin.mism else s.twin.mism ++ [(m, s.time.st)], slotMism := true } }

/-- The rail that a digest key concerns; none for a cell that both twins leave out because its lane is FAULT on either (R554). -/
def State.digestRail (s : State) (key : Nat) : Option Nat :=
  if 2048 ≤ key then some (key - 2048)
  else match s.cellOf key with
    | some n => if (s.lane n).st == .fault || s.twin.peerFault.contains n then none else s.railOf n
    | none => none

/-- The waiting digests of a key. -/
def digs (t : List (Nat × List (BitVec 16))) (key : Nat) : List (BitVec 16) := tabGet (fun _ => []) t key

/-- Put the waiting digests of a key. -/
def setDigs (t : List (Nat × List (BitVec 16))) (key : Nat) (v : List (BitVec 16)) : List (Nat × List (BitVec 16)) :=
  tabSet (fun _ => []) t key v

/-- Two paired digests differ or agree (R402). -/
def State.judge (s : State) (key : Nat) (a b : BitVec 16) : State :=
  if a = b then s
  else match s.digestRail key with
    | some m => s.mismatch m
    | none => s

/-- This device's digest of a key is sent and compared (R396). -/
def State.digest (s : State) (key : Nat) (crc : BitVec 16) (item : DvItem) : State :=
  let s := if s.exchanges then s.emit (.dovetail item) else s
  if !s.paired then s
  else
    match digs s.twin.digPeer key with
    | p :: t => { s with twin := { s.twin with digPeer := setDigs s.twin.digPeer key t } }.judge key crc p
    | [] => { s with twin := { s.twin with digOwn := setDigs s.twin.digOwn key (digs s.twin.digOwn key ++ [crc]) } }

/-- The twin's digest of a key has arrived (R396). -/
def State.peerDigest (s : State) (key : Nat) (crc : BitVec 16) : State :=
  if !s.paired then s
  else
    match digs s.twin.digOwn key with
    | p :: t => { s with twin := { s.twin with digOwn := setDigs s.twin.digOwn key t } }.judge key p crc
    | [] => { s with twin := { s.twin with digPeer := setDigs s.twin.digPeer key (digs s.twin.digPeer key ++ [crc]) } }

/-- The rail that uses lane n's superframes: the lane is a cell or sense lane of it, and in RUN. -/
def State.usesLane (s : State) (n : Nat) : Option Nat := if (s.lane n).st == .run then s.railHaving n else none

/-- Two CRC-fail bitmaps of one superframe are compared (R402): each lane whose verdicts differ counts in CRC_DIV, and its rail mismatches. -/
def State.judgeMaps (s : State) (a b : List Nat) : State :=
  let diff := (a.filter fun n => !b.contains n) ++ b.filter fun n => !a.contains n
  let s := { s with twin := { s.twin with crcDiv := diff.foldl (fun k _ => satInc 0xFFFF k) s.twin.crcDiv } }
  diff.foldl (fun s n => match s.usesLane n with | some m => s.mismatch m | none => s) s

/-- The twin's CRC-fail bitmap has arrived (R396): it meets this device's of the same superframe, in order. -/
def State.peerMap (s : State) (bad : List Nat) : State :=
  if !s.paired then s
  else match s.twin.badOwn with
    | p :: t => { s with twin := { s.twin with badOwn := t } }.judgeMaps p bad
    | [] => { s with twin := { s.twin with badPeer := s.twin.badPeer ++ [bad] } }

/-- What goes to the twin once in every superframe (R396): the stamp, and the bitmap of the lanes whose superframe failed since the last one. -/
def State.tellTwin (s : State) : State :=
  let k := s.time.st.toNat / 1024
  if s.twin.sfSent == some k then s
  else
    let own := s.twin.badHere
    let s := { s with twin := { s.twin with sfSent := some k, badHere := [] } }.emit (.dovetail s.stampItem)
    let s := if s.exchanges then s.emit (.dovetail (.crcBitmap (own.filterMap fun n => if h : n < 1024 then some ⟨n, h⟩ else none))) else s
    if !s.paired then s
    else match s.twin.badPeer with
      | p :: t => { s with twin := { s.twin with badPeer := t } }.judgeMaps own p
      | [] => { s with twin := { s.twin with badOwn := s.twin.badOwn ++ [own] } }

/-- The output digest of R396: the CRC of R46 over DUTY, MODE, RANGE_REQ and the EDGEQ pushes, each word most significant bit first. -/
def outDigest (o : Outputs) : BitVec 16 :=
  BitVec.ofNat 16 ((o.duty :: o.mode :: o.rangeReq :: o.edgeq).foldl (fun c w => crcBits c w.toNat 32) 0xFFFF)

end Sys2Proof.Machine
end

