-- ==== Sys2Proof/Machine/Modulator.lean ====
section
/-! DEFINITION. The modulator (R123 to R126), how a run of the period program ends (R107, R108, R142) and the stall of an engine (R157). -/

namespace Sys2Proof.Machine

/-- Clamp a natural between bounds, the lower bound last. -/
def clampN (lo hi x : Nat) : Nat := max lo (min hi x)

/-- t_on of a PWM period (R123, R112), and the state with the free value drawn when the bus estimate is not above 0, for which the spec states no
quotient (log entry 4). DESIGN CHOICE (log entry 7): t_on, its clamps and (T - t_on) / 2 and (T + t_on) / 2 are rounded down to whole ST units. -/
def State.tOn (s : State) (page : List Byte) (g : Engine) (period : Nat) : Nat × State :=
  let lo := period * cpDutyMin page / 65536
  let hi := period * cpDutyMax page / 65536
  let plain := period * g.out.duty.toNat / 2 ^ 32
  if !cpFlag page 1 then (clampN lo hi plain, s)
  else match g.busEst with
    | none => (clampN lo hi plain, s)
    | some v =>
      if v.toInt ≤ 0 then
        let (w, s) := s.freshWord
        (clampN lo hi w.toNat, s)
      else (clampN lo hi (period * g.out.duty.toNat * (100 * cpFfVnom page) / (v.toNat * 2 ^ 32)), s)

/-- What the modulator does in a period (R126, R169, R178). -/
inductive ModAct where
  | pwm
  | off
  | lowOn
  | direct
  | prearm
deriving DecidableEq, Repr

/-- The act for cell n with an engine's outputs: forced by the rail's state (R168, R169, R178) and, for a SOURCE that neither syncs nor delivers, OFF (R171, R192). -/
def State.modAct (s : State) (n : Nat) (o : Outputs) : ModAct :=
  match s.railOf n with
  | none => .off
  | some m =>
    let r := s.rail m
    match r.st with
    | .run =>
      if r.isKind 0 && !(r.sub == 3 || r.sub == 4) then .off
      else match fld o.mode 3 0 with
        | 0 => .pwm | 2 => .lowOn | 3 => .direct | _ => .off
    | .armed => .prearm
    | .envTrip => if cpShortLow (s.cell n).active then .lowOn else .off
    | _ => .off

/-- An edge whose profile is chosen when it is sent. -/
def edgeAuto (sw : BitVec 2) (level : Bool) (t : Nat) : DnCmd := .edge sw level (BitVec.ofNat 64 t) none

/-- The PWM edges of the period that starts at b (R123, R124), and whether the low side's off-interval joins the next one. -/
def pwmEdges (b period tOn dtHL dtLH : Nat) (joined : Bool) : List DnCmd × Bool :=
  if tOn = 0 then (if joined then [edgeAuto 2 true (b + period / 2 + dtHL)] else [], false)
  else
    let on := b + (period - tOn) / 2
    let off := b + (period + tOn) / 2
    let join := decide (period < tOn + dtHL + dtLH)
    ((if joined then [] else [edgeAuto 2 false (on - dtLH)]) ++ [edgeAuto 1 true on, edgeAuto 1 false off]
      ++ (if join then [] else [edgeAuto 2 true (off + dtHL)]), join)

/-- A pushed edge (R138). -/
def directEdge (b : Nat) (w : Word) : DnCmd :=
  .edge (BitVec.ofNat 2 (fld w 31 30)) (wbit w 29) (BitVec.ofNat 64 (b + fld w 24 0)) (some (BitVec.ofNat 4 (fld w 28 25)))

/-- The edges of the period at b with their new joined flag. -/
def State.periodEdges (s : State) (n e b period : Nat) : List DnCmd × Bool × State :=
  let g := s.eng e
  let page := (s.cell n).active
  match s.modAct n g.out with
  | .off => ([edgeAuto 3 false b], false, s)
  | .lowOn => ([edgeAuto 1 false b, edgeAuto 2 true b], false, s)
  | .direct => (g.out.edgeq.map (directEdge b), false, s)
  | .prearm =>
    let pulse := match s.railOf n with | some m => rpPrearmPulse (s.rail m).active | none => 0
    (if pulse = 0 then [] else [edgeAuto 2 true b, edgeAuto 2 false (b + pulse)], false, s)
  | .pwm =>
    let (t, s) := s.tOn page g period
    let (l, j) := pwmEdges b period t g.dtHL g.dtLH g.lowJoined
    (l, j, s)

/-- The instant of a modulator edge. -/
def DnCmd.instant : DnCmd → Nat
  | .edge _ _ t _ => t.toNat
  | _ => 0

/-- Which of an engine's edges the drawer merger takes (R153): in the last run before a takeover boundary at b the engine that served sends those
before b and the one that takes over those from b; from that boundary on only the latter's are taken. -/
def State.merge (s : State) (n e b : Nat) (l : List DnCmd) : List DnCmd :=
  match (s.cell n).relief with
  | .starting _ _ step _ =>
    if 4 ≤ step then
      if step = 4 then
        if s.serving n = e then l.filter fun d => decide (d.instant < b) else l.filter fun d => decide (b ≤ d.instant)
      else if s.serving n = e then [] else l
    else if s.serving n = e then l else []
  | _ => if s.serving n = e then l else []

/-- The modulator turns an engine's outputs into the edges of the period at b (R107, R125). -/
def State.modulateAt (s : State) (e n b : Nat) : State :=
  let period := s.periodOf n
  if (s.lane n).st != .run || period = 0 then s
  else
    let (l, j, s) := s.periodEdges n e b period
    let s := s.modEng e fun g => { g with lowJoined := j, made := some (BitVec.ofNat 64 b) }
    let l := s.merge n e b l
    s.modLane n fun x => { x with dnq := x.dnq ++ l }

/-- The edges of the period after the run's own. -/
def State.modulate (s : State) (e : Nat) : State :=
  match s.cellOf e with
  | none => s
  | some n => s.modulateAt e n (s.cellNext n (s.eng e).bound.toNat)

/-- Until a first run has ENDed the modulator works on the outputs it has (R598): when a superframe leaves within eight of the next boundary and no run is to make that period's edges, they are made
from the outputs in force. A stalled engine makes none (R157). -/
def State.ensureMade (s : State) (n strobe : Nat) : State :=
  let e := s.serving n
  let g := s.eng e
  let next := s.cellNext n (max g.bound.toNat (s.cellEdge n s.time.st.toNat))
  if (s.senseOf n).isSome || g.running || g.st == .stalled || g.made == some (BitVec.ofNat 64 next) || strobe + 8192 < next then s
  else s.modulateAt e n next

/-! ## How a run ends -/

/-- An engine is declared STALLED (R157): its sequencer halts; STALL sets in SAFETY.STAT and its SAFETY event says whether relief takes the cell (R158). -/
def State.stall (s : State) (e : Nat) : State :=
  match s.cellOf e with
  | none => s
  | some n =>
    let k := 1024 + n / 16
    let takes := decide (e < 1024) && cpFlag (s.cell n).active 4 && (s.eng k).carries.isNone
    let s := s.modEng e fun g => { g with st := .stalled, running := false, stallAt := s.time.st }
    (s.safety 2).event 0x12 0x04 (toLe 2 n ++ [if takes then 1 else 0])

/-- Cell n is the lead of rail m (R24). -/
def State.leadOf (s : State) (n : Nat) : Option Nat :=
  match s.railOf n with
  | some m => if (s.rail m).hasPage && rpLead (s.rail m).active == n then some m else none
  | none => none

/-- A run that ends as an overrun or by a program fault (R108, R142): its outputs and a lead's staged writes are discarded and the previous outputs repeat.
The second consecutive run that misses END stalls the engine (R157, R555). -/
def State.runBad (s : State) (e : Nat) (fault : Bool) : State :=
  let s := s.modEng e fun g =>
    { g with running := false, ended := false, finished := true, lastCycles := g.cycles, missEnd := g.missEnd + 1, ppFault := fault, overrun := !fault, stage := g.out }
  let s := match (s.cellOf e).bind s.leadOf with
    | some m => s.modRail m fun r => { r with pubStage := [], leadEnded := false }
    | none => s
  let s := s.modulate e
  if 2 ≤ (s.eng e).missEnd && !((s.eng e).st == .stalled) then s.stall e else s

/-- The engines of a takeover have both ended their run on the same image: their outputs are compared (R155). -/
def State.reliefCompare (s : State) (n : Nat) : State :=
  let a := s.eng n
  let b := s.eng (1024 + n / 16)
  match (s.cell n).relief with
  | .starting o back step mis =>
    if 4 ≤ step && a.ended && b.ended && a.image == b.image && a.out != b.out && !mis then
      (s.modCell n fun c => { c with relief := .starting o back step true }).event 0x04 n (toLe 2 o)
    else s
  | _ => s

/-- A run reaches END (R107, R138): its outputs take effect in the next period, the modulator makes its edges, the twins' digest is sent (R396), and a
lead's publication becomes due (R173). -/
def State.runGood (s : State) (e : Nat) (o : Outputs) : State :=
  let s := s.modEng e fun g =>
    { g with out := o, stage := { o with edgeq := [] }, running := false, ended := true, finished := true, lastCycles := g.cycles, missEnd := 0, ppFault := false,
             overrun := false, ppCycles := g.cycles }
  match s.cellOf e with
  | none => s
  | some n =>
    let s := match s.leadOf n with
      | some m => if s.serving n = e then s.modRail m fun r => { r with leadEnded := true, endAt := s.time.st } else s
      | none => s
    let s := s.modulate e
    let s := if e < 1088 then s.digest e (outDigest o) (.outDigest (Fin.ofNat 1088 e) (outDigest o)) else s
    s.reliefCompare n

end Sys2Proof.Machine
end

