-- ==== Sys2Proof/Machine/Loops.lean ====
section
/-! DEFINITION. The stock programs (R134, R135, R160): the rail loops of the lead (R176, R190, R191, R194, R197 to R199, R201, R204, R599) and the followers' duty (R601). -/

namespace Sys2Proof.Machine

/-! ## Stock programs -/

/-- Bytes of a little-endian 32-bit word in a list of bytes, as a signed number. -/
def s32At (b : List Byte) (off : Nat) : Int := sleAt b off 4

/-- The duty of a stock follower (R601) from its 32-byte block: REF + SLOPE x PLEAT_PHASE / T, T that of the rail's page, plus the trim, which TRIM_LIMIT bounds, saturated. -/
def followerDuty (page block : List Byte) (period : Nat) (iMean : Int) : Word :=
  let p := cpPhase page
  let ref : Int := (leAt block (4 * p) 4 : Nat)
  let slope := s32At block (12 + 4 * p)
  let lim : Int := (leAt page 0x84 4 : Nat)
  let trim := clampI (-lim) lim (Config.shareTrim (cpProg page) (s32At page 0x80) lim (s32At block 24) iMean)
  BitVec.ofInt 32 (clampI 0 4294967295 (ref + roundDiv (slope * (cpPleat page : Nat)) period + trim))

/-- Append to a lead's staging copy of 0x0C0 to 0x0FF (R173): a word at a byte offset. -/
def stageWord (l : List (Nat × Byte)) (off : Nat) (w : Word) : List (Nat × Byte) :=
  ((toLe 4 w.toNat).zipIdx).foldl (fun l (b, i) => tabIns l (off + i) b) l

/-- Stage the words of a published block (R172): REF0 to REF2, SLOPE0 to SLOPE2, I_SHARE, MODE_REQ. -/
def stageBlock (ws : List Word) : List (Nat × Byte) := (ws.zipIdx).foldl (fun l (w, i) => stageWord l (0xC0 + 4 * i) w) []

/-- MODE_REQ that stops the cells: OFF, or LOW_ON where the lead's page names SAFE_SHORT_LOW (R191). -/
def stopMode (page : List Byte) : Word := if cpShortLow page then 2 else 1

/-- V_BAT in mV (R196): the sense lane's field mapped to battery voltage, else the mean of V_PH0. -/
def State.vBat (s : State) (m : Nat) : Int :=
  let p := (s.rail m).active
  if (rpSense p).isSome && rpMapV p == 3 then s.rmInt m 0x38 4
  else if (rpSense p).isSome && rpMapI p == 3 then s.rmInt m 0x3C 4
  else s.rmInt m 0x2C 4

/-- SETPOINT (R160). -/
def State.setpoint (s : State) (m : Nat) : Int := s.rmInt m 0x80 4

/-- The stock FEEDER loop (R599): the published block and the new error sum, which rail memory 0x100 holds (R135, log entry 24). The sum is held during a burst and does
not grow in the direction in which REF0 is saturated. -/
def State.feederLoop (s : State) (m : Nat) (page : List Byte) : List Word × Int :=
  let r := s.rail m
  let p := r.active
  let sp := s.rmInt m 0x80 4
  let vset : Int := if sp = 0 then 100 * (leAt p 0x100 2 : Nat) else sp
  let meas := match rpSense p with
    | some _ => s.rmInt m 0x38 4
    | none => s.rmInt m 0x2C 4
  let err := vset - meas
  let kp := s32At p 0x104
  let ki := s32At p 0x108
  let sum := s.rmInt m 0x100 8
  let den := 100 * cpFfVnom page
  let raw := fun (x : Int) => roundDiv ((vset * 65536 + kp * err + ki * x) * 65536) den
  let next := if r.burst then sum else sum + err
  let grows := ki * (next - sum)
  let sum' := if (4294967295 < raw next && 0 < grows) || (raw next < 0 && grows < 0) then sum else next
  let ref := BitVec.ofInt 32 (clampI 0 4294967295 (raw sum'))
  let cells := s.rmLe m 0x24 1
  let share := if cells = 0 then Config.loopWord m s.time.st.toNat 0 0 6 else BitVec.ofInt 32 (roundDiv (s.rmInt m 0x18 4) cells)
  ([ref, 0, 0, 0, 0, 0, share, if r.light then 0 else 0x10], sum')

/-- The most that power may move in one lead period (R176, R194, R201, R204): RAMP per ms. -/
def Rail.rampStep (r : Rail) : Int := (rpRamp r.active * r.tAct / 16000000 : Nat)

/-- Move from one value towards another by at most a step. -/
def towards (step cur want : Int) : Int := if cur < want then min want (cur + step) else max want (cur - step)

/-- Current in mA that carries a power in W at a voltage in mV; at a voltage that is not above 0 the spec gives none, and it is free. -/
def currentOf (p v : Int) : Int := if v ≤ 0 then Config.openQuot (p * 1000000) v else roundDiv (p * 1000000) v.toNat

/-- One step of a PI loop with gains in Q16.16 whose integrator holds the sum of gain times error: the output and the new integrator. -/
def piStep (kp ki acc e : Int) : Int × Int := (roundDiv (kp * e + (acc + ki * e)) 65536, acc + ki * e)

/-- The bus former under droop (R194, R201): the bus voltage it aims at is VBUS_NOM less DROOP times the power delivered beyond its dispatched one, and the voltage loop turns the error into a delivered current. With DROOP 0 it
is isochronous. The power reference moves by at most RAMP per ms inside the grant words (R176): reference and integrator. The integrator lies in rail memory 0x100 and the power reference in force at 0x110
(R135, log entry 24); that the voltage loop's gains make mA of mV is the model's choice (log entry 7). -/
def State.formBus (s : State) (m : Nat) (dispatch : Int) : Int × Int :=
  let r := s.rail m
  let p := r.active
  let nom : Int := (rpVbusNom p : Nat)
  let bus := s.rmInt m 0x28 4
  let share := -r.pMeas - dispatch
  let aim := nom - roundDiv ((leAt p 0x2C 2 : Int) * share) 1000
  let kv : Nat := if rpKind p = 0 then 0x10C else 0x110
  let (cur, acc) := piStep (s32At p kv) (s32At p (kv + 4)) (s.rmInt m 0x100 8) (aim - bus)
  let want := roundDiv (-(cur * bus)) 1000000
  (clampI r.grantLo r.grantHi (towards r.rampStep (s.rmInt m 0x110 8) want), acc)

/-- The charge current limit in mA (R197, R198): I_CHG_MAX and SETPOINT / V_BAT, the grant's power (R176), and while V_BUS is below BUS_VREG less KVREG per volt, never below 0. -/
def State.chargeLimit (s : State) (m : Nat) : Int :=
  let r := s.rail m
  let p := r.active
  let vb := s.vBat m
  let lim := min (min (1000 * (leAt p 0x100 2 : Int)) (currentOf (s.setpoint m) vb)) (max 0 (currentOf r.grantHi vb))
  let short := 100 * (leAt p 0x10A 2 : Int) - s.rmInt m 0x28 4
  if 0 < short then max 0 (lim - roundDiv (100 * (leAt p 0x10C 2 : Int) * short) 1000) else lim

/-- The battery current reference of a STORE in mA, positive when charging, with the voltage loop's integrator and the power reference it leaves (R197 to R199, R201, R204). -/
def State.storeRef (s : State) (m : Nat) : Int × Int × Int :=
  let r := s.rail m
  let p := r.active
  let vb := s.vBat m
  let acc := s.rmInt m 0x100 8
  let keep := fun (i : Int) => (i, acc, roundDiv (i * vb) 1000000)
  match r.sub with
  | 1 => keep (s.chargeLimit m)
  | 2 =>
    let (i, acc) := piStep (s32At p 0x110) (s32At p 0x114) acc (100 * (leAt p 0x102 2 : Nat) - vb)
    let i := clampI 0 (s.chargeLimit m) i
    (i, acc, roundDiv (i * vb) 1000000)
  | 4 => keep (-(min (min (1000 * (leAt p 0x106 2 : Int)) (currentOf (-(s.setpoint m)) vb)) (max 0 (currentOf (-r.grantLo) vb))))
  | 5 =>
    let (w, acc) := s.formBus m 0
    (currentOf w vb, acc, w)
  | 6 =>
    let w := clampI r.grantLo r.grantHi (towards r.rampStep (s.rmInt m 0x110 8) (s.setpoint m))
    (currentOf w vb, acc, w)
  | _ => (0, acc, 0)

/-- The power reference of a SOURCE in W with its integrator (R194): zero while SYNCING, the droop share from ONLINE on, about its dispatch. -/
def State.sourceRef (s : State) (m : Nat) : Int × Int :=
  if (s.rail m).sub = 4 then s.formBus m (-(s.setpoint m)) else (0, 0)

/-- The q current reference of a DRIVE in mA with the speed loop's integrator (R160, R190, R191): SETPOINT / KT, or a PI loop on the speed; limited to I_MAX and scaled down so that power leaves neither grant word; zero
while an angle fault holds. With KT 0 SETPOINT / KT is free. The integrator lies in rail memory 0x108 and the last reference at 0x118 (log entry 24). -/
def State.driveRef (s : State) (m : Nat) : Int × Int :=
  let r := s.rail m
  let p := r.active
  let acc := s.rmInt m 0x108 8
  if r.angleZero then (0, 0)
  else
    let kt := leAt p 0x11C 4
    let (i, acc) := if byteAt p 0x101 = 0 then (if kt = 0 then Config.openQuot (1000 * s.setpoint m) 0 else roundDiv (1000 * s.setpoint m) kt, acc)
      else piStep (s32At p 0x110) (s32At p 0x114) acc (s.setpoint m - s.rmInt m 0x44 4)
    let most : Int := 1000 * (leAt p 0x118 2 : Nat)
    let last : Int := ((s.rmInt m 0x118 4).natAbs : Nat)
    let cap : Int :=
      if r.grantHi < r.pMeas then (if 0 < r.pMeas then roundDiv (last * max 0 r.grantHi) r.pMeas.toNat else 0)
      else if r.pMeas < r.grantLo then (if r.pMeas < 0 then roundDiv (last * max 0 (-r.grantLo)) (-r.pMeas).toNat else 0)
      else most
    (clampI (-(min most cap)) (min most cap) i, acc)

/-- The published block of the stock loops of SOURCE, DRIVE and STORE from their reference: free words in the block's shape (Config.loopWord); MODE_REQ OFF for a SOURCE
that is not SYNCING or ONLINE (R195), a DRIVE with zero torque (R191) and a STORE that carries no current (R196). -/
def State.otherLoop (s : State) (m : Nat) (page : List Byte) (ref : Int) : List Word :=
  let r := s.rail m
  let w := Config.loopWord m s.time.st.toNat ref (s.rmInt m 0x18 4)
  let store := r.isKind 3
  let quiet := (r.isKind 0 && !(r.sub == 3 || r.sub == 4)) || (store && (r.sub == 0 || r.sub == 3 || r.sub == 7))
  let mode : Word := if r.isKind 2 && r.angleZero then stopMode page else if quiet then 1 else 0x10
  [w 0, if store then 0 else w 1, if store then 0 else w 2, if store then 0 else w 3, if store then 0 else w 4, if store then 0 else w 5, w 6, mode]

/-- Stage the words a lead has worked out. -/
def State.stageRef (s : State) (m : Nat) (ws : List Word) : State := s.modRail m fun r => { r with pubStage := stageBlock ws }

/-- The lead's part of a stock run (R24, R134): the rail loop, staged for publication, with what it keeps in rail memory (R135). -/
def State.stockLead (s : State) (m : Nat) (page : List Byte) : State :=
  match rpKind (s.rail m).active with
  | 0 =>
    let (w, acc) := s.sourceRef m
    let ws := s.otherLoop m page w
    ((s.rmPutI m 0x100 8 acc).rmPutI m 0x110 8 w).stageRef m ws
  | 1 =>
    let (ws, sum) := s.feederLoop m page
    (s.rmPutI m 0x100 8 sum).stageRef m ws
  | 2 =>
    let (i, acc) := s.driveRef m
    let ws := s.otherLoop m page i
    ((s.rmPutI m 0x108 8 acc).rmPutI m 0x118 4 i).stageRef m ws
  | _ =>
    let (i, acc, w) := s.storeRef m
    let ws := s.otherLoop m page i
    (((s.rmPutI m 0x100 8 acc).rmPutI m 0x110 8 w).rmPutI m 0x118 4 i).stageRef m ws

/-- A stock run is carried out whole and ENDs (R134, R601); a MODE_REQ with a reserved mode is a program fault of the follower that writes it (R142). VM_BIDIR suppresses diode
emulation; in a drive without its angle each cell takes the safe mode of its own page (R191). -/
def State.stockRun (s : State) (e n : Nat) : State :=
  let page := (s.cell n).active
  let g := s.eng e
  let s := match s.leadOf n with
    | some m => s.stockLead m page
    | none => s
  let m := cpRail page
  let ref := cpRefWord page
  let block := ((if ref < 0x100 then g.pub.drop (ref - 0xC0) else []) ++ memRead 0 s.railMem (4096 * m + max ref 0x100) 32).take 32
  let mode := BitVec.ofNat 32 (leAt block 28 4)
  if 3 < fld mode 3 0 then s.runBad e true
  else
    let mode := if cpProg page = 1 then mode ||| 0x10 else mode
    let stopped := (s.rail m).isKind 2 && (s.rail m).angleZero && (fld mode 3 0 == 1 || fld mode 3 0 == 2)
    let mode := if stopped then stopMode page else mode
    let duty := followerDuty page block (rpPeriod (s.rail m).active) (tabGet (fun _ => 0) g.inputs 0).toInt
    s.runGood e { g.out with duty := duty, mode := mode, rangeReq := 0, edgeq := [] }

end Sys2Proof.Machine
end

