-- ==== Sys2Proof/Machine/Period.lean ====
section
/-! DEFINITION. A cell's period (R105 to R109): accumulation and the period summary (R110, R112, R137, R147), the guard's end of period (R120), range requests (R133), the
start of the program, health records (R148, R149), stalls and relief (R151 to R158), and the guard sets (R113 to R116). -/

namespace Sys2Proof.Machine

/-- A closed selvedge encloses the engine of lane n: its own, or its drawer's (R483, R485). -/
def State.enclosed (s : State) (n : Nat) : Bool :=
  s.pwr.selv.any fun v => v.closed && ((v.kind == 0 && v.index == n) || (v.kind == 1 && v.index == n / 16))

/-- The engine that serves cell n lies inside a closed selvedge: nothing of the cell leaves this device (R483, R485). A relief engine outside its drawer's selvedge carries the cell
unchanged. -/
def State.cellStopped (s : State) (n : Nat) : Bool :=
  s.pwr.selv.any fun v => v.closed && ((v.kind == 0 && v.index == n && s.serving n == n) || (v.kind == 1 && v.index == n / 16))

/-- Engine e of cell n lies inside a closed selvedge. -/
def State.engStopped (s : State) (n e : Nat) : Bool :=
  s.pwr.selv.any fun v => v.closed && ((v.kind == 0 && v.index == n && e == n) || (v.kind == 1 && v.index == n / 16))

/-! ## The period summary -/

/-- Floor of the square root, from bit k down. -/
def isqrtFrom : Nat → Nat → Nat → Nat
  | 0, r, v => if (r + 1) * (r + 1) ≤ v then r + 1 else r
  | k + 1, r, v => if (r + 2 ^ (k + 1)) * (r + 2 ^ (k + 1)) ≤ v then isqrtFrom k (r + 2 ^ (k + 1)) v else isqrtFrom k r v

/-- Floor of the square root of a number below 2^80. -/
def isqrt (v : Nat) : Nat := isqrtFrom 39 0 v

/-- The RMS of n squares (log entry 7: rounding). -/
def rmsOf (sumSq : Int) (n : Nat) : Nat :=
  let r := isqrt (sumSq.toNat / n)
  if (r * r * n : Nat) = sumSq.toNat then r else if Config.roundUp sumSq n then r + 1 else r

/-- CELL_STAT [7:0] (R137, ENGINE.CELL_STAT). -/
def State.cellFlags (s : State) (n : Nat) : Nat :=
  let l := s.lane n
  let e := s.eng (s.serving n)
  128 * b2n (s.serving n != n) + 64 * b2n l.latched + 32 * b2n e.ppFault + 16 * b2n e.overrun + l.hitsLast.toNat

/-- The words 0x100 to 0x134 of the period that has ended (R137), and the new bus estimate (R112). A mean over no sample is a free value (log entry 4). -/
def State.closeWords (s : State) (n e : Nat) (b : DWord) : List Word × Option Word × State :=
  let g := s.eng e
  let a := g.acc
  let page := (s.cell n).active
  let bus := if a.nBus = 0 then g.busEst else some (wordI (roundDiv a.sumBus a.nBus))
  let vbus := bus.getD (wordN (100 * cpFfVnom page))
  let (iMean, iRms, iPeak, vMean, s) :=
    if a.n = 0 then
      let (w0, s) := s.freshWord
      let (w1, s) := s.freshWord
      let (w2, s) := s.freshWord
      let (w3, s) := s.freshWord
      (w0, w1, w2, w3, s)
    else (wordI (roundDiv a.sumI a.n), wordN (rmsOf a.sumSqI a.n), wordI a.peakI, wordI (roundDiv a.sumV a.n), s)
  let status := wordN (s.cellFlags n * 4096 + (s.lane n).status.toNat)
  let temp : Word := match (s.lane n).aux.find? (fun x => x.1 == 0) with
    | some (_, v) => v.signExtend 32
    | none => 0
  ([iMean, iRms, iPeak, vbus, vMean, wordN a.tOn, wordN g.dtHL, wordN g.dtLH, status, wordN (s.periodOf n), b.setWidth 32, g.pindex, temp,
    wordN g.lastCycles], bus, s)

/-- Write the cell's 80 bytes of drawer memory (R147): the summary with USER0 and USER1 in its last two words (R138, log entry 25), then the last applied
DUTY, MODE, RANGE_REQ and HB_COUNT. -/
def State.putSlot (s : State) (n : Nat) (ws : List Word) (o : Outputs) : State :=
  let all := ws ++ [o.user0, o.user1, o.duty, o.mode, o.rangeReq, (s.lane n).hbCount.setWidth 32]
  let bytes := all.flatMap fun w => toLe 4 w.toNat
  { s with drawerMem := memWrite 0 s.drawerMem (4096 * (n / 16) + 128 * (n % 16)) bytes }

/-- Close the summary of an engine that works for cell n; the serving engine's goes into the cell's slot (R106). -/
def State.closeEng (s : State) (n e : Nat) (b : DWord) : State :=
  let s := s.modEng e fun g => { g with pindex := g.pindex + 1, eLast := g.acc.energy }
  let (ws, bus, s) := s.closeWords n e b
  let s := s.modEng e fun g =>
    { g with inputs := (ws.zipIdx).foldl (fun t (w, i) => tabSet (fun _ => 0) t i w) [], busEst := bus, acc := {},
             dtHLb := g.dtHL, dtLHb := g.dtLH }
  if s.serving n = e then s.putSlot n ws (s.eng e).out else s

/-! ## The guard's end of period (R117, R119, R120) -/

/-- The guard latches (R120): both switches off, every turn-on held back, GUARD_LATCHED, its event, hardware source 16 and
its SAFETY bit. -/
def State.guardLatch (s : State) (n : Nat) : State :=
  let s := s.guardEdge n 3
  let s := s.modLane n fun l => { l with latched := true }
  let s := s.modEng n fun e => if e.st == .relieved || e.st == .stalled then e else { e with st := .guardLatched }
  ((s.event 0x03 n [BitVec.ofNat 8 (s.gsetOf n)]).safety 3).source 16 n

/-- The guard's bookkeeping at a period boundary: an intervention period counts towards the latch, a turn-on still held for an instant before the boundary
is discarded, and the holds of the period end. The guard's bits and PP_LATE of the period that ends go into its summary (R38, R118, R122, R125); the summary's layout (R137) has no place for PP_LATE, so it is kept
beside it (log entry 50). -/
def State.guardPeriod (s : State) (n : Nat) (b : Nat) : State :=
  let l := s.lane n
  let k := if l.interv then l.intervN + 1 else 0
  let dropped := fun (d : DnCmd) => match d with
    | .edge _ level at_ _ => level && decide (at_.toNat < b)
    | _ => false
  let s := s.setLane n
    { l with intervN := k, interv := false, hitsLast := l.hits, hits := 0, holdHi := false, holdLo := false, useGuardHi := false, useGuardLo := false,
             ppLate := false, ppLateLast := l.ppLate, dnq := l.dnq.filter fun d => !dropped d }
  let s := if l.interv then s.modCell n fun c => { c with health := { c.health with guard := satInc 0xFFFF c.health.guard } } else s
  if !l.latched && decide ((s.guardFor n).latchN ≤ k) then s.guardLatch n else s

/-! ## Range requests (R133, R134) -/

/-- RANGE_SET for the next boundary at `next`: on the program's request, or FINE after FINE_HOLD quiet periods; suspended in a burst (R185). -/
def State.rangePolicy (s : State) (n e next : Nat) (peak : Int) : State :=
  let g := s.eng e
  let l := s.lane n
  let page := (s.cell n).active
  let quiet := decide (peak.natAbs < cpFineReturn page)
  let k := if quiet then g.fineHold + 1 else 0
  let s := s.modEng e fun g => { g with fineHold := k }
  if l.burst then s
  else match g.out.rangeReq.toNat with
    | 0 => if l.coarse && decide (cpFineHold page ≤ k) && quiet then s.dn n (.rangeSet false (BitVec.ofNat 64 next)) else s
    | 1 => if l.coarse then s.dn n (.rangeSet false (BitVec.ofNat 64 next)) else s
    | 2 => if l.coarse then s else s.dn n (.rangeSet true (BitVec.ofNat 64 next))
    | _ => s

/-! ## The start of a run -/

/-- The engine may run its program now: it serves the cell or both engines run in a takeover (R152), with a program and page, not stalled, relieved or enclosed. -/
def State.mayRun (s : State) (n e : Nat) : Bool :=
  let g := s.eng e
  let both := match (s.cell n).relief with | .starting _ _ step _ => decide (4 ≤ step) | _ => false
  let c := s.cell n
  (s.serving n == e || both) && c.active != [] && (cpProg c.active != 0xFF || g.image != [])
    && (if e < 1024 then g.st == .run || g.st == .guardLatched || (both && g.st == .relieved) else g.st != .stalled)
    && !s.engStopped n e

/-- Start the run of engine e at boundary b (R106): instruction 0, staged outputs as after the previous END, the publication in force for
its rail (R174), PINDEX counted from the page in force (R137). The outputs of the last END are in force from b on (R107, R138), run or not. DESIGN CHOICE (log entry 50): EDGEQ is empty at the start of a run, so a run that
pushes nothing has no edges, whatever the run before pushed (R138). -/
def State.startRun (s : State) (n e : Nat) (b : DWord) : State :=
  let pub := memRead 0 s.railMem (4096 * cpRail (s.cell n).active + 0xC0) 64
  s.modEng e fun g =>
    if s.mayRun n e then
      { g with bound := b, outNow := g.out, running := true, pc := 0, cycles := 0, ended := false, finished := false, stage := { g.out with edgeq := [] }, pub := pub,
               inputs := tabSet (fun _ => 0) g.inputs 11 g.pindex }
    else { g with bound := b, outNow := g.out, running := false, ended := false }

/-- The step of a relief sequence at a boundary (R152): from 1 to 2 the source's run begins, from 3 to 4 both engines run, and 5 is the takeover boundary T, the second after the copy. -/
def reliefStep : Relief → Relief
  | .starting o back step mis => .starting o back (if step = 1 then 2 else if step = 3 then 4 else if step = 4 then 5 else step) mis
  | r => r

/-- The engine that serves and the one that takes over in a relief sequence (R152, R156). -/
def reliefPair (n : Nat) (back : Bool) : Nat × Nat := if back then (1024 + n / 16, n) else (n, 1024 + n / 16)

/-- The engine whose RANGE_SET for the next boundary goes out (R153): from T on that of the engine that takes over. -/
def State.rangeEngine (s : State) (n : Nat) : Nat :=
  match (s.cell n).relief with
  | .starting _ back step _ => if 4 ≤ step then (reliefPair n back).2 else s.serving n
  | _ => s.serving n

/-- What happens at a boundary b of cell n, in order (R106): the run still in progress ends as an overrun, the guard's period ends, the summaries close with its bits, a pending swap takes effect, and unless the
lane is a sense lane (R179) the range policy and the programs run. -/
def State.cellBoundary (s : State) (n : Nat) (b : DWord) : State :=
  let sense := (s.senseOf n).isSome
  let s := (s.enginesOf n).foldl (fun s e => if (s.eng e).running then s.runBad e false else s) s
  let s := s.guardPeriod n b.toNat
  let peak := fun (e : Nat) => (s.eng e).acc.peakI
  let s := (s.enginesOf n).foldl (fun s e => s.closeEng n e b) s
  let s := if (s.cell n).swapOp.isSome then s.swapCellNow n else s
  if sense then s.modEng n fun g => { g with bound := b }
  else
    let s := s.modCell n fun c => { c with relief := reliefStep c.relief }
    let e := s.rangeEngine n
    let s := s.rangePolicy n e (s.cellNext n b.toNat) (peak e)
    let s := s.modLane n fun l => if l.burst && (l.burstTill.any fun t => t.toNat ≤ b.toNat) then { l with burst := false, burstTill := none } else l
    (s.enginesOf n).foldl (fun s e => s.startRun n e b) s

/-- A boundary of cell n has come since the last one carried out: its instant (R105). A cell has boundaries while its lane is in RUN and its rail has an active page (R33). DESIGN CHOICE (log entry 50): a cell without an
active page has none, also where its rail's CELLS name it, and takes its first page at once. -/
def State.cellDue (s : State) (n : Nat) : Option DWord :=
  let c := s.cellEdge n s.time.st.toNat
  if (s.lane n).st == .run && decide (s.periodOf n ≠ 0) && newer (s.eng (s.serving n)).bound.toNat c then some (BitVec.ofNat 64 c) else none

/-- An uncorrectable error of the guard-set storage of cell n (R116, R555): its set is bad from now on, its engine goes to OFF, and the lane goes back to READY, whose ROLE is IDLE, so that no edge leaves and the cell follows its
other port. -/
def State.guardLost (s : State) (n : Nat) : State :=
  let s := { s with guardUe := insertN s.guardUe n }.eccUe 4 n
  let s := if (s.lane n).st == .run then s.laneTo n .ready else s
  s.modEng n fun g => { g with st := .off }

/-- CELL_PERIOD_BOUNDARY (R105, R106, R555): the latest boundary of the cell, when it has come and has not been carried out. `f`: what the ECC of the guard-set storage reports as the guard reads its limits. -/
def execCellPeriodBoundary (n : Fin 1024) (f : Ecc) (s : State) : Host.Outcome State Fault Refusal :=
  .next <| match s.cellDue n with
    | some b => if f = .uncorrectable then s.guardLost n else (s.fetched f).cellBoundary n b
    | none => s

/-- The high side of cell n has been commanded on for DUTY_MAX x T and no off-edge has been sent (R117). -/
def State.dutyOver (s : State) (n : Nat) : Bool :=
  let l := s.lane n
  let t := s.time.st.toNat
  match l.highSince t with
  | some a => (l.firstOff true t).isNone && decide (a + (s.guardFor n).dutyMax * s.periodOf n / 65536 ≤ t)
  | none => false

/-- GUARD_DUTY_LIMIT (R117): the guard sends an off-edge of the high side at the limit. -/
def execGuardDutyLimit (n : Fin 1024) (s : State) : Host.Outcome State Fault Refusal :=
  .next (if (s.lane n).st == .run && s.dutyOver n then s.guardAct n 1 0 else s)

/-! ## Health records (R148, R149) -/

/-- The on-state resistance of one switch in 10 uOhm: the least-squares slope of conduction voltage against current over the interval's fine-range samples (R148; that the slope is the least-squares one is the model's choice, log
entry 7). Samples of one current alone have no slope, and it is free. -/
def SideEst.rds (e : SideEst) : Int :=
  let den := e.n * e.ii - e.i * e.i
  let num := 100000 * (e.n * e.iv - e.i * e.v)
  if den ≤ 0 then Config.openQuot num den else roundDiv num den.toNat

/-- The turn-off energy of one switch, normalised to 100 A, in 10 uJ: the mean over the interval's turn-offs (R148); over none it is free. -/
def SideEst.eoff (e : SideEst) : Int := if e.nOff = 0 then Config.openQuot e.eOff 0 else roundDiv e.eOff (e.nOff * 10000000000)

/-- A value as an unsigned 16-bit field, saturated. -/
def u16Of (v : Int) : Nat := (clampI 0 65535 v).toNat

/-- A value as a signed 16-bit field, saturated. -/
def i16Of (v : Int) : Nat := toTwos 16 (clampI (-32768) 32767 v)

/-- The 32 bytes of a health record (R148, R149): drift and trend against the first valid interval. A valid bit stands for both switches, so it asks for 1,000 samples or transitions of each. -/
def healthRec (n : Nat) (st : DWord) (h : Health) (x : HealthEst) (throttled : Bool) (temp : BitVec 16) : List Byte :=
  let valid := fun (k : Nat) => !throttled && decide (1000 ≤ k)
  let flags := b2n (valid (min h.hi.n h.lo.n)) + 2 * b2n (valid (min h.hi.nOn h.lo.nOn)) + 4 * b2n (valid (min h.hi.nOff h.lo.nOff)) + 8 * b2n (valid x.nZth) + 16 * b2n throttled
    + 32 * b2n h.relief
  let trend := match h.zth with
    | some z => if z = 0 then Config.openQuot x.zth 0 else roundDiv (10000 * ((x.zth : Int) - z)) z
    | none => 0
  toLe 2 n ++ [1, BitVec.ofNat 8 flags] ++ toLe 8 st.toNat ++ toLe 2 (u16Of h.hi.rds) ++ toLe 2 (u16Of h.lo.rds) ++ toLe 2 (i16Of (x.vthHs - h.vthHi.getD x.vthHs))
    ++ toLe 2 (i16Of (x.vthLs - h.vthLo.getD x.vthLs)) ++ toLe 2 (u16Of h.hi.eoff) ++ toLe 2 (u16Of h.lo.eoff) ++ toLe 2 (i16Of trend) ++ toLe 2 temp.toNat ++ toLe 2 h.guard ++ toLe 2 h.dt

/-- The health state after a record: a new interval begins, with the baselines of the first interval in which an estimate was valid. -/
def Health.next (h : Health) (st : DWord) (x : HealthEst) (throttled relief : Bool) : Health :=
  let vth := !throttled && decide (1000 ≤ min h.hi.nOn h.lo.nOn)
  let zth := !throttled && decide (1000 ≤ x.nZth)
  { since := st, relief := relief, vthHi := if h.vthHi.isNone && vth then some x.vthHs else h.vthHi, vthLo := if h.vthLo.isNone && vth then some x.vthLs else h.vthLo,
    zth := if h.zth.isNone && zth then some x.zth else h.zth }

/-- HEALTH_INTERVAL in ST units; 0 means 1,000 ms (R144). -/
def cpHealthUnits (page : List Byte) : Nat := 16000000 * (if leAt page 0x38 2 = 0 then 1000 else leAt page 0x38 2)

/-- HEALTH_RECORD_CLOSE (R148, R149, R353): with HEALTH_EN, HEALTH_INTERVAL after the interval began, its record closes and goes out as a pair of HEALTH records. TEMP_MAX of an interval without a TEMP value is free (log entry
4). -/
def execHealthRecordClose (n : Fin 1024) (x : HealthEst) (s : State) : Host.Outcome State Fault Refusal :=
  let page := (s.cell n).active
  let h := (s.cell n).health
  .next <|
    if page = [] || !cpFlag page 3 || s.cellStopped n || decide ((s.time.st - h.since).toNat < cpHealthUnits page) then s
    else
      let (temp, s) : BitVec 16 × State := match h.temp with
        | some t => (t, s)
        | none => let (w, s) := s.freshWord; (w.setWidth 16, s)
      let r := healthRec n s.time.st h x s.analyticsOff temp
      let s := s.modCell n fun c => { c with health := h.next s.time.st x s.analyticsOff (s.serving n != n) }
      s.eventLossy [eqRec 0x02 0 n s.time.st (r.take 16), eqRec 0x02 2 n s.time.st (r.drop 16)]

/-! ## Stalls and relief -/

/-- ENGINE_STALL (R157, R103): the drawer declares the engine that serves the cell STALLED, when it has sent no HEARTBEAT for 8 us or has missed END in two consecutive periods, and halts its sequencer; pipeline and guard
go on. -/
def execEngineStall (n : Fin 1024) (s : State) : Host.Outcome State Fault Refusal :=
  let e := s.serving n
  let due := decide (2 ≤ (s.eng e).missEnd) || decide (128000 ≤ (s.time.st - (s.lane n).hbAt).toNat)
  .next (if (s.lane n).st == .run && !((s.eng e).st == .stalled) && due then s.stall e else s)

/-- COLD_TAKEOVER (R158, R598): with AUTO_RELIEF and RE k free, at the first boundary at least 2 us after the stall RE k takes the stalled cell with cleared registers and local data, the cell's image, and the last applied
DUTY, MODE and RANGE_REQ of its drawer-memory slot as initial outputs. Its first run starts at that boundary, at once when the boundary has been carried out already. -/
def execColdTakeover (n : Fin 1024) (s : State) : Host.Outcome State Fault Refusal :=
  let k := 1024 + n.val / 16
  let page := (s.cell n).active
  let slot := 4096 * (n.val / 16) + 128 * (n.val % 16)
  let c := s.cellEdge n s.time.st.toNat
  .next <|
    if (s.eng n).st == .stalled && cpFlag page 4 && (s.eng k).carries.isNone && (s.cell n).relief == .own && !s.enclosed n
        && decide ((s.eng n).stallAt.toNat + 32000 ≤ c) then
      let w := fun i => BitVec.ofNat 32 (memLe s.drawerMem (slot + 64 + 4 * i) 4)
      let o : Outputs := { duty := w 0, mode := w 1, rangeReq := w 2 }
      let s := s.setEng k { st := .run, carries := some n.val, image := (s.eng n).image, out := o, outNow := o, stage := o, dtHL := cpDtInit page, dtLH := cpDtInit page,
                            dtHLb := cpDtInit page, dtLHb := cpDtInit page, bound := (s.eng n).bound }
      let s := s.modCell n fun c => { c with relief := .cold, health := { c.health with relief := true } }
      if (s.eng n).bound.toNat = c then s.startRun n k (BitVec.ofNat 64 c) else s
    else s

/-- RELIEF_STATE_COPY (R152): at the end of the serving engine's first run after the fan-out, however it ended, its registers and local data are copied. -/
def execReliefStateCopy (k : Fin 64) (s : State) : Host.Outcome State Fault Refusal :=
  .next <| match (s.eng (1024 + k.val)).carries with
    | none => s
    | some n =>
      match (s.cell n).relief with
      | .starting o back 2 mis =>
        let (src, dst) := reliefPair n back
        let g := s.eng src
        if g.finished && !g.running then
          let s := s.modEng dst fun d => { d with regs := g.regs, loc := g.loc, lowJoined := g.lowJoined }
          s.modCell n fun c => { c with relief := .starting o back 3 mis }
        else s
      | _ => s

/-- TAKEOVER_BOUNDARY (R152 to R154, R156): at T, the second boundary after the copy, the merger switches to the engine that takes over, which is the operation's commit point. After a RELIEVE the
cell engine is RELIEVED inside its selvedge; after a HANDBACK the relief engine is free. RESULT is RELIEF_MISMATCH for a RELIEVE and 0 for a HANDBACK (R333). -/
def execTakeoverBoundary (k : Fin 64) (s : State) : Host.Outcome State Fault Refusal :=
  let re := 1024 + k.val
  .next <| match (s.eng re).carries with
    | none => s
    | some n =>
      match (s.cell n).relief with
      | .starting o back step mis =>
       if !(step = 5 || (step = 4 && newer (s.eng (s.serving n)).bound.toNat (s.cellEdge n s.time.st.toNat))) then s
       else
        let s := s.modOp o fun p => { p with committed := true }
        let s :=
          if back then
            let s := s.modCell n fun c => { c with relief := .own }
            let s := s.setEng re {}
            let s := s.modEng n fun e => { e with st := .off }
            s.refreshEng n
          else
            let s := s.modCell n fun c => { c with relief := .relieved }
            let s := s.modEng n fun e => { e with st := .relieved, running := false }
            s.modEng re fun e => { e with st := .run }
        let s := s.modCell n fun c => { c with health := { c.health with relief := true } }
        s.completeTag o stOk 0 (if back then 0 else b2n mis)
      | _ => s

/-! ## Guard sets (R113 to R116) -/

/-- A lane of the device is in RUN. -/
def State.anyRun (s : State) : Bool := s.lanes.any fun e => e.2.st == .run

/-- GUARD_DATA_WRITE (R114 to R116, R518): before the seal (from its verification on the write is ignored), and while no lane is in RUN, the word that ENGINE.GUARD_WIN selects is written; otherwise the write is ignored
and sets WR_REJ. Every engine's state follows its set. -/
def execGuardDataWrite (v : Word) (s : State) : Host.Outcome State Fault Refusal :=
  let w := s.reg Reg.engineGuardWin
  let i := fld w 6 0 + 128 * b2n (wbit w 7)
  .next <| s.viaBar0 fun s =>
    if s.guardOtp || s.nvm.sealedNow || s.anyRun then { s with guardRej := true }
    else
      let mended := fun (n : Nat) => if i < 128 then s.gsetOf n == i / 8 else n / 8 == i - 128
      let s := { s with guardSram := tabSet (fun _ => 0) s.guardSram i v, guardUe := s.guardUe.filter fun n => !mended n }
      let s := s.lanes.foldl (fun s (n, _) => s.refreshEng n) s
      if roleOf s.twin = 0 then s else s.lanesToRun

end Sys2Proof.Machine
end

