-- ==== Sys2Proof/Machine/Samples.lean ====
section
/-! DEFINITION. What an upstream superframe carries (R48 to R52): its sample pairs with their ranges (R78), calibrated (R110), its trailer, and the timing of its transitions (R110). -/

namespace Sys2Proof.Machine

/-- A 12-bit sample; -2048 counts as -2047 (R49). -/
def code12 (v : Nat) : Int :=
  let c := asSigned 12 v
  if c = -2048 then -2047 else c

/-- The 1,536-bit string of blocks 0 to 23 (R48). -/
def payloadOf (w : List DWord) : Nat := (w.take 24).foldl (fun a x => a * 2 ^ 64 + x.toNat) 0

/-- Current and voltage codes of sample pair k (R48). -/
def rawPair (p k : Nat) : Int × Int :=
  let x := bitsOf p (1535 - 24 * k) (1512 - 24 * k)
  (code12 (x / 4096), code12 (x % 4096))

/-- The upstream trailer (R50). -/
structure Trailer where
  type : Nat
  seq : Nat
  range : Nat
  idx : Nat
  status : BitVec 12
  auxSel : Nat
  auxByte : Byte
  crc : Nat
deriving DecidableEq, Repr

/-- Read the trailer, block 24. -/
def trailerOf (w : List DWord) : Trailer :=
  let t := (w.getD 24 0).toNat
  { type := bitsOf t 63 56, seq := bitsOf t 55 48, range := bitsOf t 47 46, idx := bitsOf t 45 40, status := BitVec.ofNat 12 (bitsOf t 39 28),
    auxSel := bitsOf t 27 24, auxByte := BitVec.ofNat 8 (bitsOf t 23 16), crc := bitsOf t 15 0 }

/-- The CRC of blocks 0 to 23 and trailer bits [63:16] (R46). -/
def superframeCrc (w : List DWord) : Nat := crcWords (w.take 24) ((w.getD 24 0).toNat / 65536) 48

/-- A calibrated sample pair: mA, mV, its range, and whether the current is clipped (R49). -/
structure Pair where
  i : Int
  v : Int
  coarse : Bool
  clip : Bool
deriving DecidableEq, Repr

/-- The calibration of a page, neutral where the cell has none: gain and offset of current and of voltage (R144). -/
def calOf (page : List Byte) : Nat × Int × Nat × Int :=
  if page = [] then (0x8000, 0, 0x8000, 0) else (leAt page 0x30 2, sleAt page 0x32 2, leAt page 0x34 2, sleAt page 0x36 2)

/-- Full scale of a lane's current range in mA, and of its voltage in mV (R55, AUX 0x7 to 0x9). -/
def Lane.fs (l : Lane) (coarse : Bool) : Nat := if coarse then 1000 * (l.auxOf 8).getD 0 else 100 * (l.auxOf 7).getD 0

/-- Full scale of a lane's voltage in mV. -/
def Lane.vfs (l : Lane) : Nat := 1000 * (l.auxOf 9).getD 0

/-- The range of sample k (R52, R78): reserved codes and changes behind a failed superframe concern the whole superframe. -/
def rangeAt (l : Lane) (t : Trailer) (k : Nat) : Bool :=
  if 2 ≤ t.range then true
  else
    let now := t.range == 1
    if now == l.coarse || !l.lastGood then now else if k < t.idx then l.coarse else now

/-- A calibrated code in the unit of a full scale (R49, R110): the code 2,047 stands for the full scale, and the scale is straight (log entry 7). -/
def scaleCode (fs : Nat) (code : Int) : Int := roundDiv (code * fs) 2047

/-- The 64 calibrated pairs of a superframe of lane n (R110). -/
def State.pairsOf (s : State) (n : Nat) (w : List DWord) : List Pair :=
  let l := s.lane n
  let t := trailerOf w
  let p := payloadOf w
  let (gi, oi, gv, ov) := calOf (s.cell n).active
  (List.range 64).map fun k =>
    let (ci, cv) := rawPair p k
    let c := rangeAt l t k
    { i := scaleCode (l.fs c) (calibrate gi oi ci), v := scaleCode l.vfs (calibrate gv ov cv), coarse := c, clip := decide (ci.natAbs = 2047) }

/-- The ST of the strobe of the superframe whose SEQ echo is given and which has arrived by now (R51, R56): the latest grid instant with that SEQ. -/
def strobeOf (now : DWord) (seq : Nat) : Nat :=
  let k := now.toNat / 1024
  (k - (k + 256 - seq % 256) % 256) * 1024

/-! ## Transition timing (R110) -/

/-- The last bus estimate that the pipeline of cell n works with, in mV (R110, R112): FF_VNOM until there is one. -/
def State.busOf (s : State) (n : Nat) : Int :=
  match (s.eng (s.serving n)).busEst with
  | some v => v.toInt
  | none => if (s.cell n).active = [] then 0 else (100 * cpFfVnom (s.cell n).active : Nat)

/-- The instant at which a straight line between two samples 16 ST units apart, from a to b, crosses a level c, all in one unit, a below c and c not above b. -/
def crossAt (t0 : Nat) (a b c : Int) : Nat := t0 + (roundDiv (16 * (c - a)) (b - a).natAbs).toNat

/-- A transition is looked at from the level the node settled at: the voltage on the way from there. -/
def Trans.way (x : Trans) (bus v : Int) : Int := if x.up then bus - v else v

/-- One sample pair into transition timing: crossings of 10 % and 90 % of the bus estimate by linear interpolation. A gap in the samples loses a transition under way. di/dt is the largest change of current from one sample to the next
(log entry 7). -/
def transStep (bus : Int) (x : Trans) (p : Pair) (t : Nat) : Trans × Option Transit :=
  let y : Trans := { x with v := p.v, i := p.i, at_ := BitVec.ofNat 64 t }
  if bus ≤ 0 || x.at_.toNat + 16 ≠ t then ({ y with first := none, up := if 9 * bus ≤ 10 * p.v then true else if 10 * p.v ≤ bus then false else x.up }, none)
  else
    let a := 10 * x.way bus x.v
    let b := 10 * x.way bus p.v
    let y : Trans :=
      if b < bus then { y with first := none }
      else if x.first.isNone && decide (a < bus) then { y with first := some (BitVec.ofNat 64 (crossAt (t - 16) a b bus)), iFirst := x.i, di := (p.i - x.i).natAbs, vi := p.v * p.i }
      else { y with di := max x.di (p.i - x.i).natAbs, vi := x.vi + p.v * p.i }
    match y.first with
    | some f =>
      if a < 9 * bus ∧ 9 * bus ≤ b then
        ({ y with up := !x.up, first := none }, some { up := !x.up, start := f.toNat, stop := crossAt (t - 16) a b (9 * bus), cur := y.iFirst, di := y.di, vi := y.vi })
      else (y, none)
    | none => (y, none)

/-- How long the node stood above 50 % of the bus estimate between the last sample and this one: the measured high-side conduction (R110, R137). Without an estimate the commanded state stands for it. -/
def onTime (bus : Int) (on : Bool) (x : Trans) (p : Pair) (t : Nat) : Nat :=
  if bus ≤ 0 then 16 * b2n on
  else
    let was := decide (bus ≤ 2 * x.v)
    let now := decide (bus ≤ 2 * p.v)
    if x.at_.toNat + 16 ≠ t || was == now then 16 * b2n now
    else if now then t - crossAt (t - 16) (2 * x.v) (2 * p.v) bus else crossAt (t - 16) (-(2 * x.v)) (-(2 * p.v)) (-bus) - (t - 16)

/-- The transitions of a superframe and the tracker after it. -/
def transits (bus : Int) (x : Trans) (ps : List (Pair × Nat)) : Trans × List Transit :=
  ps.foldl (fun a (p : Pair × Nat) =>
    match transStep bus a.1 p.1 p.2 with
    | (y, some t) => (y, a.2 ++ [t])
    | (y, none) => (y, a.2)) (x, [])

/-- The slope of a transition in 0.1 V/ns: 80 % of the bus estimate over its time, rounded down (log entry 7). -/
def Transit.slope (x : Transit) (bus : Int) : Nat := 128 * bus.toNat / (1000 * max 1 (x.stop - x.start))

/-- The edge a transition belongs to (R117): the one that took effect most recently before it began; the later sent of equal ones (R70). -/
def Lane.ownerOf (l : Lane) (t : Nat) : Option SentEdge :=
  l.sent.foldl (fun b e =>
    if e.at_.toNat ≤ t then
      match b with
      | some x => if x.at_.toNat ≤ e.at_.toNat then some e else b
      | none => some e
    else b) none

end Sys2Proof.Machine
end

