-- ==== Sys2Proof/Machine/TimeBase.lean ====
section
/-! DEFINITION. Ship time and its discipline (R206 to R215), angle sources (R217 to R224), cycle sources (R225 to R228) and marks (R229 to R235). -/

namespace Sys2Proof.Machine

/-! ## Reports of marks (R234) -/

/-- The outcome word of a mark (R234): code, HOLD, MISSED saturating. -/
def markWord (code : Nat) (hold : Bool) (missed : Nat) : Word := wordN (code + 4 * b2n hold + 256 * min 255 missed)

/-- The wait is a WAITM on the mark word at an address. -/
def WaitRec.isMark (w : WaitRec) (adr : Nat) : Bool :=
  match w.on with
  | .mark a _ => a == adr
  | .event _ _ _ => false

/-- A trigger of the housekeeping ADC (R436): its round starts DELAY later. -/
def State.hkTrigger (s : State) : State := { s with sup := { s.sup with hkDue := s.sup.hkDue ++ [s.cycles + fld (s.reg Reg.supHkTrig) 15 0] } }

/-- A mark reports to its consumer (R234, R235): a waiting thread, a set-point operation, a capture trigger, housekeeping. -/
def State.markReport (s : State) (who : MarkWho) (w : Word) (fire : DWord) : State :=
  match who with
  | .thread t adr => s.modThr t fun x => { x.latch (fun r => r.isMark adr) (w.setWidth 16 ++ (0 : BitVec 16)) fire with stAt := s.time.st }
  | .setpoint o =>
    if 2 ≤ w.toNat % 4 then s.completeTag o stNotReady
    else s.modOp o fun p => { p with step := 2, value := fire.toNat + 2 ^ 64 * w.toNat }
  | .trigger b k => if w.toNat % 4 < 2 then s.modBob b fun x => x.hit k fire else s
  | .housekeeping => if w.toNat % 4 < 2 then s.hkTrigger else { s with sup := { s.sup with hkMarkErr := true } }

/-- The marks armed on a source complete FAULTED at this instant (R234): kind 1 angle, 2 cycle. -/
def State.marksFault (s : State) (kind src : Nat) : State :=
  let hit := fun (k : Mark) => k.kind.toNat == kind && k.src == src
  let l := s.marks.filter hit
  let s := { s with marks := s.marks.filter fun k => !hit k }
  l.foldl (fun s k => s.markReport k.who (markWord 2 false 0) s.time.st) s

/-- Marks of a consumer are withdrawn: each completes CANCELLED (R234). A wait of a thread that still stands takes that outcome; the other consumers withdraw a mark when they end themselves, with
their own results (ABORTED, IDLE, a newer mark word). -/
def State.marksCancel (s : State) (p : MarkWho → Bool) : State :=
  let l := s.marks.filter fun (k : Mark) => p k.who
  let s := { s with marks := s.marks.filter fun (k : Mark) => !p k.who }
  l.foldl (fun s k => match k.who with | .thread _ _ => s.markReport k.who (markWord 3 false 0) s.time.st | _ => s) s

/-- The marks on a source are evaluated anew after it moved from one position to another (R232, R234): one whose instant has come is kept as it is; one whose target was passed is due, or late, as `passed`
says; the rest are scheduled afresh, which cancels a schedule that the source no longer predicts. -/
def State.marksMoved (s : State) (kind src : Nat) (passed : Mark → Option Mark) : State :=
  { s with marks := s.marks.map fun (m : Mark) =>
      if m.kind.toNat ≠ kind || m.src ≠ src || m.late.isSome || (match m.due with | some t => s.reached t | none => false) then m
      else (passed m).getD (s.evalMark m) }

/-- A mark whose target lies behind, as found now: it is late at this instant (R234). -/
def State.lateMark (s : State) (m : Mark) (dist : Nat) : Mark := { m with late := some (s.time.st, m.others dist) }

/-! ## Ship time -/

/-- The steering mode in force: 0 free, 1 PPS, 2 TWIN (R210, R403). -/
def State.steer (s : State) : Nat :=
  let t := s.twin
  if t.link && (t.st == .shadow || t.st == .joining || t.st == .detached) then 2
  else match fld (s.reg Reg.timeDiscCtl) 29 28 with
    | 1 => 1
    | 2 => if t.st == .active || t.st == .solo || t.st == .taking then 1 else 2
    | _ => 0

/-- Every lane is OFF or LOCKING, so that a step of ST may be made (R214). -/
def State.mayStep (s : State) : Bool := s.lanes.all fun e => e.2.st == .off || e.2.st == .locking

/-- The nearest ST congruent to PPS_OFS x 16 modulo 1.6 x 10^10 lies e below the stamp (R212). -/
def ppsError (st : DWord) (ofs : Nat) : Int :=
  let p : Int := 16000000000
  let d := Int.fmod ((st.toNat : Int) - 16 * ofs) p
  if 2 * d ≤ p then d else d - p

/-- ST steps to a new value (R214): the stamps that the time base holds move with it, so that intervals between its edges, samples and phases are what they were (DESIGN CHOICE, log entry 28); an ST mark whose
target is stepped over fires at the step, late, and one stepped back over stays armed (R234). -/
def State.stepTo (s : State) (st : DWord) : State :=
  let d := st - s.time.st
  let mv := fun (x : Option DWord) => x.map fun (a : DWord) => a + d
  let s := { s with
    time := { s.time with st := st, frac := 0, lastEdge := mv s.time.lastEdge, goodAt := s.time.goodAt + d }
    encs := s.encs.map fun (e : Nat × Enc) => (e.1, { e.2 with sampleAt := e.2.sampleAt + d, cntAt := e.2.cntAt + d, cntPrev := e.2.cntPrev + d, frameAt := mv e.2.frameAt, goodFrameAt := e.2.goodFrameAt + d })
    cycs := s.cycs.map fun (e : Nat × Cyc) => (e.1, { e.2 with atSt := e.2.atSt + d, lowAt := mv e.2.lowAt, heldAt := e.2.heldAt + d, trackAt := e.2.trackAt + d }) }
  { s with marks := s.marks.map fun (m : Mark) =>
      if m.kind ≠ 0 then { m with due := mv m.due } else if m.late.isSome then m else s.evalMark m }

/-- Sets STEP_REJ (R214). -/
def State.stepRej (s : State) : State := { s with time := { s.time with stepRej := true } }

/-- The steering terms of an accepted edge (R213): the target in ppb is the frequency error plus e / TC, clamped to 200 ppm. -/
def steerTarget (freqErr e : Int) (tc : Nat) : Int := clampI (-200000) 200000 (freqErr + roundDiv (e * 625) (10000 * max 8 tc))

/-- The discipline state after an accepted edge (R215) and the count of consecutive edges within 100 ns. -/
def discNext (d : DiscState) (good : Nat) (e : Int) : DiscState × Nat :=
  let a := e.natAbs
  let k := if a ≤ 1600 then good + 1 else 0
  match d with
  | .free => (.free, 0)
  | .acquiring => if 8 ≤ k then (.tracking, 0) else (.acquiring, k)
  | .tracking => if 16000 < a then (.acquiring, 0) else (.tracking, 0)
  | .holdover => (.acquiring, 0)

/-- PPS_EDGE (R211 to R215, R300): the edge is accepted 1 s within 300 us after the previous one, or as the first since a mode change; it then
sets PPS_ERR and the steering target, moves the discipline state, makes the automatic step or sets STEP_REJ, and raises source 21. In SLEEP the unit does not steer (R208). -/
def execPpsEdge (freqErr : Int) (s : State) : Host.Outcome State Fault Refusal :=
  let t := s.time
  .next <|
    if s.steer ≠ 1 || !s.controls then s
    else
      let ok := t.firstEdge || (match t.lastEdge with
        | some p => decide (15995200000 ≤ (t.st - p).toNat ∧ (t.st - p).toNat ≤ 16004800000)
        | none => true)
      if !ok then { s with time := { t with ppsRej := true, lastEdge := some t.st } }
      else
        let ctl := s.reg Reg.timeDiscCtl
        let e := ppsError t.st (fld (s.reg Reg.timePpsOfs) 29 0)
        let ns := clampI (-2147483648) 2147483647 (roundDiv e 16)
        let step := wbit ctl 30 && t.disc == .acquiring && !t.autoDone && decide (16000 < e.natAbs)
        let (d, k) := discNext t.disc t.goodEdges e
        let s := { s with time := { t with firstEdge := false, lastEdge := some t.st, goodAt := t.st, ppsErr := ns, disc := d, goodEdges := k, adjAtEdge := t.freqAdj,
                                           freqTarget := steerTarget freqErr e (fld ctl 23 16), autoDone := (t.autoDone || step) && (d == DiscState.acquiring) } }
        let s :=
          if step then
            if s.mayStep then s.stepTo (t.st - BitVec.ofInt 64 e) else s.stepRej
          else s
        s.source 21 (toTwos 32 ns)

/-- DISC_HOLDOVER (R208, R215): once 3 s have passed without an accepted edge; FREQ_ADJ keeps the value it had at the last one. -/
def execDiscHoldover (s : State) : Host.Outcome State Fault Refusal :=
  .next <|
    if s.controls && decide (48000000000 ≤ (s.time.st - s.time.goodAt).toNat) && (s.time.disc == .acquiring || s.time.disc == .tracking) then
      { s with time := { s.time with disc := .holdover, freqAdj := s.time.adjAtEdge, freqTarget := s.time.adjAtEdge } }
    else s

/-- A write of TIME.DISC_CTL (R210, R214, R215): the RW fields are kept; a change of MODE restarts the discipline; STEP loads ST_SET while every lane is OFF or
LOCKING, else sets STEP_REJ. -/
def State.discWrite (s : State) (v : Word) : State :=
  let was := fld (s.reg Reg.timeDiscCtl) 29 28
  let now := fld v 29 28
  let s := s.setReg Reg.timeDiscCtl 0 (v &&& 0x70FFFF00)
  let s :=
    if was = now then s
    else
      let d : DiscState := if now = 1 ∨ now = 2 then .acquiring else .free
      { s with time := { s.time with disc := d, firstEdge := true, goodEdges := 0, autoDone := false, goodAt := s.time.st, adjAtEdge := s.time.freqAdj } }
  if wbit v 31 then
    if s.mayStep then s.stepTo (s.reg Reg.timeStSetHi ++ s.reg Reg.timeStSetLo : BitVec 64) else s.stepRej
  else s

/-- ST_STEP (R214): a write of STEP loads ST_SET into ST, or sets STEP_REJ. -/
def execStStep (v : Word) (s : State) : Host.Outcome State Fault Refusal := .next (s.viaBar0 fun s => s.discWrite v)

/-- DISC_MODE_SET (R210): a write of MODE changes the steering mode and the discipline state. -/
def execDiscModeSet (v : Word) (s : State) : Host.Outcome State Fault Refusal := .next (s.viaBar0 fun s => s.discWrite v)

/-- ST_LO_READ (R209): returns ST bits [31:0] and latches bits [63:32] into ST_HI. -/
def execStLoRead (s : State) : Host.Outcome State Fault Refusal :=
  .next <| s.viaBar0 fun s => { s with time := { s.time with stHi := s.time.st.extractLsb' 32 32 }, host := { s.host with rdata := s.time.st.setWidth 32 } }

/-! ## Angle sources -/

/-- TYPE of an angle source: 1 quadrature, 2 SSI, else off. -/
def encType (cfg : Word) : Nat := match fld cfg 31 30 with | 1 => 1 | 2 => 2 | _ => 0

/-- CPR of an angle source. -/
def encCpr (cfg : Word) : Nat := fld cfg 23 0

/-- An SSI set-up with a field out of range (R220, TIME.ENC_SSI). -/
def ssiBad (w : Word) : Bool :=
  let st := fld w 22 18
  let mt := fld w 17 13
  decide (1 ≤ st ∧ st ≤ 7) || decide (16 < mt) || decide (32 < mt + (if st = 0 then 32 else st))

/-- The angle of a count: (count mod CPR) x 2^32 / CPR rounded down (R218). -/
def encAngle (count : Int) (cpr : Nat) : Word := wordN (count.toNat * 2 ^ 32 / cpr)

/-- The 64-bit position of an angle source as an integer (R217). -/
def Enc.pos (e : Enc) : Int := e.turn * 4294967296 + (e.angle.toNat : Int)

/-- An angle source enters FAULT with a cause (R223); its armed marks complete FAULTED (R234). -/
def State.encFault (s : State) (k : Nat) (cause : BitVec 4) : State :=
  let e := s.enc k
  (s.setEnc k { e with st := .fault, cause := cause, faults := satInc 255 e.faults, goodFrames := 0 }).marksFault 1 k

/-- A source as it is from enable (R219, R220, R224): OFF; FAULT with CAUSE 0x7 for an invalid set-up; quadrature VALID at 0, or RELATIVE with ZEN; SSI in FAULT until 16 good
frames. A source that starts in FAULT completes its armed marks FAULTED (R234), and so does one that is turned OFF (DESIGN CHOICE, log entry 28). -/
def State.encStart (s : State) (k : Nat) : State :=
  let cfg := s.reg Reg.timeEncCfg k
  let new : Enc := match encType cfg with
    | 1 => if encCpr cfg < 4 then { st := .fault, cause := 7, faults := 1 } else { st := if wbit cfg 28 then .relative else .valid }
    | 2 => if ssiBad (s.reg Reg.timeEncSsi k) then { st := .fault, cause := 7, faults := 1 } else { st := .fault }
    | _ => {}
  let s := s.setEnc k new
  if new.st == .fault || new.st == .off then s.marksFault 1 k else s.marksMoved 1 k fun _ => none

/-- One count up or down (R217, R218): the 32-bit signed turn count changes where the count crosses a multiple of CPR. -/
def Enc.count1 (e : Enc) (up : Bool) (cpr : Nat) (st : DWord) : Enc :=
  let c := if up then e.count + 1 else e.count - 1
  let (c, t) := if c = (cpr : Int) then (0, e.turn + 1) else if c < 0 then ((cpr : Int) - 1, e.turn - 1) else (c, e.turn)
  { e with count := c, turn := asSigned 32 (toTwos 32 t), angle := encAngle c cpr, cntPrev := e.cntAt, cntAt := st, cntUp := up, nCounts := e.nCounts + 1 }

/-- ENC_COUNT (R218): a filtered transition counts, reversed by DIR_INV; A and B changing together put the source in FAULT with CAUSE 0x1. -/
def execEncCount (k : Fin 16) (mv : QuadMove) (s : State) : Host.Outcome State Fault Refusal :=
  let cfg := s.reg Reg.timeEncCfg k
  let e := s.enc k
  let cpr := encCpr cfg
  .next <|
    if encType cfg ≠ 1 || cpr < 4 || e.st == .off || !s.controls then s
    else match mv with
      | .both => s.encFault k 1
      | .up => s.setEnc k (e.count1 (!wbit cfg 29) cpr s.time.st)
      | .down => s.setEnc k (e.count1 (wbit cfg 29) cpr s.time.st)

/-- ENC_Z_EDGE (R219): with ZEN the first edge sets the count to 0, the turn count unchanged, and makes the source VALID; a later one more than 2 counts off is a
FAULT with CAUSE 0x2; in FAULT it realigns the count and clears the fault. A mark whose target the realignment passes forward fires at it, late (R234). -/
def execEncZEdge (k : Fin 16) (s : State) : Host.Outcome State Fault Refusal :=
  let cfg := s.reg Reg.timeEncCfg k
  let e := s.enc k
  let cpr := encCpr cfg
  .next <|
    if encType cfg ≠ 1 || !wbit cfg 28 || cpr < 4 || e.st == .off || !s.controls then s
    else
      if !e.zSeen || e.st == .fault then
        let new := { e with count := 0, angle := 0, hist := [], zSeen := true, st := EncState.valid }
        let jump := asSigned 64 (toTwos 64 (new.pos - e.pos))
        (s.setEnc k new).marksMoved 1 k fun m =>
          let a := m.ahead e.pos
          if m.dir != 2 && decide (0 < a ∧ a ≤ jump) then some (s.lateMark m (jump - a).toNat) else none
      else if 2 < e.count && e.count + 2 < (cpr : Int) then s.encFault k 2
      else s

/-- Gray code of a field to binary: the exclusive or of all its right shifts. -/
def ungray (v n : Nat) : Nat := (List.range n).foldl (fun a i => if i = 0 then v else a ^^^ (v >>> i)) v

/-- The ticks that lie between an earlier instant and now (R221). -/
def State.ticksSince (s : State) (t : DWord) : Nat := s.time.st.toNat / 16384 - t.toNat / 16384

/-- Bits of a source's position that its data carry: 32 of the angle and the turn bits; all 64 of a quadrature source (R217, R220). -/
def encBits (cfg ssi : Word) : Nat := if encType cfg = 2 then 32 + fld ssi 17 13 else 64

/-- The way from one position to another, by the shorter side within the bits that the source carries. -/
def encDiff (cfg ssi : Word) (a b : Int) : Int := asSigned (encBits cfg ssi) (toTwos (encBits cfg ssi) (a - b))

/-- SSI_FRAME (R220): the frame's bits, most significant first: turn bits, angle bits, error bit, parity bit. A fault frame gives FAULT with its cause; the sixteenth consecutive
good frame gives VALID. Frames come every SSI_PER ticks; the jump check extrapolates from the last good frame, and measures the jump within the bits that the frame carries. -/
def execSsiFrame (k : Fin 16) (bHigh : Bool) (raw : DWord) (s : State) : Host.Outcome State Fault Refusal :=
  let cfg := s.reg Reg.timeEncCfg k
  let w := s.reg Reg.timeEncSsi k
  let e := s.enc k
  .next <|
    if encType cfg ≠ 2 || e.st == .off || !s.controls then s
    else if (match e.frameAt with | some t => decide (s.ticksSince t < max 4 (fld w 6 0)) | none => false) then s
    else if ssiBad w then (if e.st == .fault && e.cause == 7 then s else s.encFault k 7)
    else
      let nst := if fld w 22 18 = 0 then 32 else fld w 22 18
      let nmt := fld w 17 13
      let nerr := b2n (wbit w 11)
      let npar := b2n (wbit w 10)
      let v := raw.toNat
      let dec := fun (x n : Nat) => if wbit w 12 then ungray x n else x
      let st := dec (bitsOf v (nst + nerr + npar - 1) (nerr + npar)) nst
      let mt := if nmt = 0 then 0 else dec (bitsOf v (nmt + nst + nerr + npar - 1) (nst + nerr + npar)) nmt
      let ones := countTrue ((List.range (nmt + nst + nerr + npar)).map (bitOf v))
      let angle := wordN (st * 2 ^ (32 - nst))
      let turn : Int := if nmt = 0 then 0 else asSigned nmt mt
      let pos := turn * 4294967296 + (angle.toNat : Int)
      let s := s.setEnc k { e with frameAt := some s.time.st }
      let ext := e.goodPos + travel e.speed (s.time.st - e.goodFrameAt).toNat
      if !bHigh then s.encFault k 3
      else if nerr = 1 && bitOf v npar then s.encFault k 4
      else if npar = 1 && ones % 2 = 1 then s.encFault k 5
      else if e.goodFrames ≠ 0 && decide (16777216 < (encDiff cfg w pos ext).natAbs) then s.encFault k 6
      else
        let n := e.goodFrames + 1
        let s := s.setEnc k { e with turn := turn, angle := angle, frameAt := some s.time.st, goodPos := pos, goodFrameAt := s.time.st, goodFrames := n, st := if 16 ≤ n then .valid else e.st }
        if 16 ≤ n && e.st != .valid then s.marksMoved 1 k fun _ => none else s

/-- The speed estimate of R222 in 0.001 rpm: the change over the last 2^SPW ticks, or, of a quadrature source with fewer than 4 counts in that window, one count over the time between
the last two counts, falling once that time is exceeded. `hist` holds the position and the number of counts at each tick, the latest first; until the window is filled the estimate spans the
ticks there are, and an SSI source, whose frames bring no counts, takes the change always (DESIGN CHOICE, log entry 28). -/
def encSpeed (e : Enc) (cfg ssi : Word) (hist : List (Int × Nat)) (st : DWord) : Int :=
  let n := min (2 ^ (min 6 (fld ssi 9 7))) (hist.length - 1)
  let old := (hist.drop n).headD (e.pos, e.nCounts)
  if encType cfg = 1 && decide (e.nCounts - old.2 < 4) then
    if e.nCounts < 2 then 0
    else
      let v := roundDiv 960000000000000 (encCpr cfg * max 1 (max (e.cntAt - e.cntPrev).toNat (st - e.cntAt).toNat))
      if e.cntUp then v else -v
  else if n = 0 then 0
  else roundDiv (encDiff cfg ssi e.pos old.1 * 60000000000000) (4294967296 * 1024 * n)

/-- The marks on an angle source after its sample (R232, R234): scheduled when the sample and speed predict the crossing before the next sample; a target that two samples show to be crossed, and none predicted,
is late at the second (DESIGN CHOICE, log entry 50). -/
def State.encMarks (s : State) (k : Nat) (was : Option Int) : State :=
  let e := s.enc k
  s.marksMoved 1 k fun m =>
    match was with
    | none => none
    | some p =>
      let d := encDiff (s.reg Reg.timeEncCfg k) (s.reg Reg.timeEncSsi k) e.sample p
      let f := m.ahead p
      let b := m.behind p
      if e.st != .valid then none
      else if m.dir != 2 && decide (0 < f ∧ f ≤ d) then some (s.lateMark m (d - f).toNat)
      else if m.dir != 1 && decide (0 < b ∧ b ≤ -d) then some (s.lateMark m (-d - b).toNat)
      else none

/-- ANGLE_TICK (R221, R222, R224, R232): at a tick, that is once for every ST multiple of 16,384, every enabled source produces its angle sample and speed estimate, and its marks are scheduled. -/
def execAngleTick (s : State) : Host.Outcome State Fault Refusal :=
  .next <| if !s.controls then s else s.encs.foldl (fun s (k, e) =>
    if e.st == .off || (e.hist ≠ [] && s.ticksSince e.sampleAt = 0) then s
    else
      let hist := ((e.pos, e.nCounts) :: e.hist).take 65
      let v := encSpeed e (s.reg Reg.timeEncCfg k) (s.reg Reg.timeEncSsi k) hist s.time.st
      (s.setEnc k { e with hist := hist, sample := e.pos, sampleAt := BitVec.ofNat 64 (s.time.st.toNat / 16384 * 16384), speed := v }).encMarks k (e.hist.head?.map (·.1))) s

/-- The angle source that TIME.ENC_SEL shows. -/
def State.encSel (s : State) : Nat := fld (s.reg Reg.timeEncSel) 3 0

/-- ENC_CFG_WRITE (R219): the selected source starts anew with its configuration, which clears a fault. -/
def execEncCfgWrite (v : Word) (s : State) : Host.Outcome State Fault Refusal :=
  let k := s.encSel
  .next (s.viaBar0 fun s => (s.setReg Reg.timeEncCfg k (v &&& 0xFEFFFFFF)).encStart k)

/-- ENC_ANGLE_READ (R217): returns the angle of the latest sample and latches ENC_TURN and ENC_SPEED. -/
def execEncAngleRead (s : State) : Host.Outcome State Fault Refusal :=
  .next <| s.viaBar0 fun s =>
    let k := s.encSel
    let e := s.enc k
    let s := s.setEnc k { e with turnLatch := wordI (Int.fdiv e.sample 4294967296), speedLatch := wordI e.speed }
    { s with host := { s.host with rdata := wordI e.sample } }

/-! ## Cycle sources -/

/-- A total put back as phase and cycle count at an instant. -/
def Cyc.put (c : Cyc) (total : Nat) (t : DWord) : Cyc := { c with phase := wordN total, cycles := wordN (total / 2 ^ 32), atSt := t }

/-- The loop's update at a lead boundary of the rail (R226 to R228): `usable` says that the line's amplitude and frequency allow it, `amp` that the amplitude does. -/
def Cyc.update (c : Cyc) (usable amp : Bool) (x : LeadMeas) (t : DWord) : Cyc :=
  let c := { c with lowAt := if amp then none else some (c.lowAt.getD t) }
  let cand : Nat := c.totalAt t
  let diff := asSigned 32 (toTwos 32 ((x.pllPhase.toNat : Int) - (cand : Int)))
  let lock := { c.put ((cand : Int) + diff).toNat t with rate := x.pllRate }
  match c.st with
  | .unbound => c
  | .invalid => if usable then { lock with st := .acquiring } else c
  | .acquiring => if !usable then { c with st := .invalid } else if x.pllLocked then { lock with st := .tracking, heldRate := x.pllRate } else lock
  | .tracking => { lock with heldRate := x.pllRate }
  | .holdover => if usable && x.pllLocked then { lock with st := .tracking, heldRate := x.pllRate } else { c.put cand t with rate := c.heldRate }

/-- The marks on a cycle source after its update (R232, R234): a target that its phase passed forward is late at a jump from HOLDOVER to TRACKING, and fires at the update where the running loop corrected the phase
past it; one passed backward stays armed; a source that has become TRACKING evaluates the marks armed before; on one that has become INVALID they complete FAULTED. -/
def State.cycMarks (s : State) (k : Nat) (was : Cyc) : State :=
  let c := s.cyc k
  let st := s.time.st
  if c.st == .invalid && was.st != .invalid then s.marksFault 2 k
  else s.marksMoved 2 k fun m =>
    let d := (c.totalAt st : Int) - (was.totalAt st : Int)
    let f := m.ahead (was.totalAt st)
    if !c.live || !was.live then none
    else if decide (0 < f ∧ f ≤ d) then
      some (if was.st == .holdover && c.st == .tracking then s.lateMark m (d - f).toNat else { m with due := some st })
    else none

/-- A cycle source takes a new record, and its marks follow. -/
def State.cycTo (s : State) (k : Nat) (c : Cyc) : State :=
  let was := s.cyc k
  (s.setCyc k { c with broke := c.broke || c.st != .tracking, trackAt := if c.st == .tracking && was.st != .tracking then s.time.st else c.trackAt }).cycMarks k was

/-- A TRACKING source enters HOLDOVER at the last TRACKING frequency (R228). -/
def State.cycHold (s : State) (k : Nat) : State :=
  let c := s.cyc k
  if c.st == .tracking then s.cycTo k { c.put (c.totalAt s.time.st) s.time.st with st := .holdover, rate := c.heldRate, heldAt := s.time.st } else s

/-- Hold time of cycle source k in ST units (R228, TIME.CYC_CFG): 0 means 100 ms, else 20 ms for each unit. -/
def State.holdTime (s : State) (k : Nat) : Nat :=
  let h := fld (s.reg Reg.timeCycCfg) (8 * k + 3) (8 * k)
  16000000 * (if h = 0 then 100 else 20 * h)

/-- CYC_AMPLITUDE_LOSS (R228): once the amplitude has been below 20 % for 2 ms, a TRACKING source enters HOLDOVER. -/
def execCycAmplitudeLoss (k : Fin 4) (s : State) : Host.Outcome State Fault Refusal :=
  .next <| match (s.cyc k).lowAt with
    | some t => if s.controls && decide (32000000 ≤ (s.time.st - t).toNat) then s.cycHold k else s
    | none => s

/-- CYC_HOLD_EXPIRY (R228): once the hold time has passed in HOLDOVER, the source becomes INVALID and its armed marks complete FAULTED (R234). -/
def execCycHoldExpiry (k : Fin 4) (s : State) : Host.Outcome State Fault Refusal :=
  let c := s.cyc k
  .next (if s.controls && c.st == .holdover && decide (s.holdTime k ≤ (s.time.st - c.heldAt).toNat) then s.cycTo k { c with st := .invalid } else s)

/-- Bind or unbind the cycle sources to the SOURCE rails whose active pages name them (R225). A source that becomes UNBOUND keeps its last TRACKING frequency, by which a locked planner goes on (R238); its armed marks complete
FAULTED (DESIGN CHOICE, log entry 28). -/
def State.cycBind (s : State) : State :=
  (List.range 4).foldl (fun s k =>
    let bound := s.rails.any fun e => e.2.isKind 0 && rpTbase e.2.active == k
    let c := s.cyc k
    if bound && c.st == .unbound then s.setCyc k { c with st := .invalid }
    else if !bound && c.st != .unbound then (s.setCyc k { heldRate := c.heldRate }).marksFault 2 k
    else s) s

/-! ## Marks -/

/-- How far the base has gone on past an instant in the direction in which the mark re-arms (R233). -/
def State.gone (s : State) (m : Mark) (t : DWord) : Nat :=
  if m.kind = 1 then
    let d := travel (s.enc m.src).speed (s.time.st - t).toNat
    (if m.dir = 2 then -d else d).toNat
  else (s.cyc m.src).totalAt s.time.st - (s.cyc m.src).totalAt t

/-- The time in which the base covers a distance at its present rate. -/
def State.goTime (s : State) (m : Mark) (dist : Nat) : Nat :=
  if m.kind = 1 then travelTime dist (s.enc m.src).speed
  else (dist * 16000000000000 + (s.cyc m.src).rate * 2 ^ 32 - 1) / ((s.cyc m.src).rate * 2 ^ 32)

/-- What a mark reports now, if it fires: its fire instant, the count of other targets crossed, and LATE (R231 to R234). One that was past when its base was evaluated is LATE at that instant; an ST mark fires at its
target, an ANGLE or CYCLE mark at the instant scheduled; where more targets of a repeating mark have been crossed by then, the last of them counts, and it is LATE. -/
def State.markDue (s : State) (m : Mark) : Option (DWord × Nat × Bool) :=
  match m.late with
  | some (t, n) => some (t, n, true)
  | none =>
    if m.kind = 0 then
      if !s.reached m.target then none
      else
        let n := m.others (s.time.st - m.target).toNat
        some (m.target + BitVec.ofNat 64 (n * m.period.toNat), n, n != 0)
    else match m.due with
      | none => none
      | some t =>
        if !s.reached t then none
        else
          let n := m.others (s.gone m t)
          some (t + BitVec.ofNat 64 (if n = 0 then 0 else s.goTime m (n * m.period.toNat)), n, n != 0)

/-- A repeating mark armed again (R233): at target + PERIOD, or - PERIOD when decreasing, past the targets that were missed. -/
def Mark.again (m : Mark) (missed : Nat) : Mark :=
  let d : DWord := BitVec.ofNat 64 (m.period.toNat * (missed + 1))
  { m with target := if m.dir = 2 then m.target - d else m.target + d, due := none, late := none }

/-- MARK_FIRE (R224, R231, R233, R234): mark i, if its fire instant has come, reports FIRED or LATE to its consumer with that instant, HOLD on a held cycle source and the count of missed
targets, and re-arms when it repeats; in SLEEP it waits for the wake (R306); a thread's repeating mark has its next target and REL 0 written into its mark word instead (R294). -/
def execMarkFire (i : Nat) (s : State) : Host.Outcome State Fault Refusal :=
  .next <| match s.marks[i]? with
    | none => s
    | some m =>
      match (if s.controls then s.markDue m else none) with
      | none => s
      | some (fire, missed, late) =>
        let hold := m.kind.toNat == 2 && (s.cyc m.src).st == .holdover
        let rest := s.marks.eraseIdx i
        let next := m.again missed
        let s := match m.who with
          | .thread _ adr =>
            let s := { s with marks := rest }
            if m.period = 0 then s
            else (s.ledgerWrite adr (toLe 8 next.target.toNat)).ledgerWrite (adr + 10) [BitVec.ofNat 8 (s.ledgerLe (adr + 10) 1 / 2 * 2)]
          | _ => { s with marks := if m.period = 0 then rest else rest ++ [s.evalMark next] }
        s.markReport m.who (markWord (b2n late) hold missed) fire

end Sys2Proof.Machine
end

