-- ==== Sys2Proof/Machine/Trace.lean ====
section
/-! DEFINITION. The trace unit (R384 to R388): records, their delta times, IDLE and LOST records, the trace buffer and its way into the trace
bobbin. -/

namespace Sys2Proof.Machine

/-- Unsigned LEB128 of a number, at most ten bytes. -/
def leb : Nat → Nat → List Byte
  | 0, _ => []
  | n + 1, v => if v < 128 then [BitVec.ofNat 8 v] else BitVec.ofNat 8 (128 + v % 128) :: leb n (v / 128)

/-- Trace is enabled (R384). -/
def State.traceEn (s : State) : Bool := bitOf (byteAt s.cap.traceCtl 3) 7

/-- A source is traced (R384): 0 management cores, 1 planner, 2 thread branches. -/
def State.traceSrc (s : State) (i : Nat) : Bool := bitOf (byteAt s.cap.traceCtl 2) i

/-- Thread t is traced (R384). -/
def State.traceThr (s : State) (t : Nat) : Bool := bitOf (leAt s.cap.traceCtl 0 2) t

/-- The trace buffer holds 256 KiB (R387). -/
def traceMax : Nat := 262144

/-- Bytes of records a trace chunk holds after its header (R365, R367; log entry 32). -/
def chunkBytes (cfg : List Byte) : Nat := 4096 * leAt cfg 0x14 4

/-- Take up to n bytes from the head of the buffered records: the bytes and what stays. -/
def traceTake : Nat → List (DWord × List Byte) → List Byte × List (DWord × List Byte)
  | _, [] => ([], [])
  | n, (t, r) :: l =>
    if r.length ≤ n then
      let (a, rest) := traceTake (n - r.length) l
      (r ++ a, rest)
    else (r.take n, (t, r.drop n) :: l)

/-- Bytes that the trace buffer holds. -/
def State.traceFill (s : State) : Nat := sumN (s.cap.buf.map fun e => e.2.length)

/-- Move bytes of the trace buffer into the current chunk of its bobbin while that records and BULK is not enforced (R387, R388). -/
def State.traceFlush (s : State) : State :=
  let k := byteAt s.cap.traceCtl 3 % 8
  let b := s.bob k
  if !s.traceEn || byteAt b.cfg 1 ≠ 2 || b.st != .armed || s.bulkOff then s
  else
    let (bytes, rest) := traceTake (chunkBytes b.cfg - b.cur.length) s.cap.buf
    let first := match s.cap.buf with | (t, _) :: _ => t | [] => s.time.st
    let s := s.setBob k { b with cur := b.cur ++ bytes, curFirst := if b.cur = [] then first else b.curFirst }
    { s with cap := { s.cap with buf := rest } }

/-- Put a whole record into the trace buffer, or count it lost; a LOST record goes first as soon as there is room (R387). -/
def State.tracePut (s : State) (rec : List Byte) : State :=
  let s := s.traceFlush
  let c := s.cap
  let lostRec : List Byte := if c.lost = 0 then [] else 0x80 :: leb 10 c.lost
  let fill := s.traceFill
  let c := if c.lost ≠ 0 && decide (fill + lostRec.length ≤ traceMax) then { c with buf := c.buf ++ [(s.time.st, lostRec)], lost := 0 } else c
  let fill := sumN (c.buf.map fun e => e.2.length)
  let c := if c.lost = 0 && decide (fill + rec.length ≤ traceMax) then { c with buf := c.buf ++ [(s.time.st, rec)] } else { c with lost := c.lost + 1 }
  { s with cap := c }.traceFlush

/-- Whole ns since the last record's instant. -/
def State.traceNs (s : State) : Nat := (s.time.st - s.cap.lastAt).toNat / 16

/-- The IDLE record that ends a silence of 1 ms or more (R386), and the instant it leaves. -/
def State.traceIdle (s : State) : State :=
  let ns := s.traceNs
  if ns < 1000000 then s
  else
    let s := s.tracePut (0x00 :: leb 10 ns)
    { s with cap := { s.cap with lastAt := s.time.st } }

/-- A record with a delta time: header byte, DT, body (R385). -/
def State.traceRec (s : State) (hdr : Nat) (body : List Byte) : State :=
  if !s.traceEn || s.cap.halted then s
  else
    let s := s.traceIdle
    let s := s.tracePut (BitVec.ofNat 8 hdr :: leb 10 s.traceNs ++ body)
    { s with cap := { s.cap with lastAt := s.time.st } }

/-- A TACK of a kind (R386), with ST and SEQ; while the trace is halted only those of SLEEP are written (R388, R389). -/
def State.tack (s : State) (kind : Nat) : State :=
  if !s.traceEn || (s.cap.halted && kind != 5 && kind != 6) then s
  else
    let s := s.traceIdle
    let s := s.tracePut (BitVec.ofNat 8 (16 + kind) :: toLe 8 s.time.st.toNat ++ toLe 4 s.cap.tackSeq.toNat)
    { s with cap := { s.cap with lastAt := s.time.st, tackSeq := s.cap.tackSeq + 1 } }

/-- A change in whether ANALYTICS is enforced halts or resumes the trace (R388): a HALTED tack and then no record, and a RESUMED tack. -/
def State.traceGate (s : State) : State :=
  if s.analyticsOff && !s.cap.halted then
    let s := s.tack 7
    { s with cap := { s.cap with halted := true } }
  else if !s.analyticsOff && s.cap.halted then { s with cap := { s.cap with halted := false } }.tack 8
  else s

/-- Trace a DECISION of the planner (R385). -/
def State.traceDecision (s : State) (tag code reason power : Nat) : State :=
  if s.traceSrc 1 then s.traceRec 0x50 (toLe 2 tag ++ [BitVec.ofNat 8 code, BitVec.ofNat 8 reason] ++ toLe 4 (power / 1000)) else s

/-- Trace the end of a PASS (R385). -/
def State.tracePass (s : State) (slot : Nat) (carried restarted clamped : Bool) : State :=
  if s.traceSrc 1 then s.traceRec 0x60 (toLe 4 slot ++ [BitVec.ofNat 8 (b2n carried + 2 * b2n restarted + 4 * b2n clamped)]) else s

/-- Trace a WAKEUP of thread t (R385): kind 0 wait completed, 1 normal interrupt, 2 fast interrupt. -/
def State.traceWake (s : State) (t ev kind : Nat) : State :=
  if s.traceThr t then s.traceRec (0x20 + t) (toLe 2 (ev + 512 * kind)) else s

/-- Trace a taken BRANCH of thread t (R385). -/
def State.traceBranch (s : State) (t target : Nat) : State :=
  if s.traceThr t && s.traceSrc 2 then s.traceRec (0x30 + t) (toLe 2 target) else s

/-- Codes of thread states (R318). -/
def thrCode : ThrState → Nat
  | .off => 0 | .run => 1 | .wait => 2 | .halted => 3 | .faulted => 4 | .frozen => 5

/-- Trace a change of STATE of thread t (R385). -/
def State.traceState (s : State) (t : Nat) (st : ThrState) : State :=
  if s.traceThr t then s.traceRec (0x40 + t) [BitVec.ofNat 8 (thrCode st)] else s

/-- Thread t changes state (R288, R318). -/
def State.thrTo (s : State) (t : Nat) (st : ThrState) : State :=
  if (s.thr t).st = st then s else (s.modThr t fun x => { x with st := st, stAt := s.time.st }).traceState t st

end Sys2Proof.Machine
end

