-- ==== Sys2Proof/Machine/Capture.lean ====
section
/-! DEFINITION. Capture, archive and trace control (R361 to R389): bobbins and their records, triggers, windows and chunks, objects, the drain to the archive and
its held map. -/

namespace Sys2Proof.Machine

/-! ## The bobbin record (R367, R370) -/

/-- MODE: 0 WINDOW, 1 STREAM, 2 TRACE. -/
def Bobbin.mode (b : Bobbin) : Nat := byteAt b.cfg 1
/-- FLAGS bit: 0 REDUCE, 1 REARM, 2 EXPR. -/
def bobFlag (cfg : List Byte) (i : Nat) : Bool := bitOf (byteAt cfg 2) i
/-- DEC. -/
def bobDec (cfg : List Byte) : Nat := max 1 (leAt cfg 8 2)
/-- PRE. -/
def bobPre (cfg : List Byte) : Nat := leAt cfg 0xC 4
/-- POST. -/
def bobPost (cfg : List Byte) : Nat := leAt cfg 0x10 4
/-- CHUNK. -/
def bobChunk (cfg : List Byte) : Nat := leAt cfg 0x14 4
/-- The lanes stored, rising. -/
def bobLanes (cfg : List Byte) : List Nat := setBitsOf 1024 (leAt cfg 0x20 128)
/-- KIND of term k. -/
def termKind (cfg : List Byte) (k : Nat) : Nat := byteAt cfg (0xA0 + 32 * k)
/-- OPT of term k. -/
def termOpt (cfg : List Byte) (k : Nat) : Nat := byteAt cfg (0xA1 + 32 * k)
/-- LANE of term k. -/
def termLane (cfg : List Byte) (k : Nat) : Nat := leAt cfg (0xA2 + 32 * k) 2
/-- SEL of term k. -/
def termSel (cfg : List Byte) (k : Nat) : Nat := leAt cfg (0xA4 + 32 * k) 2
/-- The bobbin's memory in bytes. -/
def bobBytes (cfg : List Byte) : Nat := leAt cfg 6 2 * 67108864
/-- Bytes of one chunk, header included; a trace chunk is CHUNK 4 KiB units of records behind its header (log entry 32). -/
def chunkSize (cfg : List Byte) : Nat :=
  if byteAt cfg 1 = 2 then 4096 + chunkBytes cfg else 4096 + bobChunk cfg * (bobLanes cfg).length * 200
/-- Chunks that the bobbin's memory holds (R376). -/
def bobChunks (cfg : List Byte) : Nat := bobBytes cfg / chunkSize cfg

/-- Trigger term k breaks a rule of R369. -/
def State.termBad (s : State) (cfg : List Byte) (k : Nat) : Bool :=
  let kind := termKind cfg k
  let opt := termOpt cfg k
  let mark := slice cfg (0xB0 + 32 * k) 16
  let noMark := zerosAt cfg (0xB0 + 32 * k) 16
  decide (4 < kind) || !zerosAt cfg (0xAC + 32 * k) 4 || (match kind with
    | 0 => opt != 0 || termSel cfg k != 0 || !noMark
    | 1 => opt != 0 || termSel cfg k != 0 || s.markBad mark
    | 2 => opt != 0 || decide (510 < termSel cfg k) || !noMark
    | 3 => decide (1 < opt) || decide (1024 ≤ termLane cfg k) || !s.laneOk (termLane cfg k) || !noMark
    | _ => decide (16 ≤ opt) || decide (2 ≤ opt % 4) || opt / 4 == 3 || decide (1024 ≤ termLane cfg k) || !s.laneOk (termLane cfg k)
        || termSel cfg k != 0 || !noMark)

/-- The operations of EXPR up to END (R370). -/
def exprOps (cfg : List Byte) : List Nat :=
  ((List.range 32).map fun i => (byteAt cfg (0x120 + i / 2) / 16 ^ (i % 2)) % 16).takeWhile (· != 0)

/-- The operations hold to R370 from a stack depth on. -/
def exprOk (cfg : List Byte) : List Nat → Nat → Bool
  | [], d => d == 1
  | o :: t, d =>
    if o ≤ 4 then decide (d < 4) && termKind cfg (o - 1) != 0 && exprOk cfg t (d + 1)
    else if o ≤ 7 then decide (2 ≤ d) && exprOk cfg t (d - 1)
    else if o = 8 then decide (1 ≤ d) && exprOk cfg t d
    else false

/-- Two runs of units overlap. -/
def unitsOverlap (a n b m : Nat) : Bool := decide (a < b + m ∧ b < a + n)

/-- A bobbin record breaks a field rule (R367, R368, R370): BAD_DESC. -/
def State.bobBad (s : State) (b : Nat) (c : List Byte) : Bool :=
  let mode := byteAt c 1
  let base := leAt c 4 2
  let size := leAt c 6 2
  let others := s.bobs.any fun e => e.1 != b && e.2.cfg != [] && unitsOverlap base size (leAt e.2.cfg 4 2) (leAt e.2.cfg 6 2)
  c.length != 512 || byteAt c 0 != 1 || decide (2 < mode) || decide (8 ≤ byteAt c 2) || byteAt c 3 != 0
    || decide (1535 < base) || size == 0 || decide (1536 < base + size) || leAt c 8 2 == 0 || !zerosAt c 0xA 2
    || (mode == 0 && bobPost c == 0) || (mode != 0 && bobChunk c == 0) || (mode == 2 && decide (16384 < bobChunk c))
    || !zerosAt c 0x18 8 || !zerosAt c 0x130 208 || others
    || (mode != 2 && ((bobLanes c).isEmpty || (bobLanes c).any fun n => !s.laneOk n))
    || (List.range 4).any (s.termBad c) || (bobFlag c 2 && !exprOk c (exprOps c) 0)

/-- A bobbin record is too large for its memory (R368). -/
def bobTooLarge (c : List Byte) : Bool :=
  match byteAt c 1 with
  | 0 => decide (bobBytes c < (bobPre c + bobPost c + 64) * (bobLanes c).length * 200 + 4096)
  | 1 => decide (bobBytes c < 2 * chunkSize c)
  | _ => decide (bobBytes c < 2 * chunkBytes c)

/-! ## Events (R383) -/

/-- A CAPTURE event. -/
def State.capEvent (s : State) (b sub flags seq v : Nat) : State :=
  s.event 0x0E b ([BitVec.ofNat 8 sub, BitVec.ofNat 8 flags, 0, 0] ++ toLe 4 seq ++ toLe 8 v)

/-- An ARCHIVE event. -/
def State.archEvent (s : State) (a sub b len base : Nat) : State :=
  s.event 0x0F a ([BitVec.ofNat 8 sub, BitVec.ofNat 8 b, 0, 0] ++ toLe 4 len ++ toLe 8 base)

/-! ## Objects (R365) -/

/-- Bytes of an object, header included. -/
def Object.size (o : Object) (cfg : List Byte) : Nat :=
  if byteAt cfg 1 = 2 then 4096 + o.bytes.length else 4096 + (o.pre + o.post) * (bobLanes cfg).length * 200

/-- The 4 KiB header of an object of bobbin b. -/
def Object.header (o : Object) (b : Nat) (cfg : List Byte) : List Byte :=
  let trace := byteAt cfg 1 = 2
  let h := [0x01, BitVec.ofNat 8 (byteAt cfg 1), BitVec.ofNat 8 b, o.flags] ++ toLe 4 o.seq.toNat ++ toLe 8 o.stFirst.toNat ++ toLe 8 o.stTrig.toNat
    ++ toLe 4 o.pre ++ toLe 4 o.post ++ toLe 8 (o.size cfg) ++ toLe 2 (leAt cfg 8 2) ++ toLe 2 (if trace then 0 else (bobLanes cfg).length)
    ++ toLe 2 o.trig.toNat ++ toLe 2 o.extra ++ toLe 4 o.gap ++ List.replicate 12 0
    ++ (if trace then List.replicate 128 0 else slice cfg 0x20 128) ++ fitTo 512 cfg
  let h := fitTo 0xFFE h
  h ++ toLe 2 (crcBytes h)

/-- Byte i of an object: its header, then its frames time-major, a frame that was not received being zeros. -/
def Object.byteOf (o : Object) (hdr cfg : List Byte) (i : Nat) : Byte :=
  if i < 4096 then hdr.getD i 0
  else if byteAt cfg 1 = 2 then o.bytes.getD (i - 4096) 0
  else
    let lanes := bobLanes cfg
    let k := (i - 4096) / 200
    let step := o.first + k / max 1 lanes.length
    let lane := lanes.getD (k % max 1 lanes.length) 0
    match o.frames.find? fun f => f.step == step && f.lane == lane with
    | some f => BitVec.ofNat 8 ((f.words.getD ((i - 4096) % 200 / 8) 0).toNat >>> (8 * (i % 8)))
    | none => 0

/-- n bytes of an object from an offset. -/
def Object.read (o : Object) (b : Nat) (cfg : List Byte) (off n : Nat) : List Byte :=
  let hdr := o.header b cfg
  (List.range n).map fun i => o.byteOf hdr cfg (off + i)

/-- The words of 200 bytes. -/
def packWords (l : List Byte) : List DWord := (List.range 25).map fun i => BitVec.ofNat 64 (leAt l (8 * i) 8)

/-- The summary frame of R363. -/
def Red.frame (r : Red) : Frame :=
  let mean := fun (x : Int) => toLe 4 (toTwos 32 (if r.n = 0 then 0 else roundDiv x r.n))
  let rms := fun (x : Int) => toLe 4 (if r.n = 0 then 0 else rmsOf x r.n)
  let b := toLe 4 (toTwos 32 r.iMin) ++ toLe 4 (toTwos 32 r.iMax) ++ mean r.iSum ++ rms r.iSq
    ++ toLe 4 (toTwos 32 r.vMin) ++ toLe 4 (toTwos 32 r.vMax) ++ mean r.vSum ++ rms r.vSq
    ++ toLe 4 (r.stOr.toNat + 65536 * r.stLast.toNat) ++ toLe 2 r.good ++ toLe 2 r.bad ++ toLe 2 r.rng ++ [0, 0]
    ++ ((List.range 15).flatMap fun i => toLe 2 (r.aux.getD i 0)) ++ [0, 0] ++ toLe 8 r.trailer.toNat
  { step := r.step, lane := r.lane, words := packWords (fitTo 200 b) }

/-- Add a superframe of lane l to a summary: its pairs when it is good; the auxiliary values and the trailer are the last of the step. -/
def Red.add (r : Red) (l : Lane) (good changed : Bool) (st : BitVec 12) (ps : List Pair) : Red :=
  let r := { r with aux := (List.range 15).map fun i => (l.auxOf i).getD 0, trailer := l.lastTrailer }
  if !good then { r with bad := satInc 0xFFFF r.bad }
  else
    let first := r.n = 0
    let z := ps.headD { i := 0, v := 0, coarse := true, clip := false }
    let r := if first then { r with iMin := z.i, iMax := z.i, vMin := z.v, vMax := z.v } else r
    let r := ps.foldl (fun r p => { r with n := r.n + 1, iSum := r.iSum + p.i, iSq := r.iSq + p.i * p.i, iMin := min r.iMin p.i, iMax := max r.iMax p.i,
                                           vSum := r.vSum + p.v, vSq := r.vSq + p.v * p.v, vMin := min r.vMin p.v, vMax := max r.vMax p.v }) r
    { r with good := satInc 0xFFFF r.good, rng := if changed then satInc 0xFFFF r.rng else r.rng, stOr := r.stOr ||| st, stLast := st }

/-- Close the summaries of steps before one into frames. -/
def State.closeReds (s : State) (b step : Nat) : State :=
  let x := s.bob b
  let (done, rest) := x.reds.partition fun r => decide (r.step < step)
  s.setBob b { x with reds := rest, frames := x.frames ++ done.map Red.frame }

/-! ## The drain (R380 to R382) -/

/-- The bobbin, object and position of the drain that AQ a runs. -/
def State.draining (s : State) (a : Nat) : Option (Nat × Nat) := (s.cap.drain.find? fun e => e.1 == a).map (·.2)

/-- An object of bobbin b is being drained. -/
def State.bobDrains (s : State) (b : Nat) : Bool := s.cap.drain.any fun e => e.2.1 == b

/-- The state that CAPTURE.BOB_STAT shows (R373). -/
def State.bobState (s : State) (b : Nat) : BobState :=
  let x := s.bob b
  match x.st with
  | .isolated => .isolated
  | .gap => .gap
  | st =>
    match s.cap.drain.find? fun e => e.2.1 == b with
    | some (a, _) => if s.cap.stalledAq.contains a then .stalled else .draining
    | none => st

/-- Extents fetched for AQ a, oldest first. -/
def State.aqExtents (s : State) (a : Nat) : List Extent := tabGet (fun _ => []) s.extents a

/-- Put the extents of AQ a. -/
def State.setExtents (s : State) (a : Nat) (l : List Extent) : State := { s with extents := tabSet (fun _ => []) s.extents a l }

/-- The object of bobbin b with a number. -/
def State.objOf (s : State) (b q : Nat) : Option Object := (s.bob b).objects.find? fun o => o.seq.toNat == q

/-- Change the object of bobbin b with a number. -/
def State.modObj (s : State) (b q : Nat) (f : Object → Object) : State :=
  s.modBob b fun x => { x with objects := x.objects.map fun o => if o.seq.toNat = q then f o else o }

/-- 4 KiB units that an object still has to drain. -/
def State.unitsLeft (s : State) (b : Nat) (o : Object) : Nat := (o.size (s.bob b).cfg + 4095) / 4096 - o.drained / 4096

/-- Insert a range into the held map, which merges ranges that adjoin (R382). -/
def heldAdd : List (Nat × Nat) → Nat → Nat → List (Nat × Nat)
  | [], a, n => [(a, n)]
  | (b, m) :: t, a, n =>
    if a + n < b then (a, n) :: (b, m) :: t
    else if b + m < a then (b, m) :: heldAdd t a n
    else heldAdd t (min a b) (max (a + n) (b + m) - min a b)

/-- Free whatever lies within a range (R382). -/
def heldSub (l : List (Nat × Nat)) (a n : Nat) : List (Nat × Nat) :=
  l.flatMap fun (b, m) =>
    let lo := if b < min (b + m) a then [(b, min (b + m) a - b)] else []
    let hi := if max b (a + n) < b + m then [(max b (a + n), b + m - max b (a + n))] else []
    if a < b + m && b < a + n then lo ++ hi else [(b, m)]

/-- A range overlaps a held one. -/
def heldHits (l : List (Nat × Nat)) (a n : Nat) : Bool := l.any fun (b, m) => unitsOverlap a n b m

/-- Archive address and length of what an extent still has free. -/
def Extent.freeAt (e : Extent) : Nat × Nat := (e.arch + 4096 * e.used, 4096 * (e.len - e.used))

/-- Extents of AQ a that overlap a held range are consumed without being written (R382). -/
def State.refuseHeld (s : State) (a : Nat) : State :=
  let bad := fun (e : Extent) => heldHits s.cap.held e.freeAt.1 e.freeAt.2
  let l := s.aqExtents a
  (l.filter bad).foldl (fun s e => s.archEvent a 1 0 0 e.arch) (s.setExtents a (l.filter fun e => !bad e))

/-- The held map is full (R382). -/
def State.heldFull (s : State) : Bool := decide (1024 ≤ s.cap.held.length)

/-- AQ a stalls: no posted extent is left (R381). -/
def State.aqStall (s : State) (a b q : Nat) : State :=
  if s.cap.stalledAq.contains a then s
  else
    let len := match s.objOf b q with | some o => o.drained / 4096 | none => 0
    { s with cap := { s.cap with stalledAq := insertN s.cap.stalledAq a } }.archEvent a 2 b len 0

/-- Start the next drain of AQ a (R380 to R382, R388): the oldest committed object of its bobbins, unless BULK is enforced, or a window finds
the held map full. -/
def State.drainKick (s : State) (a : Nat) : State :=
  if (s.draining a).isSome || s.bulkOff then s
  else match s.cap.order.find? fun e => (s.bob e.1).bound == some a with
    | none => s
    | some (b, q) =>
      if (s.bob b).mode = 0 && s.heldFull then
        if s.cap.fullAq.contains a then s
        else { s with cap := { s.cap with fullAq := insertN s.cap.fullAq a } }.archEvent a 4 b 0 0
      else
        let s := { s with cap := { s.cap with drain := s.cap.drain ++ [(a, b, q)], fullAq := s.cap.fullAq.filter (· != a) } }
        let s := s.refuseHeld a
        if (s.aqExtents a).isEmpty then s.aqStall a b q else s

/-- Start what drains can start. -/
def State.drainAllAqs (s : State) : State := (List.range 8).foldl State.drainKick s

/-- Write units of an object into the first extent of its AQ. -/
def State.drainWrite (s : State) (a b : Nat) (o : Object) (e : Extent) (n : Nat) : State :=
  let (at_, _) := e.freeAt
  let s := s.emit (.archive (e.bus + 4096 * e.used) at_ o.drained (4096 * n) o)
  s.modObj b o.seq.toNat fun o => { o with drained := o.drained + 4096 * n, pieces := o.pieces ++ [(at_, 4096 * n)] }

/-- The drain of bobbin b is abandoned (R379): the extent's use up to that moment is a free value, and the object stays. -/
def State.drainAbandon (s : State) (b : Nat) : State :=
  match s.cap.drain.find? fun e => e.2.1 == b with
  | none => s
  | some (a, _, q) =>
    let (w, s) := s.freshWord
    let at_ := match s.objOf b q with
      | some o => (match o.pieces with | p :: _ => p.1 | [] => (match s.aqExtents a with | e :: _ => e.freeAt.1 | [] => 0))
      | none => 0
    let flags := match s.objOf b q with | some o => o.flags.toNat | none => 0
    let s := match s.aqExtents a with
      | e :: t => s.setExtents a ({ e with used := e.used + w.toNat % (e.len - e.used + 1) } :: t)
      | [] => s
    let s := s.modObj b q fun o => { o with drained := 0, pieces := [] }
    let s := { s with cap := { s.cap with drain := s.cap.drain.filter (fun e => e.1 != a), stalledAq := s.cap.stalledAq.filter (· != a) } }
    s.capEvent b 3 flags q at_

/-! ## Committing (R374, R376) -/

/-- A new object of bobbin b, which is numbered and takes its place in the commit order. -/
def State.addObject (s : State) (b : Nat) (o : Object) : State :=
  let s := s.modBob b fun x => { x with objects := x.objects ++ [o], seq := x.seq + 1 }
  { s with cap := { s.cap with order := s.cap.order ++ [(b, o.seq.toNat)] } }

/-- Drop an object. -/
def State.dropObject (s : State) (b q : Nat) : State :=
  let s := s.modBob b fun x => { x with objects := x.objects.filter fun o => o.seq.toNat != q }
  { s with cap := { s.cap with order := s.cap.order.filter fun e => !(e.1 == b && e.2 == q) } }

/-- FLAGS of an object but for what happened to it. -/
def Bobbin.objFlags (x : Bobbin) (short truncated : Bool) : Byte :=
  BitVec.ofNat 8 (b2n short + 2 * b2n x.gapBefore + 4 * b2n (bobFlag x.cfg 0) + 8 * b2n truncated)

/-- PRE steps stored, and whether fewer were there than asked for (R372). -/
def Bobbin.preStored (x : Bobbin) : Nat × Bool :=
  let have_ := x.trigStep - x.since.getD x.trigStep
  (min (bobPre x.cfg) have_, decide (have_ < bobPre x.cfg))

/-- Commit the window of bobbin b with a number of post-trigger steps (R374): hardware source 18, its CAPTURE event, LOCKED, and its drain. -/
def State.commitWindow (s : State) (b post : Nat) (truncated : Bool) : State :=
  let x := s.bob b
  let s := s.closeReds b (x.trigStep + post)
  let x := s.bob b
  let (pre, short) := x.preStored
  let first := x.trigStep - pre
  let f := x.objFlags short truncated
  let o : Object :=
    { seq := x.seq, flags := f, stFirst := BitVec.ofNat 64 (first * bobDec x.cfg * 1024), stTrig := x.stTrig, first := first, pre := pre, post := post, trig := x.trig, extra := x.extra, gap := 0,
      frames := x.frames.filter fun e => decide (first ≤ e.step ∧ e.step < x.trigStep + post), bytes := [], pieces := [], drained := 0 }
  let s := s.setBob b { x with st := .locked, frames := [], reds := [], hits := [] }
  let s := (s.addObject b o).source 18 b
  let s := s.capEvent b (if truncated then 6 else 1) f.toNat o.seq.toNat o.stTrig.toNat
  match x.bound with
  | some a => s.drainKick a
  | none => s

/-- A STREAM or TRACE bobbin has a free chunk to record into (R376). -/
def Bobbin.room (x : Bobbin) : Bool := decide (x.objects.length + 1 ≤ bobChunks x.cfg)

/-- GAP begins (R376): the chunk being gathered is given up, its steps counted as not recorded (log entry 38). -/
def State.gapEnter (s : State) (b lostSteps : Nat) : State :=
  let s := s.modBob b fun x => { x with st := .gap, gap := min (2 ^ 32 - 1) lostSteps, gapBefore := true, frames := [], reds := [], cur := [], since := none }
  s.capEvent b 5 0 (s.bob b).seq.toNat 0

/-- GAP ends when a chunk is free again and BULK is not enforced (R376, R388). -/
def State.gapLeave (s : State) (b : Nat) : State :=
  let x := s.bob b
  if x.st == .gap && x.room && (!s.bulkOff || x.mode == 2) then s.setBob b { x with st := .armed, since := none } else s

/-- Commit the current chunk of bobbin b (R376); with no room for the next one the bobbin enters GAP. -/
def State.commitChunk (s : State) (b : Nat) : State :=
  let x := s.bob b
  let first := x.since.getD 0
  let n := bobChunk x.cfg
  let s := s.closeReds b (first + n)
  let x := s.bob b
  let base : Object :=
    { seq := x.seq, flags := x.objFlags false false, stFirst := BitVec.ofNat 64 (first * bobDec x.cfg * 1024), stTrig := 0, first := first, pre := 0, post := n, trig := 0, extra := 0, gap := x.gap,
      frames := x.frames.filter fun e => decide (e.step < first + n), bytes := [], pieces := [], drained := 0 }
  let o : Object := if x.mode = 2 then { base with stFirst := x.curFirst, first := 0, post := 0, frames := [], bytes := x.cur } else base
  let s := s.setBob b { x with frames := x.frames.filter (fun e => decide (first + n ≤ e.step)), cur := [], since := if x.mode = 2 then none else some (first + n), gap := 0, gapBefore := false }
  let s := s.addObject b o
  let s := if (s.bob b).room then s else s.gapEnter b 0
  let s := match x.bound with
    | some a => s.drainKick a
    | none => s
  s.traceFlush

/-- After a chunk has left: GAP may end and buffered trace records go on. -/
def State.chunkFreed (s : State) (b : Nat) : State := (s.gapLeave b).traceFlush

/-! ## Triggers (R369 to R372) -/

/-- Terms true in superframe f. -/
def Bobbin.trueTerms (x : Bobbin) (f : Nat) : List Nat :=
  (List.range 4).filter fun k => x.hits.any fun (i, a, _) => i == k && decide (a ≤ f ∧ f ≤ a + termHold x.cfg k)

/-- Evaluate the postfix expression over the true terms. -/
def exprVal (on : List Nat) : List Nat → List Bool → Bool
  | [], st => st.headD false
  | o :: t, st =>
    if o ≤ 4 then exprVal on t (on.contains (o - 1) :: st)
    else match o, st with
      | 5, a :: b :: r => exprVal on t ((a && b) :: r)
      | 6, a :: b :: r => exprVal on t ((a || b) :: r)
      | 7, a :: b :: r => exprVal on t ((a != b) :: r)
      | 8, a :: r => exprVal on t ((!a) :: r)
      | _, _ => false

/-- Terms pushed without NOT: not followed by a NOT at once (R371). -/
def plainTerms : List Nat → List Nat
  | [] => []
  | o :: t => if o ≤ 4 && t.head? != some 8 then (o - 1) :: plainTerms t else plainTerms t

/-- The trigger is true in superframe f, and the terms that can give the trigger pair. -/
def Bobbin.trigger (x : Bobbin) (f : Nat) : Bool × List Nat :=
  let on := x.trueTerms f
  if bobFlag x.cfg 2 then (exprVal on (exprOps x.cfg) [], (plainTerms (exprOps x.cfg)).filter on.contains) else (!on.isEmpty, on)

/-- The earliest instant of hits that a test accepts. -/
def Bobbin.firstHit (x : Bobbin) (p : Nat → Nat → Bool) : Option Nat :=
  minOf ((x.hits.filter fun e => p e.1 e.2.1).map fun e => e.2.2.toNat)

/-- Evaluate superframe f of a WINDOW bobbin (R371, R374). -/
def State.evalTrigger (s : State) (b f : Nat) : State :=
  let x := s.bob b
  let (t, terms) := x.trigger f
  let host := x.hits.any fun e => e.1 == 4 && e.2.1 == f
  let kept := x.hits.filter fun e => decide (f < e.2.1 + termHold x.cfg e.1 ∨ f < e.2.1)
  let y := { x with hits := kept, was := t }
  if x.st == .armed && (t || host) then
    let pt := if !t then none
      else some ((x.firstHit fun k a => terms.contains k && decide (a ≤ f ∧ f ≤ a + termHold x.cfg k)).getD (f * 1024))
    let ph := if host then x.firstHit fun k a => k == 4 && a == f else none
    let pair := match pt, ph with
      | some a, some h => min a h
      | some a, none => a
      | none, some h => h
      | none, none => f * 1024
    let bits := sumN ((x.trueTerms f).map (2 ^ ·)) + 16 * b2n host
    let y := { y with st := .post, stTrig := BitVec.ofNat 64 pair, trigStep := pair / 1024 / bobDec x.cfg, trig := BitVec.ofNat 16 bits, extra := 0, trigOp := none }
    let s := (s.setBob b y).source 17 b
    let s := s.capEvent b 0 (y.objFlags y.preStored.2 false).toNat y.seq.toNat pair
    match x.trigOp with
    | some o => (s.modOp o fun p => { p with committed := true }).completeTag o stOk 0 pair
    | none => s
  else
    let y := if t && !x.was && x.st != .armed then
        { y with missed := satInc 0xFFFF x.missed, extra := if x.st == .post then satInc 0xFFFF x.extra else x.extra }
      else y
    let s := s.setBob b { y with trigOp := none }
    match x.trigOp with
    | some o => if x.st == .armed then s.setBob b { y with trigOp := x.trigOp } else s.completeTag o stBusy
    | none => s

/-- STATUS and COMPARE terms that a CRC-good superframe of lane n satisfies, with their instants (R369): `strobe` is its strobe. -/
def State.termHits (s : State) (x : Bobbin) (n strobe : Nat) (st : BitVec 12) (ps : List Pair) : List (Nat × Nat) :=
  (List.range 4).filterMap fun k =>
    let opt := termOpt x.cfg k
    if termLane x.cfg k ≠ n then none
    else match termKind x.cfg k with
      | 3 =>
        let v := if opt = 1 then s.cellFlags n else st.toNat
        if v &&& termSel x.cfg k ≠ 0 then some (k, strobe + 63 * 16) else none
      | 4 =>
        let thr := sleAt x.cfg (0xA8 + 32 * k) 4
        let ok := fun (p : Pair) =>
          let q := if opt % 4 = 1 then p.v else p.i
          match opt / 4 with
          | 0 => decide (thr < q)
          | 1 => decide (q < thr)
          | _ => decide (thr < (q.natAbs : Int))
        (((List.range 64).zip ps).find? fun e => ok e.2).map fun e => (k, strobe + 16 * e.1)
      | _ => none

/-! ## Storing superframes (R362, R363) -/

/-- A superframe of lane n is stored in bobbin b, if that records the lane now: zeros without superframe lock, whole at DEC 1 and under PICK (R362), as a part of its step's summary under REDUCE (R363). -/
def State.bobStore (s : State) (b n f : Nat) (w : List DWord) (good changed : Bool) (st : BitVec 12) (ps : List Pair) : State :=
  let x := s.bob b
  let dec := bobDec x.cfg
  let step := f / dec
  let rec_ := x.st == .armed || x.st == .post
  let lock := (s.lane n).locked
  if !rec_ || x.mode = 2 || !(bobLanes x.cfg).contains n then s
  else
    let since := x.since.getD (if f % dec = 0 then step else step + 1)
    let x := { x with since := some since }
    if step < since then s.setBob b x
    else
      let x :=
        if bobFlag x.cfg 0 && dec != 1 then
          let r := (x.reds.find? fun r => r.lane == n && r.step == step).getD { step := step, lane := n }
          let others := x.reds.filter fun r => !(r.lane == n && r.step == step)
          let (old, others) := others.partition fun r => r.lane == n
          { x with reds := others ++ if lock then [r.add (s.lane n) good changed st ps] else [r], frames := x.frames ++ old.map Red.frame }
        else if f % dec = 0 then { x with frames := x.frames ++ [{ step := step, lane := n, words := if lock then w else [] }] }
        else x
      let keepFrom := if x.mode = 0 && x.st == .armed then step - (bobPre x.cfg + 64) else 0
      s.setBob b { x with frames := x.frames.filter fun e => decide (keepFrom ≤ e.step) }

/-- A superframe of lane n with its strobe goes to bobbin b: the superframe before it is evaluated once a later one arrives, then it is stored and its
terms are noted. -/
def State.bobFrame (s : State) (b n strobe : Nat) (w : List DWord) (good changed : Bool) (st : BitVec 12) (ps : List Pair) : State :=
  let x := s.bob b
  let f := strobe / 1024
  let live := x.st == .armed || x.st == .post || x.st == .locked || x.st == .gap
  if !live || s.bulkOff then s
  else
    let adv := match x.sf with | some g => decide (g < f) | none => true
    let s := match x.sf with
      | some g => if adv && x.mode == 0 then s.evalTrigger b g else s
      | none => s
    let s := if adv then s.modBob b fun x =>
        let d := match x.sf with | some g => f / bobDec x.cfg - g / bobDec x.cfg | none => 0
        { x with sf := some f, gap := if x.st == .gap && x.mode == 1 then min (2 ^ 32 - 1) (x.gap + d) else x.gap }
      else s
    let s := s.bobStore b n f w good changed st ps
    if good && (s.bob b).mode = 0 then
      (s.termHits (s.bob b) n strobe st ps).foldl (fun s e => s.modBob b fun x => x.hit e.1 (BitVec.ofNat 64 e.2)) s
    else s

/-- A superframe of lane n goes to every configured bobbin (R47, R362). -/
def State.capFrame (s : State) (n strobe : Nat) (w : List DWord) (good changed : Bool) (st : BitVec 12) (ps : List Pair) : State :=
  s.bobs.foldl (fun s e => s.bobFrame e.1 n strobe w good changed st ps) s

/-! ## Throttling (R388) -/

/-- A change in whether BULK is enforced: recording stops with TRUNCATED windows and streams in GAP and drains pause; released, armed bobbins record
again and drains resume. -/
def State.bulkGate (s : State) : State :=
  if s.bulkOff && !s.cap.paused then
    let s := { s with cap := { s.cap with paused := true } }
    s.bobs.foldl (fun s (b, x) =>
      let done := match x.sf with | some f => (f + 1) / bobDec x.cfg | none => 0
      if x.st == .post then s.commitWindow b (min (bobPost x.cfg) (done - x.trigStep)) true
      else if x.st == .armed && x.mode = 1 then s.gapEnter b (match x.since with | some a => done - a | none => 0)
      else if x.st == .armed && x.mode = 0 then s.modBob b fun x => { x with frames := [], reds := [], hits := [], since := none }
      else s) s
  else if !s.bulkOff && s.cap.paused then
    let s := { s with cap := { s.cap with paused := false } }
    let s := s.bobs.foldl (fun s e => s.gapLeave e.1) s
    s.drainAllAqs.traceFlush
  else s

/-! ## Operations -/

/-- The bobbin lies inside a closed selvedge (R378). -/
def State.bobIso (s : State) (b : Nat) : Bool := s.selvClosed 2 b

/-- BOBBIN_CFG (R367, R368). -/
def execBobbinCfg (o : Nat) (s : State) : Host.Outcome State Fault Refusal :=
  .next <| opRun s o 0x40 noBad noPre fun op s =>
    let b := op.u8 8
    let c := op.bytes
    if op.data.isNone then s
    else if s.bobBad b c then s.complete op stBadDesc
    else if s.bobIso b then s.complete op stIsolated
    else if !((s.bob b).st == .unconfigured || (s.bob b).st == .idle) then s.complete op stBusy
    else if bobTooLarge c then s.complete op stTooLarge
    else ((s.commit op).modBob b fun x => { cfg := c, st := .idle, bound := x.bound, seq := x.seq, missed := x.missed }).complete op stOk

/-- Write rate of a configured bobbin as lanes over DEC (R364). -/
def bobRate (cfg : List Byte) : Nat × Nat := if byteAt cfg 1 = 2 then (0, 1) else ((bobLanes cfg).length, bobDec cfg)

/-- The sum of the rates of the armed bobbins and one more, as a fraction (R364). -/
def State.armedRate (s : State) (extra : Nat × Nat) : Nat × Nat :=
  s.bobs.foldl (fun r e =>
    if e.2.st == .armed || e.2.st == .post || e.2.st == .gap then
      let q := bobRate e.2.cfg
      (r.1 * q.2 + q.1 * r.2, r.2 * q.2)
    else r) extra

/-- Arm bobbin b: its marks are armed and its terms start afresh. -/
def State.bobArm (s : State) (b : Nat) : State :=
  let s := s.modBob b fun x => { x with st := .armed, since := none, sf := none, hits := [], was := false, frames := [], reds := [], cur := [], extra := 0, gap := 0, gapBefore := false }
  let cfg := (s.bob b).cfg
  let s := s.marksCancel fun w => match w with | .trigger c _ => c == b | _ => false
  (List.range 4).foldl (fun s k =>
    if byteAt cfg 1 = 0 && termKind cfg k = 1 && !s.markBad (slice cfg (0xB0 + 32 * k) 16) then s.armMark (.trigger b k) (slice cfg (0xB0 + 32 * k) 16) else s) s

/-- Disarm bobbin b: IDLE, its marks withdrawn; a BOBBIN_TRIGGER that still waits for its superframe finds it no longer armed. -/
def State.bobIdle (s : State) (b : Nat) : State :=
  let o := (s.bob b).trigOp
  let s := s.marksCancel fun w => match w with | .trigger c _ => c == b | _ => false
  let s := s.modBob b fun x => { cfg := x.cfg, st := .idle, bound := x.bound, seq := x.seq, missed := x.missed }
  match o with
  | some o => s.completeTag o stBusy
  | none => s

/-- A MARK term of bobbin b is refused under R230 now. -/
def State.armBad (s : State) (b : Nat) : Bool :=
  let c := (s.bob b).cfg
  byteAt c 1 == 0 && (List.range 4).any fun k => termKind c k == 1 && s.markBad (slice c (0xB0 + 32 * k) 16)

/-- BOBBIN_ARM (R364, R374); an armed bobbin stays armed, and one without a record is not ready (log entry 38). -/
def execBobbinArm (o : Nat) (s : State) : Host.Outcome State Fault Refusal :=
  .next <| opRun s o 0x41 (fun op s => s.armBad (op.u8 8)) (fun op s => if (s.bob (op.u8 8)).cfg = [] then some stNotReady else none) fun op s =>
    let b := op.u8 8
    let x := s.bob b
    let (n, d) := s.armedRate (bobRate x.cfg)
    if s.bobIso b then s.complete op stIsolated
    else if x.st == .post || x.st == .locked || s.bobDrains b then s.complete op stBusy
    else if x.st == .armed || x.st == .gap then (s.commit op).complete op stOk
    else if 1024 * d < n then s.complete op stTooLarge
    else ((s.commit op).bobArm b).complete op stOk

/-- BOBBIN_TRIGGER (R371, R374): the trigger is taken in the superframe that contains the first pair at or after now; a bobbin that is not an armed window is
BUSY, or not ready when it is not armed at all. -/
def execBobbinTrigger (o : Nat) (s : State) : Host.Outcome State Fault Refusal :=
  let pre := fun (op : Op) (s : State) =>
    let x := s.bob (op.u8 8)
    if op.accepted then none else if x.mode != 0 || x.cfg == [] || x.st == .idle then some stNotReady else none
  .next <| opRun s o 0x42 noBad pre fun op s =>
    let b := op.u8 8
    if op.accepted then s
    else if s.bobIso b then s.complete op stIsolated
    else if (s.bob b).st != .armed || (s.bob b).trigOp.isSome then s.complete op stBusy
    else
      let s := s.putOp { op with accepted := true }
      s.modBob b fun x => { x.hit 4 s.time.st with trigOp := some op.tag }

/-- BOBBIN_READ (R366, R377): which frame an uncorrectable error concerns, and so how much was written before it, is a free value. -/
def execBobbinRead (o : Nat) (ecc : Ecc) (s : State) : Host.Outcome State Fault Refusal :=
  let pre := fun (op : Op) (s : State) => if (s.bob (op.u8 8)).objects.isEmpty then some stNotReady else none
  .next <| opRun s o 0x43 noBad pre fun op s =>
    let b := op.u8 8
    let x := s.bob b
    if s.bobIso b then s.complete op stIsolated
    else match x.objects with
      | [] => s
      | obj :: _ =>
        let off := op.u64 0x10
        let len := op.u32 0x18
        let size := obj.size x.cfg
        let n := min len (size - off)
        let s := s.commit op
        match ecc with
        | .uncorrectable =>
          let (w, s) := s.freshWord
          let k := w.toNat % (n + 1)
          let s := ({ s with cap := { s.cap with ue := true } }.eccEvent 5 0xFFFF).modObj b obj.seq.toNat fun q => { q with flags := q.flags ||| 0x10 }
          (s.emit (.hostWrite (op.u64 0x20) (obj.read b x.cfg off k))).complete op stMediaError 0 k
        | c =>
          let s := if c = .corrected then { s with cap := { s.cap with ce := satInc 0xFFFF s.cap.ce } } else s
          let s := s.emit (.hostWrite (op.u64 0x20) (obj.read b x.cfg off n))
          s.complete op (if size < off + len then stPartial else stOk) 0 n

/-- BOBBIN_RELEASE (R375, R376). -/
def execBobbinRelease (o : Nat) (s : State) : Host.Outcome State Fault Refusal :=
  .next <| opRun s o 0x44 noBad noPre fun op s =>
    let b := op.u8 8
    let x := s.bob b
    if s.bobIso b then s.complete op stIsolated
    else if s.bobDrains b then s.complete op stBusy
    else
      let s := s.commit op
      let s := match x.objects, x.mode with
        | q :: _, 0 => (s.dropObject b q.seq.toNat).bobIdle b
        | q :: _, _ => (s.dropObject b q.seq.toNat).chunkFreed b
        | [], _ => if x.st == BobState.armed || x.st == BobState.post || x.st == BobState.gap then s.bobIdle b else s
      s.complete op stOk

/-- ARCHIVE_BIND (R379). -/
def execArchiveBind (o : Nat) (s : State) : Host.Outcome State Fault Refusal :=
  .next <| opRun s o 0x45 noBad noPre fun op s =>
    let a := op.u8 8
    let m := op.u8 9
    if (List.range 8).any fun b => bitOf m b && s.bobIso b then s.complete op stIsolated
    else
      let s := (List.range 8).foldl (fun s b =>
        let was := (s.bob b).bound
        let now := if bitOf m b then some a else if was = some a then none else was
        if now = was then s else (s.drainAbandon b).modBob b fun x => { x with bound := now }) (s.commit op)
      s.drainAllAqs.complete op stOk

/-- ARCHIVE_RELEASE (R382). -/
def execArchiveRelease (o : Nat) (s : State) : Host.Outcome State Fault Refusal :=
  .next <| opRun s o 0x46 (fun op _ => !archRangeOk op.desc) noPre fun op s =>
    let s := { (s.commit op) with cap := { s.cap with held := heldSub s.cap.held (op.u64 8) (op.u64 0x10) } }
    s.drainAllAqs.complete op stOk

/-- TRACE_CTL (R384, R386). -/
def execTraceCtl (o : Nat) (s : State) : Host.Outcome State Fault Refusal :=
  let rec_ := fun (op : Op) => slice op.desc 8 16
  let bad := fun (op : Op) (s : State) =>
    let r := rec_ op
    !traceCtlOk op.desc || byteAt (s.bob (byteAt r 3 % 8)).cfg 1 != 2
  .next <| opRun s o 0x47 bad noPre fun op s =>
    let r := rec_ op
    let was := s.traceEn
    if s.bobIso (byteAt r 3 % 8) then s.complete op stIsolated
    else
      let now := bitOf (byteAt r 3) 7
      let s := s.commit op
      let s := if was && !now then s.tack 2 else s
      let s := { s with cap := { s.cap with traceCtl := r } }
      let s := if !was && now then { s with cap := { s.cap with lastAt := s.time.st, tackAt := s.time.st, halted := false } }.tack 1 else s
      (if now then s.traceGate else s).complete op stOk

/-! ## Commits and the drain -/

/-- WINDOW_COMMIT (R374): the last post-trigger step has been stored. -/
def execWindowCommit (b : Fin 8) (s : State) : Host.Outcome State Fault Refusal :=
  let x := s.bob b
  let full := match x.sf with | some f => decide ((x.trigStep + bobPost x.cfg) * bobDec x.cfg ≤ f + 1) | none => false
  .next (if x.st == .post && full then s.commitWindow b (bobPost x.cfg) false else s)

/-- CHUNK_COMMIT (R376): the current chunk is full. -/
def execChunkCommit (b : Fin 8) (s : State) : Host.Outcome State Fault Refusal :=
  let x := s.bob b
  let full := match x.mode with
    | 1 => (match x.sf, x.since with | some f, some a => decide ((a + bobChunk x.cfg) * bobDec x.cfg ≤ f + 1) | _, _ => false)
    | 2 => decide (chunkBytes x.cfg ≤ x.cur.length)
    | _ => false
  .next (if x.st == .armed && full then s.commitChunk b else s)

/-- What an error of capture memory does to the object being drained (R366): some frame, a free one, is delivered as zeros and MEDIA sets. -/
def State.mediaDrain (s : State) (b q : Nat) (ecc : Ecc) : State :=
  match ecc with
  | .ok => s
  | .corrected => { s with cap := { s.cap with ce := satInc 0xFFFF s.cap.ce } }
  | .uncorrectable =>
    let (w, s) := s.freshWord
    ({ s with cap := { s.cap with ue := true } }.eccEvent 5 0xFFFF).modObj b q fun o =>
      { o with flags := o.flags ||| 0x10, frames := o.frames.eraseIdx (w.toNat % max 1 o.frames.length) }

/-- The object being drained fills the first extent, which is consumed; with no extent left the drain stalls (R380, R381). -/
def State.extentDone (s : State) (a : Nat) (ecc : Ecc) : State :=
  match s.draining a, s.aqExtents a with
    | some (b, q), e :: t =>
      match s.objOf b q with
      | none => s
      | some _ =>
        let s := s.mediaDrain b q ecc
        match s.objOf b q with
        | none => s
        | some o =>
          let free := e.len - e.used
          let left := s.unitsLeft b o
          if s.bulkOff || left < free then s
          else
            let s := ((s.drainWrite a b o e free).setExtents a t).archEvent a 0 b e.len e.arch
            if t.isEmpty && decide (free < left) then s.aqStall a b q else s
    | _, _ => s

/-- The object's last units are written; it is reported DRAINED, a window's ranges are held, and the bobbin rearms, idles or goes
on. -/
def State.drainEnd (s : State) (a : Nat) : State :=
  match s.draining a with
    | none => s
    | some (b, q) =>
      match s.objOf b q with
      | none => s
      | some o =>
        let left := s.unitsLeft b o
        let fits := match s.aqExtents a with
          | e :: _ => decide (left ≤ e.len - e.used)
          | [] => left == 0
        if s.bulkOff || !fits then s
        else
          let s := match s.aqExtents a with
            | e :: t =>
              if left = 0 then s
              else
                let s := s.drainWrite a b o e left
                if e.used + left = e.len then (s.setExtents a t).archEvent a 0 b e.len e.arch else s.setExtents a ({ e with used := e.used + left } :: t)
            | [] => s
          let pieces := match s.objOf b q with | some o => o.pieces | none => []
          let x := s.bob b
          let s := { s with cap := { s.cap with drain := s.cap.drain.filter (fun e => e.1 != a), stalledAq := s.cap.stalledAq.filter (· != a) } }
          let s := s.dropObject b q
          let s := if x.mode = 0 then { s with cap := { s.cap with held := pieces.foldl (fun h p => heldAdd h p.1 p.2) s.cap.held } } else s
          let s := s.capEvent b 2 o.flags.toNat q (match pieces with | p :: _ => p.1 | [] => 0)
          let s := if x.mode = 0 then (if bobFlag x.cfg 1 then s.bobArm b else s.bobIdle b) else s.chunkFreed b
          ((List.range 8).foldl State.refuseHeld s).drainAllAqs

/-- EXTENT_DONE (R380, R381). -/
def execExtentDone (a : Fin 8) (ecc : Ecc) (s : State) : Host.Outcome State Fault Refusal := .next (s.extentDone a ecc)

/-- DRAIN_COMPLETE (R375, R380, R382). -/
def execDrainComplete (a : Fin 8) (s : State) : Host.Outcome State Fault Refusal := .next (s.drainEnd a)

/-- The next PERIODIC tack (R384, R386): TACK_INT, or 1,000 us, after the last one. -/
def State.tackDue (s : State) : DWord :=
  let us := leAt s.cap.traceCtl 4 4
  s.cap.tackAt + BitVec.ofNat 64 (16000 * (if us = 0 then 1000 else us))

/-- TRACE_TACK (R386): a PERIODIC tack, once TACK_INT has passed. -/
def execTraceTack (s : State) : Host.Outcome State Fault Refusal :=
  .next (if s.traceEn && !s.cap.halted && s.reached s.tackDue then { s with cap := { s.cap with tackAt := s.time.st } }.tack 0 else s)

end Sys2Proof.Machine
end

