-- ==== Sys2Proof/Machine/Rails.lean ====
section
/-! DEFINITION. Rails: page swaps (R162, R165), the hardware words (R172 to R174), grant words and envelope (R176 to R178), states (R167 to R171, R600), feeders (R181 to
R189), drives (R191), sources (R192 to R195), stores (R196 to R200) and the hand-over (R201 to R204, R602). -/

namespace Sys2Proof.Machine

/-! ## Reading a rail -/

/-- A GRANTED grant for the rail has started and has not ended (R170). -/
def State.grantOn (s : State) (m : Nat) : Bool := s.plan.grants.any fun g => g.rail == m && g.started

/-- Write SETPOINT and increment SP_SEQ (R172); a new set-point ends TAPER_DONE and the latches that wait for one (R191, R197, R199). -/
def State.writeSetpoint (s : State) (m : Nat) (v : Word) : State :=
  let s := s.rmPut m 0x80 4 v.toNat
  let s := s.rmPut m 0x84 4 (s.rmLe m 0x84 4 + 1)
  s.modRail m fun r => { r with spNew := true }

/-- Write RAIL_FLAGS (R172). -/
def State.putFlags (s : State) (m : Nat) : State := s.rmPut m 0x48 4 (s.rail m).flags

/-- The STORE rails. -/
def State.stores (s : State) : List (Nat × Rail) := s.rails.filter fun e => e.2.isKind 3

/-- The stores in TAKING (R202). -/
def State.takers (s : State) : List (Nat × Rail) := s.stores.filter fun e => e.2.st == .run && e.2.sub == 5

/-! ## Page swaps of a rail (R33, R162, R165, R168) -/

/-- The fields that may change only while the rail is OFF or STOPPED (R165). -/
def fixedFields (p : List Byte) : List Nat :=
  [rpKind p, byteAt p 2, rpLead p, leAt p 6 2, rpPeriod p, leAt p 0xC 4, leAt p 0x40 32, b2n (rpFlag p 1)]

/-- A swap of a page would change a fixed field of the rail in a state that forbids it (R165). -/
def Rail.swapBusy (r : Rail) (page : List Byte) : Bool :=
  !(r.st == .off || r.st == .stopped) && fixedFields r.active != fixedFields page

/-- New STORE fields let a store leave TAPER_DONE and BLOCKED when one of them changes or the stale limits are renewed (R197, R200); a drive waits for a new set-point (R191). -/
def Rail.renews (r : Rail) (fields : List Byte) : Bool :=
  r.spNew || (r.isKind 3 && (r.limitsStale || slice r.active 0x100 fields.length != fields))

/-- The page that the ordered swap of rail m brings becomes active now: OFF becomes STOPPED (R168), the period in force is the page's unless the rail is synchronised or gliding, the STORE fields are renewed (R200) and a
source binds its cycle source (R225). -/
def State.swapRailNow (s : State) (m : Nat) : State :=
  let r := s.rail m
  let o := r.swapOp.map (·.1)
  if r.swapBusy r.swapPage then
    let s := { s.setRail m { r with swapOp := none, swapPage := [] } with
      cells := s.cells.map fun (e : Nat × Cell) => if o.isSome && e.2.swapOp == o then (e.1, { e.2 with swapOp := none, swapPage := [] }) else e }
    match o with | some t => s.completeTag t stBusy | none => s
  else
    let free := !r.synced && !r.glide
    let s := s.setRail m
      { r with active := r.swapPage, staged := [], swapOp := none, swapPage := [], st := if r.st == .off then .stopped else r.st,
               tAct := if free then rpPeriod r.swapPage else r.tAct, limitsStale := false, spNew := r.renews (slice r.swapPage 0x100 32), renewAt := s.time.st }
    let s := s.cycBind
    match o with
    | some t => (s.modOp t fun p => { p with value := s.time.st.toNat % 2 ^ 32, committed := true }).swapDone t
    | none => s

/-! ## Hand-over (R201 to R204, R602) -/

/-- A HELD source enters QUALIFYING (R202, R203, R602). -/
def State.releaseHeld (s : State) : State :=
  s.rails.foldl (fun s (m, r) => if r.isKind 0 && r.sub == 6 then s.modRail m fun r => { r with sub := 1 } else s) s

/-- HO_FAIL (R201): in CHG_EVT of every bus-forming STORE rail and in SAFETY.STAT, one HANDOVER event, hardware source 13; the hand-over ends. -/
def State.hoFail (s : State) (lostRail : Nat) : State :=
  let s := s.stores.foldl (fun s (m, r) => if rpFlag r.active 3 then s.chgSet m 9 else s) s
  let s := (s.safety 6).event 0x08 0xFF [3, BitVec.ofNat 8 lostRail]
  let s := s.source 13 (2 ^ 31 + lostRail % 64)
  ({ s with ho := {} }).releaseHeld

/-- The source rail that a HANDOVER event names: the one lost last. -/
def State.hoLost (s : State) : Nat := s.ho.lost.getLastD 0

/-- A store has left the hand-over (R602); when it was the last before HANDOVER_DONE, the hand-over fails. -/
def State.leftHo (s : State) : State :=
  if s.ho.on && s.takers.isEmpty && !(s.stores.any fun e => e.2.takeReq) then s.hoFail s.hoLost else s

/-- A HANDOVER event of a store rail with its CHG_EVT bit (R201, R202, R205, R353). -/
def State.hoEvent (s : State) (m code bit : Nat) : State :=
  (s.chgSet m bit).event 0x08 m [BitVec.ofNat 8 code, BitVec.ofNat 8 s.hoLost]

/-- A store may take part in a hand-over (R201): bus-forming, started, its battery above V_DIS_MIN. -/
def State.mayTake (s : State) (m : Nat) (r : Rail) : Bool :=
  rpFlag r.active 3 && (r.st == .standby || r.st == .armed || r.st == .run)
    && decide (100 * (leAt r.active 0x108 2 : Nat) < s.vBat m)

/-- An ONLINE source is lost (R201, R202, R203): every eligible store is to enter TAKING at its next boundary, the lost power joins the hand-over's target and the
count of periods starts again; with no store the hand-over fails. -/
def State.hoStart (s : State) (lostRail : Nat) : State :=
  let going := s.ho.on || s.stores.any fun e => e.2.st == .run && (e.2.sub == 5 || e.2.sub == 6)
  let lost := (if going then s.ho.lost.filter fun i => (s.rail i).sub != 4 || (s.rail i).lost && i != lostRail else []) ++ [lostRail]
  let s := { s with ho := { on := true, count := 0, lost := lost, late := s.ho.on && s.ho.late, since := if s.ho.on then s.ho.since else s.time.st } }
  let s := s.stores.foldl (fun s (m, r) =>
    if !(r.st == .run && r.sub == 5) && s.mayTake m r then s.modRail m fun r => { r with takeReq := true } else s) s
  if s.takers.isEmpty && !(s.stores.any fun e => e.2.takeReq) then s.hoFail lostRail else s

/-- A store enters TAKING at its lead's boundary (R201), in RUN; ARM goes to its cells at once (R399). Its bus former starts from the current and power that flow (log entry 7). -/
def State.enterTaking (s : State) (m : Nat) : State :=
  let r := s.rail m
  let s := s.setRail m { r with takeReq := false }
  if !s.mayTake m r then s.leftHo
  else
    let s := s.modRail m fun r => { r with st := .run, sub := 5 }
    let s := (s.rmPutI m 0x100 8 (-65536 * s.rmInt m 0x18 4)).rmPutI m 0x110 8 r.pMeas
    let s := (rpCells m r.active ++ (rpSense r.active).toList).foldl (fun s n => s.modLane n fun l => { l with armSince := 64 }) s
    (s.hoEvent m 0 6).source 11 m

/-- The stores in TAKING enter RETURNING (R204). -/
def State.returnAll (s : State) : State := s.takers.foldl (fun s (k, _) => s.modRail k fun r => { r with sub := 6 }) s

/-- A lost source of the hand-over has reached ONLINE again (R204). -/
def State.hoBack (s : State) : Bool := s.ho.lost.any fun i => (s.rail i).isKind 0 && (s.rail i).st == .run && (s.rail i).sub == 4 && !(s.rail i).lost

/-- HANDOVER_DONE (R202, R203): four consecutive periods in band; HO_DONE for each store in TAKING, and each HELD source enters QUALIFYING. A source that is back already lets the stores return (R204). -/
def execHandoverDone (s : State) : Host.Outcome State Fault Refusal :=
  .next <|
    if s.ho.on && decide (4 ≤ s.ho.count) then
      let s := s.takers.foldl (fun s (m, _) => (s.hoEvent m 1 7).source 12 m) s
      let s := ({ s with ho := { s.ho with on := false, count := 0 } }).releaseHeld
      if s.hoBack then s.returnAll else s
    else s

/-- The stores of the hand-over: in TAKING, or on their way there at their next boundary (R201). -/
def State.hoStores (s : State) : List (Nat × Rail) := s.stores.filter fun e => (e.2.st == .run && e.2.sub == 5) || e.2.takeReq

/-- HO_LATE (R202): one slot length after the loss without HANDOVER_DONE, for each store of the hand-over. -/
def execHoLate (s : State) : Host.Outcome State Fault Refusal :=
  .next <|
    if s.ho.on && !s.ho.late && decide (16000 * s.plan.slotLen ≤ (s.time.st - s.ho.since).toNat) then
      let s := { s with ho := { s.ho with late := true } }
      s.hoStores.foldl (fun s (m, _) => (s.hoEvent m 2 8).source 13 m) s
    else s

/-- The periods in band of R202, counted at the boundary of the lowest-numbered store in TAKING: the delivered power within 5 % of the lost power less the
trip-shed curtailment, and V_BUS within 2 % of VBUS_NOM. -/
def State.hoCount (s : State) (m : Nat) : State :=
  match s.takers with
  | (k, r) :: _ =>
    if !s.ho.on || k ≠ m then s
    else
      let want := sumI (s.ho.lost.map fun i => (s.rail i).lostPower) - (s.plan.curtailed : Int)
      let have_ := sumI (s.takers.map fun e => -e.2.pMeas)
      let nom : Int := (rpVbusNom r.active : Nat)
      let ok := decide (20 * (have_ - want).natAbs ≤ want.natAbs) && decide (50 * (s.rmInt m 0x28 4 - nom).natAbs ≤ nom.natAbs)
      { s with ho := { s.ho with count := if ok then s.ho.count + 1 else 0 } }
  | [] => s

/-! ## Leaving RUN -/

/-- Cancel or supersede the edges of one switch already sent for instants in a span (R183, R184): an edge of the given level for each instant. -/
def superseding (l : Lane) (hi level : Bool) (lo top : Nat) : List DnCmd :=
  ((l.instants hi true ++ l.instants hi false).filter fun t => decide (lo < t ∧ t < top)).map fun t =>
    .prioEdge (if hi then 1 else 2) level (BitVec.ofNat 64 t) 0

/-- The edges that cell n's ended run made for its next period are made anew, as the rail's state now asks (R178, R600): the cell's mode applies from its next boundary, and a turn-on
already sent for an instant after that is superseded (R70). A run that has not ended yet makes its edges under the new state. -/
def State.refit (s : State) (n : Nat) : State :=
  let e := s.serving n
  let period := s.periodOf n
  let next := s.cellNext n (s.eng e).bound.toNat
  let low := s.modAct n (s.eng e).out == .lowOn
  if (s.eng e).running || (s.lane n).st != .run || period = 0 then s
  else
    let s := s.modLane n fun l =>
      { l with dnq := (l.dnq.filter fun (d : DnCmd) => decide (d.instant < next)) ++ superseding l true false (next - 1) (next + period)
                        ++ superseding l false low (next - 1) (next + period) }
    s.modulate e

/-- What a rail drops on returning to STOPPED or ENV_TRIP: sub-state (a SOURCE follows its line again, R171), arming and burst. -/
def Rail.drop (r : Rail) (st : RailState) : Rail :=
  { r with st := st, sub := if r.isKind 0 then (if r.sub ≤ 2 then r.sub else if r.inWindow then 1 else 0) else 0,
           prov := false, slotSince := false, takeReq := false, lost := false, angleZero := false, vreg := false }

/-- The decided grants of a rail that enters OFF, STOPPED or ENV_TRIP end at the next pass (R267). -/
def State.endGrants (s : State) (m : Nat) : State :=
  { s with plan := { s.plan with grants := s.plan.grants.map fun g => if g.rail = m then { g with aborted := true } else g } }

/-- The rail leaves its hand-over with its state (R602), its grants end (R267), and its cells take the mode of the new state from their next boundaries. -/
def State.railDrop (s : State) (m : Nat) (st : RailState) : State :=
  let r := s.rail m
  let was := r.takeReq || (r.isKind 3 && r.st == .run && r.sub == 5)
  let s := (s.setRail m (r.drop st)).endGrants m
  let s := if r.hasPage then (rpCells m r.active).foldl State.refit s else s
  if was then s.leftHo else s

/-- ENV_TRIP (R177, R178): after ENV_DWELL consecutive breaches the rail is held in ENV_TRIP, with its event, hardware source 14 and SAFETY bit. -/
def execEnvTrip (m : Fin 64) (s : State) : Host.Outcome State Fault Refusal :=
  let r := s.rail m
  .next <|
    if r.hasPage && !(r.st == .off || r.st == .envTrip) && decide (rpDwell r.active ≤ r.envCount) then
      let s := (s.railDrop m .envTrip).modRail m fun r => { r with envWarn := true }
      ((s.event 0x06 m (toLe 4 (toTwos 32 r.pMeas))).source 14 m).safety 4
    else s

/-! ## The hardware words (R172, R174) -/

/-- The cells of rail m whose summary of the interval counts, with their engine: left out while the lane is lost or enclosed (R485, R553). -/
def State.railCells (s : State) (m : Nat) (b : DWord) : List (Nat × Engine) :=
  let r := s.rail m
  ((rpCells m r.active).map fun n => (n, s.eng (s.serving n))).filter fun (n, e) =>
    !(s.lane n).omitted && (s.lane n).st == .run && !s.cellStopped n && (s.cell n).active != []
      && decide ((b - e.bound).toNat < r.tAct) && e.inputs != []

/-- Word w of the summaries of cells, signed. -/
def sumWords (l : List (Nat × Engine)) (w : Nat) : Int := sumI (l.map fun e => (tabGet (fun _ => (0 : Word)) e.2.inputs w).toInt)

/-- Put a mean over cells into rail memory; over no cell it is a free value (log entry 4). -/
def State.putMean (s : State) (m off : Nat) (l : List (Nat × Engine)) (w : Nat) : State :=
  if l = [] then
    let (v, s) := s.freshWord
    s.rmPut m off 4 v.toNat
  else s.rmPutI m off 4 (roundDiv (sumWords l w) l.length)

/-- Energy that flowed from the bus into rail m in the closed period, in fJ: v x i over the most recent summaries of its cells (R35, R110, R161, R174). -/
def State.railEnergy (s : State) (m : Nat) (b : DWord) : Int := sumI ((s.railCells m b).map fun e => e.2.eLast)

/-- P_MEAS in W: that energy over the lead period; the spec states no arithmetic for it (log entry 6). -/
def State.railPower (s : State) (m : Nat) (b : DWord) : Int := roundDiv (s.railEnergy m b * 16) (max 1 (s.rail m).tAct * 1000000)

/-- SENSE_V and SENSE_I: the means of the sense lane's fields over the lead period (R172, R179); over no sample they are free values (log entry 4). -/
def State.putSense (s : State) (m : Nat) : State :=
  let (n, v, i) := (s.rail m).sens
  let s := s.modRail m fun r => { r with sens := (0, 0, 0) }
  if n = 0 then
    let (a, s) := s.freshWord
    let (b, s) := s.freshWord
    (s.rmPut m 0x38 4 a.toNat).rmPut m 0x3C 4 b.toNat
  else (s.rmPutI m 0x38 4 (roundDiv v n)).rmPutI m 0x3C 4 (roundDiv i n)

/-- Close the hardware words at lead boundary b (R172, R174): power and energy, phase sums and counts, mean voltages, sense lane, time base. DESIGN CHOICE (log entry 50): the energy of a lead period that straddles a slot boundary
counts whole in the slot in which the period ends (R28). -/
def State.closeRail (s : State) (m : Nat) (x : LeadMeas) (b : DWord) : State :=
  let r := s.rail m
  let p := r.active
  let pw := s.railPower m b
  let fine := r.eFine + s.railEnergy m b
  let acc := roundDiv fine 1000000000000
  let s := s.setRail m { r with pMeas := pw, eacc := acc, eFine := fine }
  let s := (s.rmPutI m 0x00 4 pw).rmPutI m 0x10 8 acc
  let cells := s.railCells m b
  let ph := fun (i : Nat) => cells.filter fun e => cpPhase (s.cell e.1).active == i
  let s := (((s.rmPutI m 0x18 4 (sumWords (ph 0) 0)).rmPutI m 0x1C 4 (sumWords (ph 1) 0)).rmPutI m 0x20 4 (sumWords (ph 2) 0))
  let s := s.rmPut m 0x24 4 ((ph 0).length % 256 + 256 * ((ph 1).length % 256) + 65536 * ((ph 2).length % 256))
  let s := s.putMean m 0x28 cells 3
  let s := s.modRail m fun r => { r with vAcc := r.vAcc + s.rmInt m 0x28 4, vCount := r.vCount + 1 }
  let s := ((s.putMean m 0x2C (ph 0) 4).putMean m 0x30 (ph 1) 4).putMean m 0x34 (ph 2) 4
  let s := if (rpSense p).isSome then s.putSense m else s
  match rpKind p with
  | 0 =>
    let k := rpTbase p
    let amp := decide (leAt p 0x100 2 ≤ 5 * x.lineAmpl)
    let usable := amp && decide (40000 ≤ x.pllRate ∧ x.pllRate ≤ 70000)
    let c := (s.cyc k).update usable amp x b
    let s := s.cycTo k c
    (s.rmPut m 0x40 4 c.phase.toNat).rmPut m 0x44 4 c.rate
  | 2 =>
    let e := s.enc (rpTbase p)
    let pos := e.posAt b * (byteAt p 0x100 : Nat) + (leAt p 0x104 4 : Nat)
    (s.rmPutI m 0x40 4 pos).rmPutI m 0x44 4 e.speed
  | _ => s

/-! ## Grant words and envelope (R176, R177) -/

/-- The targets of the grant words: the planner's portions and GRANT_LO target, within the envelope; PMAX and PMIN in a hand-over (R176, R201, R272). -/
def Rail.grantTargets (r : Rail) : Int × Int :=
  let p := r.active
  if r.isKind 3 && r.st == .run && (r.sub == 5 || r.sub == 6) then (rpPmax p, rpPmin p)
  else (min (rpPmax p) (sumN r.portions : Nat), max (rpPmin p) r.loTarget)

/-- The grant words at a lead boundary (R33, R176): a tightening target at once, a widening one by at most RAMP per ms of the period. -/
def State.grantStep (s : State) (m : Nat) : State :=
  let r := s.rail m
  let (hi, lo) := r.grantTargets
  let acc := r.rampFrac + rpRamp r.active * r.tAct
  let step : Int := (acc / 16000000 : Nat)
  let gh := if hi ≤ r.grantHi then hi else min hi (r.grantHi + step)
  let gl := if r.grantLo ≤ lo then lo else max lo (r.grantLo - step)
  let s := s.setRail m { r with grantHi := gh, grantLo := gl, rampFrac := acc % 16000000 }
  (s.rmPutI m 0x04 4 gh).rmPutI m 0x08 4 gl

/-- The envelope breach of the closed period (R177): ENV_WARN and the count of consecutive breaches. -/
def State.envStep (s : State) (m : Nat) : State :=
  s.modRail m fun r =>
    let breach := decide (11 * rpPmax r.active < 10 * r.pMeas ∨ 10 * r.pMeas < 11 * rpPmin r.active)
    { r with envWarn := breach, envCount := if breach then r.envCount + 1 else 0 }

/-! ## Start, stop, release and limits at the lead boundary (R167, R600) -/

/-- The stock PROG of a kind (R160). -/
def stockProg (k : Nat) : Nat := match k with | 0 => 3 | 1 => 0 | 2 => 2 | _ => 1

/-- The checks of START (R167). -/
def State.startOk (s : State) (m : Nat) : Bool :=
  let p := (s.rail m).active
  (rpCells m p).all fun n =>
    let c := (s.cell n).active
    c != [] && cpRail c == m && (cpProg c == stockProg (rpKind p) || cpProg c == 0xFF) && (cpFlag c 0 == (n == rpLead p))

/-- Complete the operation of an optional tag with its commit point recorded. -/
def State.endReq (s : State) (o : Option Nat) (status : Nat) : State :=
  match o with
  | some t => (if status = stOk then s.modOp t fun p => { p with committed := true } else s).completeTag t status
  | none => s

/-- One operation that has waited for the lead boundary (R178, R235, R600); a RAIL_SETPOINT_AT whose mark has not fired by this boundary waits on. `step` 2 is a fired mark, whose fire instant
and outcome are in `value`. -/
def State.railRequest (s : State) (m : Nat) (t : Nat) : State :=
  match s.findOp t with
  | none => s
  | some o =>
    let st := (s.rail m).st
    match o.code with
    | 0x10 =>
      match st with
      | .stopped => if s.startOk m then (s.modRail m fun r => { r with st := .standby }).endReq (some t) stOk else s.endReq (some t) stBadDesc
      | .off | .envTrip => s.endReq (some t) stNotReady
      | _ => s.endReq (some t) stOk
    | 0x11 =>
      match st with
      | .off | .envTrip => s.endReq (some t) stNotReady
      | .stopped => s.endReq (some t) stOk
      | _ => (s.railDrop m .stopped).endReq (some t) stOk
    | 0x13 =>
      if o.step = 2 && decide (o.value % 2 ^ 64 ≤ (s.rail m).leadAt.toNat) then
        let s := (s.writeSetpoint m (BitVec.ofNat 32 (o.u32 0xC))).modOp t fun p => { p with committed := true }
        s.completeTag t stOk (b2n (bitOf o.value 64) + 2 * b2n (bitOf o.value 66)) (o.value % 2 ^ 64)
      else s.modRail m fun r => { r with reqs := r.reqs ++ [t] }
    | 0x14 =>
      if st == .envTrip then (s.modRail m fun r => { r with st := .stopped, envCount := 0 }).endReq (some t) stOk else s.endReq (some t) stNotReady
    | _ => (s.modRail m fun r => { r with active := patch r.active 0x100 (slice o.desc 0x10 16), limitsStale := false, spNew := r.renews (slice o.desc 0x10 16), renewAt := s.time.st }).endReq (some t) stOk

/-- The operations that wait for the lead boundary, in the order of their acceptance. -/
def State.railRequests (s : State) (m : Nat) : State :=
  let l := (s.rail m).reqs
  l.foldl (fun s t => s.railRequest m t) (s.modRail m fun r => { r with reqs := [] })

/-! ## Arming and running (R169 to R171) -/

/-- A rail becomes ARMED (R169): ARM is due at once and the WAKE entries go to every cell in list order. -/
def State.armRail (s : State) (m : Nat) : State :=
  let r := s.rail m
  let s := s.setRail m { r with st := .armed, prov := false, slotSince := false }
  let wake := (rpWake r.active).map fun e => (BitVec.ofNat 8 e.1, BitVec.ofNat 16 e.2, true)
  let s := (rpSense r.active).toList.foldl (fun s n => s.modLane n fun l => { l with armSince := 64 }) s
  (rpCells m r.active).foldl (fun s n =>
    s.modLane n fun l => Lane.cfgPump { l with armSince := 64, cfgQ := l.cfgQ ++ wake } s.port) s

/-- STANDBY to ARMED on a provisional or started grant, ARMED to RUN after the slot boundary (R169, R170), a qualified SOURCE to SYNCING and RUN (R171). A rail that was started at this very boundary moves on at the next
(`was`: its state before). -/
def State.railAdvance (s : State) (m : Nat) (was : RailState) : State :=
  let r := s.rail m
  let run := fun (s : State) (sub : Nat) =>
    let s := s.modRail m fun r => { r with st := .run, sub := sub }
    (rpCells m r.active ++ (rpSense r.active).toList).foldl (fun s n => s.modLane n fun l => { l with armSince := 64 }) s
  match r.st with
  | .standby =>
    if was != .standby then s
    else if r.isKind 0 then (if r.sub = 2 then run s 3 else s)
    else if r.prov || s.grantOn m then s.armRail m else s
  | .armed => if s.grantOn m && r.slotSince then s.modRail m fun r => { r with st := .run, sub := 0, spNew := true } else s
  | .run => if r.isKind 0 && r.sub = 2 then run s 3 else s
  | _ => s

/-- PREARM_HOLD in ST units. -/
def rpPrearmHold (p : List Byte) : Nat := 16000000 * leAt p 0x28 2

/-- PREARM_HOLD_EXPIRY (R170): at a boundary of the lead at which PREARM_HOLD has passed since the last provisional pass the rail returns to STANDBY, unless a GRANTED grant has started. -/
def execPrearmHoldExpiry (m : Fin 64) (s : State) : Host.Outcome State Fault Refusal :=
  let r := s.rail m
  .next <|
    if r.st == .armed && !s.grantOn m && decide (rpPrearmHold r.active ≤ (r.leadAt - r.provAt).toNat) then
      (rpCells m r.active).foldl State.refit (s.modRail m fun r => { r with st := .standby, prov := false })
    else s

/-! ## Sources (R192 to R195) -/

/-- The line is in its window (R193); an asserted, enabled TRIP_IN counts as outside (R195). -/
def lineIn (p : List Byte) (x : LeadMeas) : Bool :=
  let nom := leAt p 0x100 2
  let tol := leAt p 0x102 2
  let trip := bitOf (byteAt p 0x10B) 7 && x.trips.getLsbD (byteAt p 0x10B % 8)
  decide (1000 * ((x.lineAmpl : Int) - nom).natAbs ≤ tol * nom)
    && decide (((x.lineFreq : Int) - (leAt p 0x104 2 : Nat)).natAbs ≤ leAt p 0x106 2) && x.phaseSeq && !trip

/-- A SOURCE's sub-state at the lead boundary (R171, R193, R195, R203): a declared loss becomes LOST with its SOURCE_LOST event and hardware source 10, and the cycle source
holds over (R228). -/
def State.sourceStep (s : State) (m : Nat) (x : LeadMeas) : State :=
  let r := s.rail m
  let w := lineIn r.active x
  let s := s.modRail m fun r => { r with inWindow := w, outAt := if r.inWindow && !w then s.time.st else r.outAt }
  if r.lost then
    let s := (s.modRail m fun r => { r with sub := 5, lost := false }).cycHold (rpTbase r.active)
    (s.event 0x07 m [BitVec.ofNat 8 (b2n r.lossByTrip)]).source 10 m
  else
    let held := s.ho.on && s.ho.lost.contains m
    let sub := match r.sub with
      | 0 => if w then 1 else 0
      | 1 | 2 => if w then r.sub else 0
      | 5 => if !w then 5 else if held then 6 else 1
      | 6 => if !w then 5 else if held then 6 else 1
      | k => k
    let s := s.modRail m fun r => { r with sub := sub, qualAt := if sub = 1 && r.sub != 1 then s.time.st else r.qualAt }
    if r.sub = 6 && sub = 5 then s.cycHold (rpTbase r.active) else s

/-- SRC_QUAL_TIME in ST units; 0 means 2,000 ms (R163). -/
def rpQualTime (p : List Byte) : Nat := 16000000 * (if rpK16 p 0x108 = 0 then 2000 else rpK16 p 0x108)

/-- SOURCE_QUALIFIED (R193): the window has held without break for SRC_QUAL_TIME. -/
def execSourceQualified (m : Fin 64) (s : State) : Host.Outcome State Fault Refusal :=
  let r := s.rail m
  .next (if r.isKind 0 && r.sub == 1 && r.inWindow && decide (rpQualTime r.active ≤ (s.time.st - r.qualAt).toNat) then s.setRail m { r with sub := 2 } else s)

/-- SOURCE_ONLINE (R194, R204): a syncing source has closed its current loops, at zero power; when a lost source of the hand-over is back after HANDOVER_DONE, the stores in TAKING enter RETURNING. -/
def execSourceOnline (m : Fin 64) (s : State) : Host.Outcome State Fault Refusal :=
  let r := s.rail m
  .next <|
    if r.isKind 0 && r.st == .run && r.sub == 3 && !r.lost then
      let s := ((s.setRail m { r with sub := 4 }).rmPutI m 0x100 8 0).rmPutI m 0x110 8 0
      if !s.ho.on && s.ho.lost.contains m.val then s.returnAll else s
    else s

/-- The loss that SOURCE_LOSS declares holds (R195): TRIP_IN is enabled and its input asserted, or the line has been outside its window for LOSS_HALF half-cycles of F_NOM. -/
def State.lossHolds (s : State) (m : Nat) (byTrip : Bool) : Bool :=
  let r := s.rail m
  let t := byteAt r.active 0x10B
  if byTrip then bitOf t 7 && s.plan.level.getLsbD (t % 8)
  else !r.inWindow && decide (byteAt r.active 0x10A * (800000000000 / max 1 (rpK16 r.active 0x104)) ≤ (s.time.st - r.outAt).toNat)

/-- SOURCE_LOSS (R195, R201, R228): a source in SYNCING or ONLINE is declared lost by its trip input or by its window; it enters LOST at its lead's next boundary. The loss of an
ONLINE source starts the hand-over. -/
def execSourceLoss (m : Fin 64) (byTrip : Bool) (s : State) : Host.Outcome State Fault Refusal :=
  let r := s.rail m
  .next <|
    if r.isKind 0 && r.st == .run && (r.sub == 3 || r.sub == 4) && !r.lost && s.lossHolds m byTrip then
      let s := s.setRail m { r with lost := true, lossByTrip := byTrip, lostPower := -r.pMeas }
      if r.sub = 4 then s.hoStart m else s
    else s

/-! ## Stores (R196 to R200) -/

/-- The store reaches its discharge floor with delivery asked of it (R199). -/
def State.disLimit (s : State) (m : Nat) : State :=
  let was := (s.rail m).sub == 5
  let s := (s.modRail m fun r => { r with sub := 7 }).charger m 4
  if was then s.leftHo else s

/-- The sub-state that the set-point asks for, from the one held (R196, R197, R199, R200). At the change to CV the voltage loop's integrator starts at the current that flows (R197). -/
def State.storeSub (s : State) (m : Nat) : State :=
  let r := s.rail m
  let sp := s.setpoint m
  let vb := s.vBat m
  let low := decide (vb ≤ 100 * (leAt r.active 0x108 2 : Nat))
  let s := s.modRail m fun r => { r with spNew := false }
  if r.limitsStale then s.modRail m fun r => { r with sub := 7 }
  else if sp = 0 then s.modRail m fun r => { r with sub := 0 }
  else if 0 < sp then
    if r.sub = 3 && !r.spNew then s
    else
      let full := decide (100 * (leAt r.active 0x102 2 : Nat) ≤ vb)
      let s := if r.sub = 1 || r.sub = 2 then s else (s.modRail m fun r => { r with sub := 1 }).charger m 0
      if (s.rail m).sub = 1 && full then
        ((s.rmPutI m 0x100 8 (65536 * s.rmInt m 0x18 4)).modRail m fun r => { r with sub := 2, taperAt := none }).charger m 1
      else s
  else if r.sub = 7 && !r.spNew then s
  else if low then (if r.sub = 7 then s else s.disLimit m)
  else s.modRail m fun r => { r with sub := 4 }

/-- Input regulation begins or ends to limit the charge current (R198). -/
def State.vregStep (s : State) (m : Nat) : State :=
  let r := s.rail m
  let on := (r.sub == 1 || r.sub == 2) && decide (s.rmInt m 0x28 4 < 100 * (leAt r.active 0x10A 2 : Nat))
  let s := s.setRail m { r with vreg := on }
  if on && !r.vreg then s.charger m 3 else s

/-- Since when the CV current has been below I_TAPER (R197). -/
def State.taperStep (s : State) (m : Nat) : State :=
  let r := s.rail m
  let below := r.st == .run && r.sub == 2 && decide (s.rmInt m 0x18 4 < 100 * (leAt r.active 0x104 2 : Nat))
  s.setRail m { r with taperAt := if below then some (r.taperAt.getD s.time.st) else none }

/-- A STORE at its lead boundary (R196 to R204). -/
def State.storeStep (s : State) (m : Nat) : State :=
  let was := (s.rail m).sub
  let s := if (s.rail m).takeReq then s.enterTaking m else s
  let r := s.rail m
  let low := decide (s.vBat m ≤ 100 * (leAt r.active 0x108 2 : Nat))
  if r.st != .run then s.modRail m fun r => { r with sub := 0, vreg := false }
  else if r.sub = 5 then (if low then s.disLimit m else if was = 5 then s.hoCount m else s)
  else if r.sub = 6 then
    if low then s.disLimit m
    else if s.setpoint m ≤ r.pMeas then (s.modRail m fun r => { r with sub := 0 }).storeSub m
    else s
  else ((s.storeSub m).vregStep m).taperStep m

/-- TAPER_DONE (R197): the CV current has stayed below I_TAPER for TAPER_TIME. -/
def execTaperDone (m : Fin 64) (s : State) : Host.Outcome State Fault Refusal :=
  let r := s.rail m
  let due := r.taperAt.any fun t => decide (16000000000 * leAt r.active 0x10E 2 ≤ (s.time.st - t).toNat)
  .next (if r.isKind 3 && r.st == .run && r.sub == 2 && due then (s.setRail m { r with sub := 3, vreg := false }).charger m 2 else s)

/-- LIMITS_STALE (R200): with LIMIT_TTL the STORE fields have not been renewed in time; the rail stops charging and enters BLOCKED, but stays in a hand-over. -/
def execLimitsStale (m : Fin 64) (s : State) : Host.Outcome State Fault Refusal :=
  let r := s.rail m
  .next <|
    if r.isKind 3 && rpTtl r.active ≠ 0 && !r.limitsStale && decide (16000000000 * rpTtl r.active ≤ (s.time.st - r.renewAt).toNat) then
      let sub := if r.st == .run && !(r.sub == 5 || r.sub == 6) then 7 else r.sub
      (s.setRail m { r with limitsStale := true, sub := sub }).charger m 5
    else s

/-! ## Feeders (R181 to R189) -/

/-- LIGHT (R181); DE_ENTER and DE_EXIT both 0 leave it clear (R164). -/
def State.lightStep (s : State) (m : Nat) : State :=
  let r := s.rail m
  let p := r.active
  let cur := if (rpSense p).isSome && rpMapI p == 2 then s.rmInt m 0x3C 4
    else if (rpSense p).isSome && rpMapV p == 2 then s.rmInt m 0x38 4 else s.rmInt m 0x18 4
  let enter : Int := 100 * (leAt p 0x116 2 : Nat)
  let exit_ : Int := 100 * (leAt p 0x118 2 : Nat)
  let light := if enter = 0 && exit_ = 0 then false else if cur < enter then true else if exit_ < cur then false else r.light
  s.setRail m { r with light := light }

/-- SYNC_TOL in per cent; 0 means 5. -/
def syncTol (p : List Byte) : Nat := if byteAt p 0x11C = 0 then 5 else byteAt p 0x11C

/-- The most a period may change in itself: 1 % of its frequency per ms (R187, R188). -/
def steerMost (cur : Nat) : Nat := cur * cur / 1600000000

/-- The period moves towards a wanted one by a free amount within that bound (the steering law is not stated, log entry 4). -/
def steerTo (cur want : Nat) (w : Word) : Nat :=
  let d := w.toNat % (steerMost cur + 1)
  if cur < want then min want (cur + d) else max want (cur - d)

/-- The period moves either way by a free amount within that bound. -/
def steerFree (cur : Nat) (w : Word) : Nat :=
  let d := w.toNat % (steerMost cur + 1)
  if wbit w 31 then cur + d else cur - d

/-- Synchronising and gliding at the rail boundary b (R187, R188): SYNCED sets once the boundary lies within 64 ST units of an edge + SYNC_DELAY, and GLIDE clears when the period is T again. -/
def State.syncStep (s : State) (m : Nat) (b : DWord) : State :=
  let r := s.rail m
  let p := r.active
  if r.acquired then
    let (w, s) := s.freshWord
    let per := s.sync.period.toNat
    let off := match s.sync.lastEdge with
      | some e => ((b - e).toInt - (leAt p 0x11A 2 : Nat)) % (max per 1 : Nat)
      | none => (per : Int)
    let hit := decide (off ≤ 64 ∨ (per : Int) - off ≤ 64)
    s.setRail m { r with tAct := if r.synced || hit then steerTo r.tAct per w else steerFree r.tAct w, synced := r.synced || hit, glide := false }
  else if r.glide then
    let (w, s) := s.freshWord
    let t := steerTo r.tAct (rpPeriod p) w
    s.setRail m { r with tAct := t, glide := t != rpPeriod p }
  else s

/-- SYNC_IN_EDGE (R187): the period is measured, and each FEEDER with SYNC_EN counts consecutive edges whose spacing lies within SYNC_TOL of T; three acquire. -/
def execSyncInEdge (s : State) : Host.Outcome State Fault Refusal :=
  let t := s.time.st
  let gap := match s.sync.lastEdge with
    | some e => (t - e).toNat
    | none => 0
  let s := { s with sync := { s.sync with lastEdge := some t, period := if gap = 0 then 0 else BitVec.ofNat 24 (min gap 0xFFFFFF) } }
  .next <| s.rails.foldl (fun s (m, r) =>
    if r.isKind 1 && rpFlag r.active 0 then
      let per := rpPeriod r.active
      let ok := gap ≠ 0 && decide (100 * ((gap : Int) - per).natAbs ≤ syncTol r.active * per)
      s.setRail m { r with syncN := if ok then min 3 (max 1 r.syncN + 1) else if r.synced then r.syncN else 1, syncMiss := if ok then 0 else r.syncMiss }
    else s) s

/-- The next edge that a rail expects on SYNC_IN has not come (R188): SYNC_TOL of a synchronised period has passed since the instant it was expected at. -/
def State.edgeMissed (s : State) (r : Rail) : Bool :=
  let per := s.sync.period.toNat
  match s.sync.lastEdge with
  | some e => decide ((r.syncMiss + 1) * per + syncTol r.active * per / 100 < (s.time.st - e).toNat)
  | none => false

/-- SYNC_EDGE_MISSING (R188, R300): an expected edge has not come; the third in a row clears SYNCED, starts the glide back to T, and sets SYNC_STAT.LOST with hardware source 22. -/
def execSyncEdgeMissing (s : State) : Host.Outcome State Fault Refusal :=
  let due := fun (r : Rail) => r.acquired && s.edgeMissed r
  let step := fun (t : State) (m : Nat) (r : Rail) =>
    if due r then
      if 3 ≤ r.syncMiss + 1 then t.setRail m { r with synced := false, glide := r.tAct != rpPeriod r.active, syncN := 0, syncMiss := 0 }
      else t.setRail m { r with syncMiss := r.syncMiss + 1 }
    else t
  let lost := s.rails.any fun e => due e.2 && decide (3 ≤ e.2.syncMiss + 1)
  let s := s.rails.foldl (fun t (m, r) => (step t m r)) s
  .next (if lost then ({ s with sync := { s.sync with lost := true } }).source 22 0 else s)

/-- GLIDE_COMPLETE (R188): GLIDE clears when T is reached. -/
def execGlideComplete (m : Fin 64) (s : State) : Host.Outcome State Fault Refusal :=
  let r := s.rail m
  .next (if r.glide && r.tAct == rpPeriod r.active then s.setRail m { r with glide := false } else s)

/-- UNDERSHOOT_HOLDOFF_END (R182): UNDERSHOOT_HOLDOFF lead periods after the burst the detector is armed again. -/
def execUndershootHoldoffEnd (m : Fin 64) (s : State) : Host.Outcome State Fault Refusal :=
  let r := s.rail m
  .next (if r.holdoff && decide (rpK16 r.active 0x112 ≤ r.holdN) then s.setRail m { r with holdoff := false } else s)

/-- The undershoot burst begins (R183): every cell turns its low side off and its high side on by the priority path, superseding the edges already queued at instants inside the burst; BURST is
set and the page in force governs it to its end (R186). -/
def State.burstStart (s : State) (m : Nat) : State :=
  let r := s.rail m
  let t := s.time.st.toNat
  let s := s.setRail m { r with burst := true, burstPage := r.active, burstAt := s.time.st }
  (rpCells m r.active).foldl (fun s n =>
    let l := s.lane n
    let top := t + leAt r.active 0x114 2 * r.tAct / 65536
    let page := (s.cell n).active
    let prof := BitVec.ofNat 4 ((s.eng (s.serving n)).work page 0 1)
    if l.st != .run then s
    else
      let q := l.dnq ++ [.guardEdge 2 prof false, .onNow 1] ++ superseding l true true t top ++ superseding l false false t top
      s.setLane n { l with burst := true, burstTill := none, dnq := q, burstDe := cpFlag page 2, burstProf := prof }) s

/-- The burst ends (R184 to R186): every high side turns off, each low side on after its dead time unless diode emulation is active, the edges queued up to each cell's next
boundary are cancelled, and the detector's hold-off begins. DE_EN and the profile are those of the cell page on which the burst started. -/
def State.burstEnd (s : State) (m : Nat) : State :=
  let r := s.rail m
  let t := s.time.st.toNat
  let s := s.setRail m { r with burst := false, burstPage := [], holdoff := true, holdN := 0 }
  (rpCells m r.burstPage).foldl (fun s n =>
    let l := s.lane n
    let e := s.eng (s.serving n)
    let de := l.burstDe && !wbit e.outNow.mode 4
    let next := s.cellNext n e.bound.toNat
    if !l.burst then s
    else
      let q := l.dnq ++ [.guardEdge 1 l.burstProf false] ++ (if de then [] else [.onNow 2]) ++ superseding l true false t next ++ superseding l false (!de) t next
      s.setLane n { l with burstTill := some (BitVec.ofNat 64 next), dnq := q }) s

/-- BURST_END (R184): BURST_MAX x T after it began the burst ends; recovery of the voltage ends it in the superframe that shows it. -/
def execBurstEnd (m : Fin 64) (s : State) : Host.Outcome State Fault Refusal :=
  let r := s.rail m
  .next (if r.burst && decide (rpK16 r.burstPage 0x114 * r.tAct / 65536 ≤ (s.time.st - r.burstAt).toNat) then s.burstEnd m else s)

/-! ## Drives (R191) -/

/-- The angle-source fault response of a stock DRIVE lead (R191): zero torque with ANGLE_FAULT and hardware source 15, until the source is VALID and a new set-point is written. -/
def State.driveStep (s : State) (m : Nat) : State :=
  let r := s.rail m
  let k := rpTbase r.active
  let e := s.enc k
  if r.st != .run || cpProg (s.cell (rpLead r.active)).active == 0xFF then s
  else if e.st != .valid && !r.angleZero then
    let s := s.setRail m { r with angleZero := true, spNew := false }
    (s.event 0x0A (256 * k + m) [BitVec.ofNat 8 e.cause.toNat]).source 15 (256 * k + m)
  else if e.st == .valid && r.angleZero && r.spNew then s.setRail m { r with angleZero := false }
  else s

/-! ## The lead boundary -/

/-- How far the lead's boundaries lie behind its rail's (R105). -/
def State.leadOff (s : State) (m : Nat) : Nat :=
  let n := rpLead (s.rail m).active
  if s.railOf n = some m then s.pleatOf n else 0

/-- The rail boundary whose boundary of the lead has come since the last one carried out. -/
def State.leadDue (s : State) (m : Nat) : Option Nat :=
  let r := s.rail m
  let off := s.leadOff m
  let x := r.edgeAt (s.time.st.toNat - off)
  if r.hasPage && decide (off ≤ s.time.st.toNat) && (match r.edge with | some e => newer e.toNat x | none => true) then some x else none

/-- What happens at a boundary b of rail m's lead, in order (R174 and the rules of its parts): the hardware words close, the envelope of the closed period is evaluated, a pending page swap takes effect, waiting rail operations
apply, the sub-state moves, then the grant words (so that a hand-over's limits act at once, R201), and the rail's state. -/
def State.leadBoundary (s : State) (m : Nat) (x : LeadMeas) (edge : Nat) (b : DWord) : State :=
  let s := { s with plan := { s.plan with level := x.trips } }
  let s := s.modRail m fun r => { r with edge0 := r.edge.getD 0, edge := some (BitVec.ofNat 64 edge), leadAt := b, holdN := r.holdN + 1 }
  let s := (s.closeRail m x b).envStep m
  let s := if (s.rail m).swapOp.isSome then s.swapRailNow m else s
  let was := (s.rail m).st
  let s := s.railRequests m
  let s := match rpKind (s.rail m).active with
    | 0 => s.sourceStep m x
    | 1 => (s.lightStep m).syncStep m (BitVec.ofNat 64 edge)
    | 2 => s.driveStep m
    | _ => s.storeStep m
  let s := s.grantStep m
  let s := s.railAdvance m was
  let s := s.modRail m fun r => { r with leadEnded := false, pubStage := [], pubDone := false }
  let s := s.putFlags m
  if rpFlag (s.rail m).active 1 then s.emit (.syncOut m) else s

/-- LEAD_BOUNDARY (R105, R174): the latest boundary of the rail's lead, when it has come and has not been carried out. A rail has boundaries while it has an active page (R33). -/
def execLeadBoundary (m : Fin 64) (x : LeadMeas) (s : State) : Host.Outcome State Fault Refusal :=
  .next <| match s.leadDue m with
    | some e =>
      let s := s.leadBoundary m x e (BitVec.ofNat 64 (e + s.leadOff m))
      if fld (s.reg Reg.supHkCtl) 31 30 = 3 ∧ fld (s.reg Reg.supHkTrig) 21 16 = m.val then s.hkTrigger else s
    | none => s

/-- PUB_DELAY has passed since the lead's last boundary, and its publication has not been decided (R173). -/
def State.pubDue (s : State) (m : Nat) : Bool :=
  let r := s.rail m
  r.hasPage && !r.pubDone && decide (rpPubDelay r.active ≤ (s.time.st - r.leadAt).toNat)

/-- RAIL_PUBLICATION (R173, R396): at b + PUB_DELAY the lead's staged words are published when its run has ENDed by then, with the publication digest; otherwise they are
discarded, PUB_LATE sets and the previous publication stays. -/
def execRailPublication (m : Fin 64) (s : State) : Host.Outcome State Fault Refusal :=
  let r := s.rail m
  .next <|
    if !s.pubDue m then s
    else if r.leadEnded && decide ((r.endAt - r.leadAt).toNat ≤ rpPubDelay r.active) then
      let s := { s with railMem := r.pubStage.foldl (fun t (o, b) => memSet 0 t (4096 * m.val + o) b) s.railMem }
      let s := (s.setRail m { r with pubStage := [], pubLate := false, pubDone := true }).putFlags m
      let crc := BitVec.ofNat 16 (crcBytes (memRead 0 s.railMem (4096 * m.val + 0xC0) 64))
      s.digest (2048 + m.val) crc (.pubDigest m crc)
    else (s.setRail m { r with pubStage := [], pubLate := true, pubDone := true }).putFlags m

end Sys2Proof.Machine
end

