-- ==== Sys2Proof/Machine/NvmCore.lean ====
section
/-! DEFINITION. The NVM's shared operations: rings (R495 to R499), one page program at a time (R501 to R504), the supervisor's records (R428 to R430, R473,
R500) and the firmware banks' pages (R528). -/

namespace Sys2Proof.Machine

/-! ## Rings -/

/-- Page of slot i of ring r (R491). -/
def ringPage (r i : Nat) : Nat := 0x20 + 64 * r + i

/-- The 256 bytes of slot i of ring r. -/
def State.slotBytes (s : State) (r i : Nat) : List Byte := s.nvmBytes (256 * ringPage r i) 256

/-- A slot is valid: its CRC is correct and its LEN lies in 1 to 240 (R496). -/
def slotValid (b : List Byte) : Bool :=
  decide (1 ≤ leAt b 4 2 ∧ leAt b 4 2 ≤ 240) && crcBytes (b.take 254) == leAt b 254 2

/-- The valid slots of ring r with their SEQ. -/
def State.validSlots (s : State) (r : Nat) : List (Nat × Nat) :=
  (List.range 64).filterMap fun i =>
    let b := s.slotBytes r i
    if slotValid b then some (i, leAt b 0 4) else none

/-- The newest slot of ring r and its SEQ (R497). -/
def State.newestSlot (s : State) (r : Nat) : Option (Nat × Nat) :=
  (s.validSlots r).foldl (fun best e =>
    match best with
    | none => some e
    | some b => if slotAfter e.2 b.2 then some e else some b) none

/-- Slot and SEQ of the next append (R497). -/
def State.nextSlot (s : State) (r : Nat) : Nat × Nat :=
  match s.newestSlot r with
  | some (i, q) => ((i + 1) % 64, (q + 1) % 2 ^ 32)
  | none => (0, 1)

/-- The slot that holds a record (R496). -/
def slotMake (seq : Nat) (rec : List Byte) : List Byte :=
  let b := toLe 4 seq ++ toLe 2 rec.length ++ [0, 0] ++ fitTo 240 rec ++ [0, 0, 0, 0, 0, 0]
  b ++ toLe 2 (crcBytes b)

/-- The record in the newest slot of ring r. -/
def State.newestRec (s : State) (r : Nat) : Option (List Byte) :=
  (s.newestSlot r).map fun e => (s.slotBytes r e.1).drop 8

/-! ## Page programs -/

/-- The tag under which the recovery loader's LOAD runs (REC.CTL, R540). -/
def recTag : Nat := 4098

/-- First page of the inactive firmware bank (R491, R528): bank B while bank A runs. -/
def State.otherBank (s : State) : Nat := if s.sec.bank then 0x800 else 0xC00

/-- Pages of the staged image. -/
def imagePages (b : List Byte) : Nat := (b.length + 255) / 256

/-- The page and data of step k of a firmware installation (R528): the bank record to zeros, the image from the bank's first page, the record with GEN one
above the running bank's; none when all is programmed. -/
def State.imageStep (s : State) (b : List Byte) (k : Nat) : Option (Nat × List Byte) :=
  let base := s.otherBank
  let n := imagePages b
  if k = 0 then some (base + 0x3FF, List.replicate 256 0)
  else if k ≤ n then some (base + k - 1, fitTo 256 (slice b (256 * (k - 1)) 256))
  else if k = n + 1 then
    let r := fitTo 254 (toLe 4 (s.sec.gen.toNat + 1))
    some (base + 0x3FF, r ++ toLe 2 (crcBytes r))
  else none

/-- Rail k of the supplies reads IN (R424, SUP.SEQ_STAT.INWIN): enabled, with its comparator IN, once the sequencer has begun (log entry 30). -/
def State.railIn (s : State) (k : Nat) : Bool := s.sup.seq != 0 && s.sup.en.getLsbD (k - 1) && (s.wc (k - 1)).rd == .inside

/-- INWIN (R430). -/
def State.inWin (s : State) : Nat := sumN ((List.range 12).map fun i => if s.railIn (i + 1) then 2 ^ i else 0)

/-- Start what waits for the NVM, when nothing runs and no brace holds it (R501, R502, R504): a supervisor record first, whose INWIN and LOG_LOST are those
of the moment of writing (R429, R430), then host work in the order in which it started. The start of a host program is its commit point (R333). -/
def State.nvmServe (s : State) : State :=
  if s.nvm.job.isSome || s.sup.brace then s
  else match s.nvm.waitSup with
    | (r, b) :: t =>
      let (slot, seq) := s.nextSlot r
      let b := if r = 0 then patch (patch b 0x10 (toLe 2 s.inWin)) 0x12 [BitVec.ofNat 8 (byteAt b 0x12 ||| 4 * b2n s.sup.logLost)] else b
      let s := if r = 0 then { s with sup := { s.sup with logLost := false } } else s
      { s with nvm := { s.nvm with waitSup := t, job := some { owner := .supervisor r, page := ringPage r slot, data := slotMake seq b } } }
    | [] =>
      match s.nvm.waitHost with
      | [] => s
      | tag :: t =>
        let s := { s with nvm := { s.nvm with waitHost := t } }
        let image := fun (s : State) (k : Nat) =>
          match s.sec.staged with
          | some (_, b) =>
            match s.imageStep b k with
            | some (p, d) => { s with nvm := { s.nvm with job := some { owner := .image tag k, page := p, data := d } } }
            | none => s
          | none => s
        if tag = recTag then image s (leAt s.sec.recOp 0 4)
        else match s.findOp tag with
          | none => s
          | some o =>
            match o.code with
            | 0x61 => { s with nvm := { s.nvm with job := some { owner := .host tag, page := o.u16 8, data := fitTo 256 o.bytes } } }.commit o
            | 0x62 =>
              let r := o.u8 8
              let (slot, seq) := s.nextSlot r
              let s := s.modOp tag fun p => { p with value := slot }
              { s with nvm := { s.nvm with job := some { owner := .host tag, page := ringPage r slot, data := slotMake seq (o.bytes.take (o.u16 0xC)) } } }.commit o
            | 0x84 => image s o.step
            | _ => s

/-- A supervisor record waits for the NVM (R502). -/
def State.supRecord (s : State) (r : Nat) (b : List Byte) : State :=
  { s with nvm := { s.nvm with waitSup := s.nvm.waitSup ++ [(r, b)] } }.nvmServe

/-- A running program is cut off (R427, R429, R498): before its erase began the page is unchanged; after it the page is wholly 0xFF, or holds bytes the spec does not
state, and a ring slot is invalid. Which of them is free (log entry 4). -/
def State.nvmAbandon (s : State) : State :=
  match s.nvm.job with
  | none => s
  | some j =>
    let (b0, s) := s.freshBool
    let (b1, s) := s.freshBool
    let (f, s) := s.freshBytes 254
    let s := { s with nvm := { s.nvm with job := none } }
    if b0 then s
    else if b1 then s.nvmPut (256 * j.page) (List.replicate 256 0xFF)
    else s.nvmPut (256 * j.page) (f ++ toLe 2 ((crcBytes f + 1) % 65536))

/-! ## Supervisor records -/

/-- ST runs (R206, R208): outside reset episodes that have taken hold, and outside OFF. -/
def State.stRuns (s : State) : Bool := !(s.pwr.st == .off || s.pwr.st == .reset)

/-- The supervisor logs an event in ring 0 (R428, R430): causes 0x01 SUPPLY to 0x08 PB_LAYUP, the first failing rail, DIP's length in us. -/
def State.supLog (s : State) (cause rail dur : Nat) : State :=
  let rtc := (List.range 6).map fun i => tabGet (fun _ => (0 : Byte)) s.sup.rtc i
  let flags := b2n (!s.stRuns) + 2 * b2n s.sup.osf
  let temp := (tabGet (fun _ => (0 : Word)) s.sup.temps 4).toNat % 65536
  let b := toLe 8 s.time.st.toNat ++ rtc ++ [BitVec.ofNat 8 cause, BitVec.ofNat 8 rail] ++ toLe 2 0 ++ [BitVec.ofNat 8 flags, 0]
    ++ toLe 2 (s.sup.vinMinRec.getD 0) ++ toLe 2 temp ++ toLe 4 dur ++ toLe 4 s.sup.boot.toNat
  { s with sup := { s.sup with vinMinRec := none } }.supRecord 0 b

/-- The start record in ring 1 (R473): the failed-start count, STAGE, whether the start reached RUN-ready, the reset cause, and the count of starts (R430). Its byte
layout is the model's (log entry 31). -/
def startRecord (fails stage : Nat) (ready : Bool) (cause boot : Nat) : List Byte :=
  [BitVec.ofNat 8 fails, BitVec.ofNat 8 stage, BitVec.ofNat 8 (b2n ready), 0] ++ toLe 4 cause ++ toLe 4 boot

/-- SUP.RST_CAUSE as a number. -/
def Pwr.cause (p : Pwr) : Nat := p.causeFirst.toNat * 2 ^ 28 + 512 * b2n p.causeTo + p.causeSrc.toNat

/-- Write the start record as it stands (R469, R473). -/
def State.putStart (s : State) : State := s.supRecord 1 (startRecord s.pwr.fails s.pwr.stage s.pwr.ready s.pwr.cause s.sup.boot.toNat)

end Sys2Proof.Machine
end

