-- ==== Sys2Proof/Machine/Episode.lean ====
section
/-! DEFINITION. OTP reads (R510, R514), the life-cycle state in force (R519), sealed register values (R569 to R571), supply sequencing (R419 to R422), and reset episodes:
raising a source, taking hold, releasing (R461 to R467). -/

namespace Sys2Proof.Machine

/-! ## OTP -/

/-- The highest redirection entry that names row r (R514). -/
def redirOf (l : List Nat) (r : Nat) : Option Nat :=
  ((l.zip (List.range l.length)).foldl (fun a e => if e.1 = r then some e.2 else a) none)

/-- The value of row r as reads follow the redirection table (R514). -/
def State.otpRead (s : State) (r : Nat) : DWord :=
  match redirOf s.nvm.redir r with
  | some e => tabGet (fun _ => 0) s.nvm.spares e
  | none => s.otpRow r

/-- Put row r, in its spare when it is redirected (R514). -/
def State.otpPut (s : State) (r : Nat) (v : DWord) : State :=
  match redirOf s.nvm.redir r with
  | some e => { s with nvm := { s.nvm with spares := tabSet (fun _ => 0) s.nvm.spares e v } }
  | none => s.setOtp r v

/-- An option fuse of row 0x00C (R510): 0 WDT_START, 1 SEAL_LOCK, 2 PWD_SET. -/
def State.fuse (s : State) (i : Nat) : Bool := (s.otpRead 0x0C).getLsbD i

/-- The life-cycle word of code c is valid (R516). -/
def lcValid (c : Nat) (w : DWord) : Bool := w.toNat == c + 256 * (255 - c)

/-- The life-cycle state of a code. -/
def lcOf : Nat → LcState
  | 1 => .vendor | 2 => .integration | 3 => .sealed | 4 => .ret | 5 => .void | _ => .blank

/-- The code of a life-cycle state. -/
def lcCode : LcState → Nat
  | .blank => 0 | .vendor => 1 | .integration => 2 | .sealed => 3 | .ret => 4 | .void => 5

/-- The code in force by the OTP words, and whether a later transition was begun (R519). -/
def State.lcWords (s : State) : Nat × Bool :=
  let c := (List.range 5).foldl (fun st i => if lcValid (i + 1) (s.otpRead (2 * i + 3)) then i + 1 else st) 0
  (c, (List.range 5).any fun i => decide (c < i + 1) && (s.otpRead (2 * i + 2) != 0 || s.otpRead (2 * i + 3) != 0))

/-- The state in force at a start (R519, R521); REOPENED and PENDING end. -/
def State.lcEval (s : State) : State :=
  let (c, i) := s.lcWords
  { s with nvm := { s.nvm with lc := lcOf c, interrupted := i, pendingSeal := false, sealedNow := false, reopened := false } }

/-! ## Sealed values -/

/-- The registers of R569 with how many window positions each has, and the mask of what VALUE restores. -/
def sealTable (off : Nat) : Option (Nat × Word) :=
  if off = Reg.supWcCfg then some (12, 0xFFFFFF00#32)
  else if off = Reg.twinCfg || off = Reg.planBolster || off = Reg.planShedCfg || off = Reg.patternKickEn || off = Reg.supSeqCfg || off = Reg.supVinCfg
      || off = Reg.supThrCfg || off = Reg.safetyMask || (decide (Reg.planShedLo ≤ off ∧ off < Reg.planShedLo + 64) && off % 4 == 0)
      || (decide (Reg.supTsCfg ≤ off ∧ off < Reg.supTsCfg + 16) && off % 4 == 0)
    then some (1, ((regRowAt off).map (·.rws)).getD 0)
  else none

/-- A value breaks a write rule of its register (R425, R285). -/
def State.sealRule (s : State) (off : Nat) (v : Word) : Bool :=
  if off = Reg.supVinCfg then decide (fld v 11 0 ≤ fld v 27 16)
  else if decide (Reg.planShedLo ≤ off ∧ off < Reg.planShedLo + 64) then fld (s.reg Reg.planShedCfg) 31 30 != 1
  else false

/-- Apply one sealed-value row (R569, R571). -/
def State.applyRow (s : State) (w : DWord) : State :=
  let off := bitsOf w.toNat 63 44
  let sel := bitsOf w.toNat 43 32
  let v := BitVec.ofNat 32 w.toNat
  let bad := { s with pwr := { s.pwr with badRows := satInc 255 s.pwr.badRows } }
  match sealTable off with
  | none => bad
  | some (n, mask) =>
    if n ≤ sel || s.sealRule off v then bad
    else
      let s := s.setReg off sel (mergeBits mask (s.reg off sel) v)
      { s with pwr := { s.pwr with appliedRows := s.pwr.appliedRows + 1 } }

/-- The sealed-value rows up to the first that reads 0 (R512). -/
def State.sealRows (s : State) : List DWord := ((List.range 224).map fun i => s.otpRead (0x120 + i)).takeWhile (· != 0)

/-- Apply the rows of the SUP block, or the others (R570), when the state in force is SEALED, RETURN or VOID. -/
def State.applySealed (s : State) (sup : Bool) : State :=
  let c := s.lcWords.1
  if c < 3 then s
  else (s.sealRows.filter fun w => decide (0xA0000 ≤ bitsOf w.toNat 63 44 ∧ bitsOf w.toNat 63 44 < 0xB0000) == sup).foldl State.applyRow s

/-- The guard store as the engines load it from OTP at reset (R115, R510); all zero before seal (R116). -/
def State.guardFromOtp (s : State) : State :=
  if s.lcWords.1 < 3 then { s with guardSram := [], guardOtp := false, guardUe := [] }
  else
    let put := fun (t : List (Nat × Word)) (r i : Nat) =>
      let v := (s.otpRead r).toNat
      tabSet (fun _ => 0) (tabSet (fun _ => 0) t i (wordN v)) (i + 1) (wordN (v / 2 ^ 32))
    let t := (List.range 64).foldl (fun t k => put t (0x20 + k) (2 * k)) []
    { s with guardSram := (List.range 64).foldl (fun t k => put t (0x60 + k) (128 + 2 * k)) t, guardOtp := true, guardUe := [] }

/-- Change the power unit. -/
def State.modPwr (s : State) (f : Pwr → Pwr) : State := { s with pwr := f s.pwr }

/-! ## Supply sequencing (R419 to R422) -/

/-- The highest enabled supply rail. -/
def Sup.top (u : Sup) : Nat := (List.range 13).foldl (fun a k => if 2 ≤ k && u.en.getLsbD (k - 1) then k else a) 1

/-- A source releases (R462, R465). -/
def State.releaseSrc (s : State) (src : RstSrc) : State :=
  { s with pwr := { s.pwr with held := s.pwr.held.filter (· != src), relAt := if s.pwr.held.contains src then s.cycles else s.pwr.relAt } }

/-- The sequence up has reached its target (R420, R462): POR releases, and BOR once VINS is at or above VIN_WARN. -/
def State.seqUp (s : State) : State :=
  let s := { s with sup := { s.sup with seq := 2, seqGood := false } }
  let s := s.releaseSrc .por
  if s.sup.vinOk then s.releaseSrc .bor else s

/-- Enable the next rail of the sequence up, or end it (R420). -/
def State.riseNext (s : State) : State :=
  let u := s.sup
  match (List.range 13).find? fun k => decide (2 ≤ k ∧ k ≤ u.target) && !u.en.getLsbD (k - 1) with
  | some k => { s with sup := { u with seq := 1, seqRail := k, seqGood := false, seqAt := s.cycles, en := setBit u.en (k - 1) true } }
  | none => s.seqUp

/-- Start a sequence up to a rail; the sealed values of the SUP block are in place before rail 2 (R570). -/
def State.riseTo (s : State) (top : Nat) : State :=
  let s := if s.sup.top = 1 then s.applySealed true else s
  { s with sup := { s.sup with target := top } }.riseNext

/-- A sequence down has reached its target (R421): a BOR holds the supplies down for 10 ms (R462), a sequence fault waits for its next attempt (R471), a force-off
ends in OFF (R455). -/
def State.seqDown (s : State) : State :=
  if s.pwr.retry then { s with sup := { s.sup with seq := 4, seqAt := s.cycles } }
  else if s.pwr.borDown then { s with sup := { s.sup with seq := 3, seqRail := 1, seqAt := s.cycles } }
  else if s.pwr.offNext then
    { s with sup := { s.sup with seq := 0, seqRail := 1 }, pwr := { s.pwr with st := if s.pwr.episode then s.pwr.st else .off } }
  else { s with sup := { s.sup with seq := 2 } }

/-- Disable the next rail of the sequence down, or end it (R421). -/
def State.fallNext (s : State) : State :=
  let u := s.sup
  let k := u.top
  if u.target < k then { s with sup := { u with seq := 3, seqRail := k, seqGood := false, seqAt := s.cycles, en := setBit u.en (k - 1) false } }
  else s.seqDown

/-- Start a sequence down to a rail. -/
def State.fallTo (s : State) (top : Nat) : State := { s with sup := { s.sup with target := top } }.fallNext

/-- A wake source (R480) wakes a sleeping device: rails 7 to 12 come up, and WAKE_CAUSE will name the first source. -/
def State.wake (s : State) (cause : BitVec 4) : State :=
  if s.pwr.st != .sleep || s.pwr.wakeUp then s
  else (s.modPwr fun p => { p with wakeUp := true, wakeCause := cause }).riseTo 12

/-! ## Taking hold (R461, R463) -/

/-- What the supervisor keeps through a reset that takes hold: the supplies and pins, the RTC, the actions in progress, the records that wait, and
what it knows of earlier starts. -/
def keepSup (u : Sup) : Sup :=
  { seq := u.seq, seqRail := u.seqRail, seqGood := u.seqGood, firstFail := u.firstFail, en := u.en, target := u.target, vin := u.vin, vinOk := u.vinOk,
    vinMinRec := u.vinMinRec, vinOkAt := u.vinOkAt, seqAt := u.seqAt, rtc := u.rtc, rtcAt := u.rtcAt, osf := u.osf, rtcRej := u.rtcRej, pressed := u.pressed, pressAt := u.pressAt, pbHeld := u.pbHeld, forced := u.forced, wdx := u.wdx, wdxAt := u.wdxAt,
    batsw := u.batsw, batswAt := u.batswAt, mr := u.mr, logLost := u.logLost, newLogs := u.newLogs, boot := u.boot, brace := u.brace, braceAt := u.braceAt, dipOff := u.dipOff, wdtOffLogged := u.wdtOffLogged }

/-- The NVM and OTP, which survive (R461); a program that runs goes on without its operation, records wait (R428). -/
def keepNvm (n : Nvm) : Nvm :=
  let job := n.job.map fun j => match j.owner with
    | .supervisor _ => j
    | _ => { j with owner := .supervisor 99 }
  { mem := n.mem, otp := n.otp, spares := n.spares, redir := n.redir, weak := n.weak, otpFull := n.otpFull, lc := n.lc, interrupted := n.interrupted, sealedNow := n.sealedNow,
    job := job, waitSup := n.waitSup }

/-- An OTP row whose programming is cut off holds some of its bits (R510, R520), and may read weakly at strict margin (R515); which is free (log entry 4). -/
def State.otpCut (s : State) : State :=
  let row := match s.nvm.lcJob with
    | some (_, e :: _) => some e
    | _ => s.nvm.fuseJob.head?
  match row with
  | some (r, v) =>
    let (weak, s) := s.freshBool
    let s := { s.otpPut r (s.otpRead r ||| (v &&& Config.freeDWord s.free)) with free := s.free + 1 }
    if weak then { s with nvm := { s.nvm with weak := insertN s.nvm.weak r } } else s
  | none => s

/-- The power unit as a reset takes hold: what the start writes anew is cleared (R467, R473). -/
def holdPwr (p : Pwr) : Pwr :=
  { wakeCause := 0, episode := p.episode, raised := p.raised, held := p.held, startTo := p.startTo, taken := true, borDown := p.borDown, raisedAt := p.raisedAt, relAt := p.relAt,
    causeFirst := p.causeFirst, causeSrc := p.causeSrc, causeTo := p.causeTo, fails := p.fails, stage := p.stage,
    prevReady := p.ready || p.offNext, offNext := p.offNext, retry := p.retry, seqFails := p.seqFails }

/-- A reset takes hold (R461, R463, R468): every other die is held in reset and loses its state; ST stops. Pins outside keep their levels. -/
def State.takeHold (s : State) : State :=
  let s := s.otpCut
  { pending := s.pending, out := s.out, free := s.free, cycles := s.cycles, grade := s.grade,
    regs := s.regs.filter fun e => e.1 == regKey Reg.supRtcCtl 0,
    wcs := s.wcs.filterMap fun e => if e.2.rd == .inside then none else some (e.1, { rd := e.2.rd }),
    time := { st := s.time.st },
    plan := { level := s.plan.level },
    host := { perst := s.host.perst },
    twin := { aliveIn := s.twin.aliveIn, reqIn := s.twin.reqIn },
    sup := keepSup s.sup,
    nvm := keepNvm s.nvm,
    sec := { tapIr := s.sec.tapIr, bsr := s.sec.bsr, adr := s.sec.adr, bank := s.sec.bank, gen := s.sec.gen },
    pwr := holdPwr s.pwr }

/-- The twin of an ACTIVE device is an aligned SHADOW (R410, R411). -/
def State.alignedTwin (s : State) : Bool := s.twin.st == .active && s.twin.peer == .shadow && s.twin.aligned

/-- Raise a reset source (R462 to R467, R411): it joins the running episode or starts one, and takes hold at once, or 4 us after a YIELD. In OFF every
source but POR and lay-up is ignored. -/
def State.raiseRst (s : State) (src : RstSrc) (startTo : Bool := false) : State :=
  let p := { s.pwr with raisedAt := (s.pwr.raisedAt.filter fun (e : RstSrc × Nat) => e.1 != src) ++ [(src, s.cycles)] }
  let add := fun (l : List RstSrc) => if l.contains src then l else l ++ [src]
  if p.st == .off && !(src == .por || src == .layup) then s
  else if p.episode then
    let s := { s with pwr := { p with raised := add p.raised, held := add p.held, startTo := p.startTo || startTo } }
    if p.taken || !(src == .por || src == .bor) then s else s.takeHold
  else
    let s := { s with pwr := { p with episode := true, raised := [src], held := [src], startTo := startTo, taken := false } }
    if s.alignedTwin && !(src == .por || src == .bor) then (s.emit .yieldMsg).modPwr fun p => { p with yielding := true, yieldAt := s.cycles }
    else s.takeHold

/-- Raise BOR (R423, R427, R462, R466): the supplies go down from where they are, are held down and come up again. -/
def State.raiseBor (s : State) : State :=
  if s.pwr.st == .off then s
  else
    let s := s.raiseRst .bor
    { s with pwr := { s.pwr with borDown := true, retry := false } }.fallTo 1

end Sys2Proof.Machine
end

