-- ==== Sys2Proof/Machine/Ledger.lean ====
section
/-! DEFINITION. The planner's ledger: slot lengths (R240, R237), the supply terms of a pass (R245 to R251), and the largest power that fits
(R258, R261). Powers in W, energies in uJ. -/

namespace Sys2Proof.Machine

/-! ## Slots -/

/-- LEN in us of a slot configuration. -/
def cfgLen (w : Word) : Nat := fld w 14 0

/-- N half-cycles of a slot configuration; 0 acts as 1 (R240). -/
def cfgHalf (w : Word) : Nat := max 1 (fld w 21 16)

/-- F_NOM in 0.01 Hz of the source rail bound to cycle source k; 0 with none. -/
def State.fNom (s : State) (k : Nat) : Nat :=
  match s.rails.find? fun e => e.2.isKind 0 && rpTbase e.2.active == k with
  | some (_, r) => leAt r.active 0x104 2
  | none => 0

/-- N half-cycles of the cycle source at F_NOM lie within 250 us to 20 ms (R237, R240); a source that no rail names has no F_NOM to fall outside it. -/
def State.lockFits (s : State) (w : Word) : Bool :=
  let f := s.fNom (fld w 29 28)
  f == 0 || decide (250 * f ≤ 50000000 * cfgHalf w ∧ 50000000 * cfgHalf w ≤ 20000 * f)

/-- Slots are locked under a configuration (R240). -/
def State.locks (s : State) (w : Word) : Bool := wbit w 31 && s.lockFits w

/-- The slot length in us under a configuration (R237, R238, R240): LEN, or N half-cycles at the source's frequency, the last TRACKING one while it is not tracking;
LEN when the lock cannot be, and when the source has never been TRACKING, so that there is no such frequency (DESIGN CHOICE, log entry 28). -/
def State.lenUnder (s : State) (w : Word) : Nat :=
  if !s.locks w then cfgLen w
  else
    let c := s.cyc (fld w 29 28)
    let rate := if c.st == .tracking then c.rate else c.heldRate
    if rate = 0 then cfgLen w else cfgHalf w * 500000000 / rate

/-- The same length in ST units, not rounded to a microsecond. -/
def State.unitsUnder (s : State) (w : Word) : Nat :=
  let c := s.cyc (fld w 29 28)
  if !s.locks w || c.heldRate = 0 then 16000 * cfgLen w else cfgHalf w * 8000000000000 / c.heldRate

/-- The phase total of a cycle source at an instant before or after its last update (R226). -/
def Cyc.phaseAt (c : Cyc) (t : DWord) : Int := (c.totalAt c.atSt : Int) + Int.fdiv ((t - c.atSt).toInt * ((c.rate : Int) * 4294967296)) 16000000000000

/-- The instant at which a cycle source's line takes a phase total, rounded up to ST units (R226, R237). -/
def Cyc.whenAt (c : Cyc) (p : Int) : DWord :=
  c.atSt - BitVec.ofInt 64 (Int.fdiv (((c.totalAt c.atSt : Int) - p) * 16000000000000) ((c.rate : Int) * 4294967296))

/-- When a slot that began at `start` under a configuration ends, and at which half-cycle mark when it ends at one (R237, R238, R240). `from_` is the mark at which it began, when it began at one. Locked, it ends N half-cycle
marks later, on the held phase in HOLDOVER; a lock that starts, or that starts again after the source was not TRACKING, ends it at the first half-cycle mark at least half a slot after its start;
while the source has no phase it has the length of N half-cycles at the last TRACKING frequency. -/
def State.slotEndOf (s : State) (w : Word) (start : DWord) (from_ : Option DWord) : DWord × Option DWord :=
  let c := s.cyc (fld w 29 28)
  let units := s.unitsUnder w
  if !s.locks w || !c.live || c.rate == 0 then (start + BitVec.ofNat 64 units, none)
  else
    let again : Bool := match from_ with | some _ => c.st == .tracking && c.broke | none => true
    let p : Int :=
      if again then
        let early := start + BitVec.ofNat 64 (units / 2)
        let e := if (early - c.trackAt).toNat < 2 ^ 63 then early else c.trackAt
        Int.fdiv (c.phaseAt e + 2147483647) 2147483648 * 2147483648
      else
        let t0 : Int := (c.totalAt c.atSt : Int)
        t0 + asSigned 64 (toTwos 64 (((from_.getD 0).toNat : Int) + 2147483648 * (cfgHalf w : Nat) - t0))
    (c.whenAt p, some (BitVec.ofInt 64 p))

/-- The end of the running slot. -/
def State.slotEnd (s : State) : DWord × Option DWord := s.slotEndOf s.plan.cfgLive s.plan.slotStart s.plan.lockPhase

/-- PLAN.STAT.LOCK_ERR for a configuration (R240). -/
def State.lockErrOf (s : State) (w : Word) : Bool := wbit w 31 && !s.lockFits w

/-- A signed distance between slot numbers (R239). -/
def slotRel (a c : Word) : Int := (a - c).toInt

/-! ## Configuration -/

/-- PLAN.BOLSTER.MODE: 0 AUTO, 1 FIXED, 2 OFF; 3 acts as AUTO. -/
def State.bolMode (s : State) : Nat := let m := fld (s.reg Reg.planBolster) 31 30; if m = 3 then 0 else m
/-- BCLASS. -/
def State.bolClass (s : State) : Nat := fld (s.reg Reg.planBolster) 29 27
/-- FIXED in W. -/
def State.bolFixed (s : State) : Int := 1000 * (fld (s.reg Reg.planBolster) 23 0 : Nat)
/-- PLAN.CLASSc. -/
def State.planClass (s : State) (c : Nat) : Word := s.reg (Reg.planClass + 4 * c)
/-- BAR of a class. -/
def State.barred (s : State) (c : Nat) : Bool := wbit (s.planClass c) 31

/-! ## The ledger of a pass -/

/-- One horizon slot: its length in us, the supply terms in W (R245), and what is booked: consumer, forward-credit and
regenerated energy, charge power, energy and power per class, and powers up to BCLASS, beyond it and regenerated; `full` is the most urgent class that found no room. -/
structure LedRow where
  len : Nat
  cap : Int
  head : Int
  bol : Int
  tot : Int := 0
  fwd : Int := 0
  regen : Int := 0
  chg : Int := 0
  cls : List Int := [0, 0, 0, 0, 0, 0, 0, 0]
  pcls : List Int := [0, 0, 0, 0, 0, 0, 0, 0]
  plo : Int := 0
  phi : Int := 0
  prg : Int := 0
  full : Nat := 0xFF
deriving DecidableEq, Repr

/-- What a pass works with: the committed slot, the DC-link credit, S and Bc of the clamp, the stores' PMAX, and the ledger. -/
structure Ledger where
  c : Word
  dcl : Int
  s : Int
  bc : Int
  spmax : Int
  bclass : Nat
  share : List Nat
  derate : List Nat
  rows : List LedRow
deriving DecidableEq, Repr

/-- AV of a slot in W (R245). -/
def LedRow.av (r : LedRow) : Int := r.cap - max 0 (r.bol - r.head)

/-- The SOURCE rails ONLINE that the planner counts: a tripped one counts as lost (R283). -/
def State.onlineSrc (s : State) : List (Nat × Rail) :=
  s.rails.filter fun e => e.2.isKind 0 && e.2.st == .run && e.2.sub == 4 && !s.plan.tripLost.contains e.1

/-- Pcap of an ONLINE source at a number of us after the pass start (R245). -/
def State.pcapAt (s : State) (m : Nat) (r : Rail) (us : Int) : Int :=
  let g := fld (s.reg Reg.planSrcCfg m) 31 16
  let ramp : Int := (if g = 0 then rpRamp r.active else g : Nat)
  let deliv := Int.fdiv (-r.eLast * 1000) (s.plan.lenClosed : Nat)
  min (-rpPmin r.active) (max deliv r.pcapPrev + Int.fdiv (ramp * us) 1000)

/-- P_disp and HEAD that a STORE asks for, before its allowance (R245): the discharge limit is the lesser of -PMIN and I_DIS_MAX x V_BAT (log entry 33). -/
def State.storeAsk (s : State) (m : Nat) (r : Rail) : Int × Int :=
  let p := r.active
  let lim := min (-rpPmin p) (Int.fdiv ((leAt p 0x106 2 : Nat) * max 0 (s.vBat m)) 1000)
  let sp := s.setpoint m
  let disp := if sp < 0 then min (-sp) lim else 0
  (disp, if rpFlag p 3 then max 0 (lim - disp) else 0)

/-- A store's energy allowance in uJ (R248). -/
def State.allowance (s : State) (m : Nat) (r : Rail) : Int :=
  if r.limitsStale then 0 else 1000000000 * ((s.reg Reg.planSrcE m).toNat : Nat)

/-- Spend an allowance over slots of given lengths, on P_disp and then on HEAD of each slot (R248): the powers of each slot. -/
def spend (disp head : Int) : List Nat → Int → List (Int × Int)
  | [], _ => []
  | n :: t, e =>
    let l : Int := (max 1 n : Nat)
    let d := if disp * l ≤ e then disp else Int.fdiv e l
    let e1 := e - d * l
    let h := if head * l ≤ e1 then head else Int.fdiv e1 l
    (d, h) :: spend disp head t (e1 - h * l)

/-- Add the terms of stores slot by slot. -/
def addStores (a b : List (Int × Int)) : List (Int × Int) := List.zipWith (fun x y => (x.1 + y.1, x.2 + y.2)) a b

/-- The horizon is 512 slots (R241). -/
def horizon : Nat := 512

/-- The DC-link credit in uJ (R250): CAP in 0.1 mF, VMIN in 0.1 V, V_BUS in mV. -/
def State.dclCredit (s : State) : Int :=
  let w := s.reg Reg.planDcl
  let vmin : Int := (100 * fld w 15 0 : Nat)
  match s.plan.vbusClosed with
  | some v => if v ≤ vmin then 0 else Int.fdiv ((fld w 31 16 : Nat) * (v * v - vmin * vmin)) 20000
  | none => 0

/-- S of the clamp (R275). -/
def State.clampS (s : State) : Int :=
  sumI ((s.rails.filter fun e => e.2.isKind 0 && e.2.st == .run && e.2.sub == 4).map fun e => -rpPmin e.2.active)
    + sumI ((s.stores.filter fun e => rpFlag e.2.active 3).map fun e => -rpPmin e.2.active)

/-- The largest of a list of powers, at least 0. -/
def largest (l : List Int) : Int := l.foldl max 0

/-- Bc of the clamp (R275). -/
def State.clampBc (s : State) : Int :=
  if s.stores.any fun e => e.2.st == .run && (e.2.sub == 5 || e.2.sub == 6) then 0
  else match s.bolMode with
    | 1 => s.bolFixed
    | 2 => 0
    | _ => largest ((s.rails.filter fun e => e.2.isKind 0 && e.2.st == .run && e.2.sub == 4).map fun e => -rpPmin e.2.active)

/-- The lengths in us of the horizon's slots (R237, R238, R245): the committed slot, from `first`, at the length it will have, the rest at the nominal one. -/
def State.slotLens (s : State) (w : Word) (first : DWord) (from_ : Option DWord) : List Nat :=
  max 1 (((s.slotEndOf w first from_).1 - first).toNat / 16000) :: List.replicate (horizon - 1) (s.lenUnder w)

/-- Build the ledger of the pass that commits slot c and started at `from_`, whose horizon begins at ST `first` with slots of the given lengths (R245 to R250). -/
def State.buildLedger (s : State) (c : Word) (from_ first : DWord) (lens : List Nat) : Ledger :=
  let lead : Int := Int.fdiv (first - from_).toInt 16000
  let src := s.onlineSrc
  let zero := List.replicate horizon ((0 : Int), (0 : Int))
  let st := s.stores.foldl (fun a (m, r) =>
    let (d, h) := s.storeAsk m r
    addStores a (spend d h lens (s.allowance m r))) zero
  let rows := (lens.zip st).foldl (fun (acc : List LedRow × Nat) (len, d, h) =>
    let us : Int := lead + (acc.2 + len / 2 : Nat)
    let pc := src.map fun e => s.pcapAt e.1 e.2 us
    let bol := match s.bolMode with | 1 => s.bolFixed | 2 => 0 | _ => largest pc
    ({ len := len, cap := sumI pc + d, head := h, bol := bol : LedRow } :: acc.1, acc.2 + len)) ([], 0)
  { c := c, dcl := s.dclCredit, s := s.clampS, bc := s.clampBc, spmax := sumI (s.stores.map fun e => rpPmax e.2.active), bclass := s.bolClass,
    share := (List.range 8).map fun k => fld (s.planClass k) 23 16, derate := (List.range 8).map fun k => fld (s.planClass k) 15 8, rows := rows.1.reverse }

/-! ## Limits and fit (R246, R251, R258, R261, R275) -/

/-- The energy limit of a class in a slot, in uJ (R246, R249, R250); with `nb` the bolster is released. -/
def Ledger.limit (l : Ledger) (cls j : Nat) (r : LedRow) (nb : Bool) : Int :=
  let lo := decide (cls ≤ l.bclass)
  let cap := if lo || nb then r.cap else r.av
  cap * (r.len : Nat) + r.fwd + (if lo && j == 0 then l.dcl else 0)

/-- Absorption of a slot, in uJ (R251). -/
def Ledger.abs (l : Ledger) (r : LedRow) : Int := r.tot + (l.spmax - r.chg) * (r.len : Nat)

/-- Power p with energy e fits slot j for a grant (R251, R258, R261, and the clamp of R275). -/
def Ledger.room (l : Ledger) (g : Grant) (j : Nat) (r : LedRow) (nb : Bool) (p e : Int) : Bool :=
  if g.regen then decide (r.regen + e ≤ l.abs r) && decide (r.prg + p ≤ l.spmax + r.plo + r.phi)
  else
    let sh := l.share.getD g.cls 0xFF
    let bc := if nb then 0 else l.bc
    let lo := decide (g.cls ≤ l.bclass)
    let plo := if lo then r.plo + p else r.plo
    let phi := if lo then r.phi else r.phi + p
    decide (r.tot + e ≤ l.limit g.cls j r nb)
      && (sh == 0xFF || decide (256 * (r.cls.getD g.cls 0 + e) ≤ (sh + 1 : Nat) * r.av * (r.len : Nat)))
      && decide (plo + phi ≤ l.s) && decide (phi ≤ max 0 (l.s - bc - plo))

/-- Place power p from slot j on: the energy of each slot, and whether energy is left past the horizon (HORIZON_CAP); none when some slot has no
room. `left` is none for a standing grant. -/
def Ledger.place (l : Ledger) (g : Grant) (nb : Bool) (p : Nat) : List LedRow → Nat → Option Nat → Option (List Nat × Bool)
  | [], _, left => some ([], match left with | some e => e != 0 | none => false)
  | r :: t, j, left =>
    if left = some 0 then some ([], false)
    else
      let e : Nat := match left with
        | some x => min x (p * r.len)
        | none => p * r.len
      if l.room g j r nb p e then
        match l.place g nb p t (j + 1) (left.map (· - e)) with
        | some (es, spare) => some (e :: es, spare)
        | none => none
      else none

/-- fit of R258 by kW downwards: the power in W, the energies from slot i, and HORIZON_CAP. -/
def Ledger.fitKw (l : Ledger) (g : Grant) (nb : Bool) (i : Nat) (left : Option Nat) : Nat → Nat × List Nat × Bool
  | 0 => (0, [], false)
  | k + 1 =>
    match l.place g nb (1000 * (k + 1)) (l.rows.drop i) i left with
    | some (es, spare) => (1000 * (k + 1), es, spare)
    | none => l.fitKw g nb i left k

/-- fit(g, slot i, limit, q) (R258). -/
def Ledger.fit (l : Ledger) (g : Grant) (i : Nat) (q : Nat) (left : Option Nat) (nb : Bool := false) : Nat × List Nat × Bool :=
  l.fitKw g nb i left (q / 1000)

/-- Book energies from slot i at power p (R249, R251, R261). `store` marks a charge grant. -/
def Ledger.book (l : Ledger) (g : Grant) (store : Bool) (i p : Nat) (es : List Nat) : Ledger :=
  let lo := decide (g.cls ≤ l.bclass)
  let upd := fun (r : LedRow) (e : Nat) =>
    if g.regen then { r with regen := r.regen + e, fwd := r.fwd + Int.fdiv ((e * l.derate.getD g.cls 0 : Nat)) 256, prg := r.prg + p }
    else { r with tot := r.tot + e, cls := setAt r.cls g.cls (r.cls.getD g.cls 0 + e), pcls := setAt r.pcls g.cls (r.pcls.getD g.cls 0 + p), plo := if lo then r.plo + p else r.plo,
                  phi := if lo then r.phi else r.phi + p, chg := if store then r.chg + p else r.chg }
  { l with rows := l.rows.take i ++ List.zipWith upd ((l.rows.drop i).take es.length) es ++ l.rows.drop (i + es.length) }

/-- Mark the slots of a span from slot j that had no room for a power (FULL_CLASS of R284). -/
def Ledger.markFull (l : Ledger) (g : Grant) (p : Nat) : List LedRow → Nat → Option Nat → List LedRow
  | [], _, _ => []
  | r :: t, j, left =>
    if left = some 0 then r :: t
    else
      let e : Nat := match left with
        | some x => min x (p * r.len)
        | none => p * r.len
      (if l.room g j r false p e then r else { r with full := min r.full g.cls }) :: l.markFull g p t (j + 1) (left.map (· - e))

/-- The slots of the span from slot i had no room for a power of the grant's class (FULL_CLASS of R284). -/
def Ledger.short (l : Ledger) (g : Grant) (i p : Nat) (left : Option Nat) : Ledger :=
  { l with rows := l.rows.take i ++ l.markFull g p (l.rows.drop i) i left }

/-- Row i. -/
def Ledger.row (l : Ledger) (i : Nat) : LedRow := l.rows.getD i { len := 1, cap := 0, head := 0, bol := 0 }

/-- A whole, non-negative power from an energy in uJ of a slot. -/
def LedRow.watts (r : LedRow) (e : Int) : Nat := (Int.fdiv e (max 1 r.len : Nat)).toNat

/-- The snapshot entry of a slot (R284). -/
def Ledger.entry (l : Ledger) (locked carried hold : Bool) (j : Nat) (r : LedRow) : List Byte :=
  let joule := fun (e : Int) => toLe 4 (min (2 ^ 32 - 1) (Int.fdiv e 1000000).toNat)
  let b2 := b2n (j == 0) + 2 * b2n locked + 4 * b2n (carried && j == 0) + 8 * b2n hold + 16 * b2n (decide (r.head < r.bol))
  let lo := sumI (r.cls.take (l.bclass + 1))
  let hi := sumI (r.cls.drop (l.bclass + 1))
  toLe 4 (l.c.toNat + j) ++ toLe 2 r.len ++ [BitVec.ofNat 8 b2, BitVec.ofNat 8 r.full] ++ joule (r.cap * (r.len : Nat))
    ++ joule (max 0 (r.bol - r.head) * (r.len : Nat)) ++ joule (r.fwd + (if j = 0 then l.dcl else 0)) ++ joule lo ++ joule hi ++ joule (l.abs r)

/-- Replace the ledger snapshot at 0x3_C000 by bytes (R284); the memory stays canonical, since nothing lies above it. -/
def snapshotMem (m : Mem) (bs : List Byte) : Mem :=
  (m.filter fun e => decide (e.1 < 0x3C000)) ++ (((List.range bs.length).zip bs).filterMap fun e => if e.2 = 0 then none else some (0x3C000 + e.1, e.2))

end Sys2Proof.Machine
end

