-- ==== Sys2Proof/Machine/Planner.lean ====
section
/-! DEFINITION. The energy planner: requests (R252 to R255), arbitration (R256 to R261), outcomes and notices (R262 to R271, R310), rail targets (R272 to R274), the
ledger clamp (R275 to R277), trip-shed (R278 to R283), slots and passes (R239 to R244, R284). -/

namespace Sys2Proof.Machine

/-! ## Outcomes and notices -/

/-- Write the held notices of thread t while its ring has room: 15 unread notices fill it (R310). -/
def noticePump : Nat → Nat → State → State
  | 0, _, s => s
  | n + 1, t, s =>
    let x := s.thr t
    match x.held with
    | [] => s
    | b :: rest =>
      if 15 ≤ (x.nwr + 16 - x.nrd) % 16 then s
      else
        let s := s.setThr t { x with held := rest, nwr := (x.nwr + 1) % 16 }
        noticePump n t ((s.ledgerWrite (x.nbase + 16 * x.nwr) b).raiseEv x.gev)

/-- Deliver what can be delivered of a thread's notices. -/
def State.noticeFlush (s : State) (t : Nat) : State := noticePump (s.thr t).held.length t s

/-- A notice of a decided grant (R265): to the event ring, or to the owning thread (R310). Only the device that leads sends them (R408). -/
def State.notice (s : State) (g : Grant) (code reason : Nat) (slot : Word) (power : Nat) : State :=
  let b := toLe 2 g.tag ++ [BitVec.ofNat 8 code, BitVec.ofNat 8 reason] ++ toLe 4 slot.toNat ++ toLe 4 power ++ [BitVec.ofNat 8 g.rail, BitVec.ofNat 8 g.cls, 0, 0]
  if !s.roleActs then s
  else match g.thread with
    | none => s.event 0x01 g.tag b
    | some t => (s.modThr t fun x => { x with held := x.held ++ [b] }).noticeFlush t

/-- The figures of an outcome that the ledger gives (R263). -/
structure OutFigs where
  flags : Nat
  block : Nat
  avail : Nat
  availNb : Nat
  bolster : Nat
deriving DecidableEq, Repr

/-- The outcome record of a request (R263). -/
def outcomeRec (g : Grant) (code reason power : Nat) (start dec : Word) (f : OutFigs) : List Byte :=
  toLe 2 g.tag ++ [BitVec.ofNat 8 code, BitVec.ofNat 8 reason, BitVec.ofNat 8 g.rail, BitVec.ofNat 8 g.cls, BitVec.ofNat 8 f.flags, BitVec.ofNat 8 f.block]
    ++ toLe 4 power ++ toLe 4 start.toNat ++ toLe 4 f.avail ++ toLe 4 f.availNb ++ toLe 4 dec.toNat ++ toLe 4 f.bolster

/-- Deliver the outcome of a request (R262, R263, R310, R341): to host memory and the completion, or to the requesting thread. -/
def State.outcome (s : State) (g : Grant) (code reason power : Nat) (start dec : Word) (f : OutFigs) : State :=
  let b := outcomeRec g code reason power start dec f
  let s := s.traceDecision g.tag code reason power
  match g.thread with
  | none =>
    let s := (s.modOp g.tag fun p => { p with committed := true }).emit (.hostWrite g.addr b)
    s.completeTag g.tag code reason (power + 2 ^ 32 * start.toNat)
  | some t => (s.ledgerWrite g.addr b).raiseEv (s.thr t).gev

/-! ## Arbitration (R256, R257) -/

/-- Arbitration order (R256): class, then LATEST with a started grant earliest, then tag. -/
def arbBefore (c : Word) (a b : Grant) : Bool :=
  let k := fun (g : Grant) => if g.started then (-(2 ^ 40) : Int) else slotRel g.latest c
  decide (a.cls < b.cls) || (a.cls == b.cls && (decide (k a < k b) || (k a == k b && decide (a.tag ≤ b.tag))))

/-- Insert in an order. -/
def insertBy {α : Type} (le : α → α → Bool) (x : α) : List α → List α
  | [] => [x]
  | y :: t => if le x y then x :: y :: t else y :: insertBy le x t

/-- Sort in an order. -/
def sortBy {α : Type} (le : α → α → Bool) (l : List α) : List α := l.foldr (insertBy le) []

/-- The pass as it runs: the state, the ledger, the decided grants that stay, each with what it books in the committed slot, and the outcomes given. -/
structure Arb where
  s : State
  l : Ledger
  kept : List (Grant × Nat)
  outs : List (Nat × Option Nat × List Byte) := []
deriving DecidableEq, Repr

/-- floor of R257: PMIN_ACC when CURTAILABLE, else the power itself. -/
def grantFloor (g : Grant) (q : Nat) : Nat := if g.curtailable then g.pminAcc else q

/-- Energy left after what is booked for the current slot; none for a standing grant. -/
def grantLeft (g : Grant) : Option Nat := if g.standing then none else some (g.remaining - g.booked)

/-- The energy booked in the committed slot. -/
def bookedAt (i : Nat) (es : List Nat) : Nat := if i = 0 then es.headD 0 else 0

/-- The grant's rail is a STORE and the grant charges it (R251). -/
def State.charges (s : State) (g : Grant) : Bool := !g.regen && (s.rail g.rail).isKind 3

/-- Give the rail a grant inside the provisional window, with one PROVISIONAL notice (R268, R269); a decided grant whose start slot is committed is confirmed. -/
def provStep (s : State) (g : Grant) (i depth : Nat) (fresh : Bool) : State × Grant :=
  if i = 0 then (if fresh then s else s.notice g 0x00 0 g.start g.current, g)
  else if i ≤ depth then
    let s := s.modRail g.rail fun r => { r with prov := true, provAt := s.time.st }
    if g.provSent then (s, g) else (s.notice g 0x10 0 g.start g.current, { g with provSent := true })
  else (s, g)

/-- PROV_DEPTH; 0 acts as 1. -/
def State.provDepth (s : State) : Nat := max 1 (fld (s.reg Reg.planPassCfg) 19 16)

/-- Place a decided grant (R257, R259, R268 to R270). `lost`: a source has left ONLINE since the last pass. -/
def arbDecided (lost : Bool) (a : Arb) (g : Grant) : Arb :=
  let c := a.l.c
  let why := if lost then 6 else 5
  if g.started then
    let (p, es, _) := a.l.fit g 0 g.power (grantLeft g)
    let l := a.l.book g (a.s.charges g) 0 p es
    let l := if p < g.power then l.short g 0 g.power (grantLeft g) else l
    let s := if p ≠ g.current then a.s.notice g 0x05 (if p < g.current then why else 0) c p else a.s
    { a with s := s, l := l, kept := a.kept ++ [({ g with current := p }, bookedAt 0 es)] }
  else if a.s.barred g.cls then { a with s := a.s.notice g 0x11 3 c 0 }
  else
    let carried := decide (slotRel g.start c < 0)
    let start := if carried then c else g.start
    let i := (slotRel start c).toNat
    let (p, es, _) := if i < horizon then a.l.fit g i g.power (grantLeft g) else (g.power, [], false)
    if grantFloor g g.power ≤ p then
      let l := a.l.book g (a.s.charges g) i p es
      let (s, g) := provStep a.s { g with start := start, current := p } i a.s.provDepth false
      { a with s := s, l := l, kept := a.kept ++ [(g, bookedAt i es)] }
    else { a with s := a.s.notice g 0x11 (if carried then 9 else why) c 0, l := a.l.short g i g.power (grantLeft g) }

/-- The first start slot from i on, up to n of them, at which the floor fits (R257, DEFERRED). -/
def deferAt (l : Ledger) (g : Grant) (left : Option Nat) (floor : Nat) : Nat → Nat → Option (Nat × Nat × List Nat × Bool)
  | 0, _ => none
  | n + 1, i =>
    if horizon ≤ i then none
    else
      let (p, es, spare) := l.fit g i g.peak left
      if floor ≤ p then some (i, p, es, spare) else deferAt l g left floor n (i + 1)

/-- BLOCK_CLASS (R263): the least urgent class with bookings in the slot, past which only AVAIL was left (log entry 34). -/
def blockClass (r : LedRow) : Nat := (List.range 8).foldl (fun a k => if 0 < r.cls.getD k 0 then k else a) 0xFF

/-- Place a pending request (R254, R257, R260). One aborted during its pass has no outcome, and what it would have held stays unbooked (R350). -/
def arbPending (a : Arb) (g : Grant) : Arb :=
  let c := a.l.c
  let r := a.s.rail g.rail
  let p := r.active
  let s0 := if slotRel g.earliest c < 0 then c else g.earliest
  let shift := r.st == .standby && s0 == c
  let passed := decide (slotRel g.latest c < 0)
  let s1 := if shift then c + 1 else s0
  let reason : Option Nat :=
    if !r.hasPage || r.st == .off || r.st == .stopped || r.st == .envTrip then some 2
    else if g.cls < rpClass p || a.s.barred g.cls || (rpKind p == 0 && g.cls != 7) then some 3
    else if (if g.regen then -rpPmin p else rpPmax p) < (g.peak : Int) then some 2
    else if passed then some 1
    else none
  let i := (slotRel s1 c).toNat
  let row := a.l.row (slotRel s0 c).toNat
  let left := if g.standing then none else some g.remaining
  let used := if g.regen then row.regen else row.tot
  let want : Int := match left with | some x => (min x (g.peak * row.len) : Nat) | none => (g.peak * row.len : Nat)
  let lim := fun (nb : Bool) => if g.regen then a.l.abs row else a.l.limit g.cls (slotRel s0 c).toNat row nb
  let (q, es, spare) := if i < horizon then a.l.fit g i g.peak left else (0, [], false)
  let figs : OutFigs :=
    { flags := b2n (shift && reason.isNone) + 4 * b2n (passed && reason == some 1) + 8 * b2n (a.s.stores.any fun e => a.s.allowance e.1 e.2 == 0),
      block := if reason.isNone && decide (lim false - used < want) then blockClass row else 0xFF,
      avail := row.watts (lim false - used), availNb := row.watts (lim true - used), bolster := (max 0 (row.bol - row.head)).toNat }
  let decide_ := fun (code i q : Nat) (es : List Nat) (spare : Bool) =>
    let st := c + BitVec.ofNat 32 i
    let figs := { figs with flags := figs.flags + 2 * b2n spare }
    let s := a.s.outcome g code 0 q st c figs
    let l := if q < g.peak || code ≠ 0 then a.l.short g (slotRel s1 c).toNat g.peak left else a.l
    let l := l.book g (a.s.charges g) i q es
    let (s, g) := provStep s { g with start := st, power := q, current := q, booked := 0, provSent := false } i s.provDepth true
    { s := s, l := l, kept := a.kept ++ [(g, bookedAt i es)], outs := a.outs ++ [(g.tag, g.thread, outcomeRec g code 0 q st c figs)] : Arb }
  let refuse := fun (why : Nat) => { a with s := a.s.outcome g 0x06 why 0 s1 c figs, outs := a.outs ++ [(g.tag, g.thread, outcomeRec g 0x06 why 0 s1 c figs)], l := if reason.isNone then a.l.short g i g.peak left else a.l }
  let r := match reason with
    | some why => refuse why
    | none =>
      if q = g.peak then decide_ 0x00 i q es spare
      else if g.curtailable && decide (g.pminAcc ≤ q) then decide_ 0x05 i q es spare
      else
        match (if g.deferrable then deferAt a.l g left (grantFloor g g.peak) (slotRel g.latest s1).toNat (i + 1) else none) with
        | some (i2, q2, es2, over2) => decide_ 0x04 i2 q2 es2 over2
        | none => if grantFloor g g.peak ≤ (if i < horizon then (a.l.fit g i g.peak left true).1 else 0) then refuse 4 else refuse 1
  if g.aborted then { a with l := r.l, outs := a.outs ++ [(g.tag, g.thread, [])] } else r

/-! ## Targets, clamp and trip-shed -/

/-- The targets of every rail for a slot from the grants in force, that is those that book energy in it (R272, R273): a grant whose rest the running slot takes is spent by then (the worked example of chapter 6). -/
def State.targetsOf (s : State) (c : Word) (gs : List Grant) : List Target :=
  (s.rails.filter fun e => e.2.hasPage).map fun (m, r) =>
    let mine := gs.filter fun g => g.rail == m && !g.ended && g.booked != 0 && decide (slotRel g.start c ≤ 0)
    let k := rpKind r.active
    let por := (List.range 8).map fun cl => sumN ((mine.filter fun g => !g.regen && g.cls == cl).map (·.current))
    let lo : Int := match k with
      | 0 => -r.pcapPrev
      | 3 => rpPmin r.active
      | _ => -(sumN ((mine.filter (·.regen)).map (·.current)) : Nat)
    { rail := m, portions := por, lo := lo }

/-- Lower one portion of rail m by x. -/
def Rail.lower (r : Rail) (cl x : Nat) : Rail := { r with portions := setAt r.portions cl (r.portions.getD cl 0 - x) }

/-- The clamp over the portions in its order (R276): the least urgent class first, the highest rail number first; hlo and hhi are the sums of R275. -/
def clampLoop (top bc : Int) (bcl : Nat) : List (Nat × Nat) → State × Int × Int × List Nat → State × Int × Int × List Nat
  | [], a => a
  | (cl, m) :: t, (s, hlo, hhi, low) =>
    let need := max (hlo + hhi - top) (hhi - max 0 (top - bc - hlo))
    let x := min ((s.rail m).portions.getD cl 0) need.toNat
    if x = 0 then clampLoop top bc bcl t (s, hlo, hhi, low)
    else clampLoop top bc bcl t (s.modRail m fun r => r.lower cl x, if cl ≤ bcl then hlo - x else hlo, if cl ≤ bcl then hhi else hhi - x, insertN low m)

/-- The check on the DRIVE rails' GRANT_LO (R275, R276): it is met by raising them towards 0, the highest rail first (log entry 35). -/
def clampLo : List (Nat × Rail) → Int → State → List Nat → State × List Nat
  | [], _, s, low => (s, low)
  | (m, r) :: t, excess, s, low =>
    let x := min (-r.loTarget) excess
    if x ≤ 0 then clampLo t excess s low
    else clampLo t (excess - x) (s.modRail m fun r => { r with loTarget := r.loTarget + x }) (insertN low m)

/-- Sum of portions over all rails of the classes that a test accepts. -/
def State.portionSum (s : State) (f : Nat → Bool) : Int :=
  sumI (s.rails.map fun e => ((sumN (((List.range 8).filter f).map fun cl => e.2.portions.getD cl 0) : Nat) : Int))

/-- The ledger clamp on the targets just written (R275 to R277): CLAMPED, a CLAMP event, the SAFETY bit, hardware source 23; in the SHADOW each lowered rail
mismatches (R400). -/
def State.clamp (s : State) : State :=
  let bcl := s.bolClass
  let hlo := s.portionSum fun c => decide (c ≤ bcl)
  let hhi := s.portionSum fun c => decide (bcl < c)
  let order := [7, 6, 5, 4, 3, 2, 1, 0].flatMap fun cl => (s.rails.reverse).map fun e => (cl, e.1)
  let (s, hlo, hhi, low) := clampLoop s.clampS s.clampBc bcl order (s, hlo, hhi, [])
  let drives := s.rails.filter fun e => e.2.isKind 2
  let excess := sumI (drives.map fun e => -e.2.loTarget) - (sumI (s.stores.map fun e => rpPmax e.2.active) + hlo + hhi)
  let (s, low) := clampLo drives.reverse excess s low
  let s := { s with plan := { s.plan with clampActed := low != [] } }
  if low = [] then s
  else
    let s := { s with plan := { s.plan with clamped := true } }
    let s := ((s.event 0x0B s.plan.slotNow.toNat (toLe 8 (sumN (low.map (2 ^ ·))))).safety 5).source 23 s.plan.slotNow.toNat
    if s.twin.st == .shadow then low.foldl State.mismatch s else s

/-- PLAN.SHED_CFG.MODE: 0 AUTO, 1 CUSTOM, 2 OFF; 3 acts as AUTO. -/
def State.shedMode (s : State) : Nat := let m := fld (s.reg Reg.planShedCfg) 31 30; if m = 3 then 0 else m

/-- The eight bytes of trip-shed entry i (R280, R281). -/
def State.shedEntry (s : State) (i : Nat) : List Nat :=
  if s.shedMode = 1 then
    let lo := s.reg (Reg.planShedLo + 8 * i)
    let hi := s.reg (Reg.planShedLo + 8 * i + 4)
    (List.range 8).map fun c => fld (if c < 4 then lo else hi) (8 * (c % 4) + 7) (8 * (c % 4))
  else s.plan.shed.getD i []

/-- Multiply the class portions of every DRIVE, FEEDER and STORE rail by (255 - v)/255 (R279), counting what it takes off (R202). -/
def State.shedBy (s : State) (v : List Nat) : State :=
  s.rails.foldl (fun s (m, r) =>
    if !r.hasPage || rpKind r.active = 0 then s
    else
      let por := (List.range 8).map fun c => r.portions.getD c 0 * (255 - v.getD c 0) / 255
      let s := s.setRail m { r with portions := por }
      { s with plan := { s.plan with curtailed := s.plan.curtailed + (sumN r.portions - sumN por) } }) s

/-- Entry i of the AUTO table (R280): the shortfall when source i alone is lost, shed from C7 towards FLOOR, and whether it exceeds every class there. -/
def autoEntry (s : State) (l : Ledger) (i : Nat) : List Nat × Bool :=
  let row := l.row 0
  let src := s.onlineSrc.filter fun e => bitOf (byteAt e.2.active 0x10B) 7 && byteAt e.2.active 0x10B % 8 == i
  if src = [] then (List.replicate 8 0, false)
  else
    let booked : Int := row.plo + row.phi
    let need := booked - (row.cap - sumI (src.map fun e => e.2.pcapPrev)) - row.head
    let floor := fld (s.reg Reg.planShedCfg) 29 27
    let (v, rest) := [7, 6, 5, 4, 3, 2, 1, 0].foldl (fun (acc : List Nat × Int) c =>
      let pc := row.pcls.getD c 0
      if c < floor || acc.2 ≤ 0 || pc ≤ 0 then (0 :: acc.1, acc.2)
      else if pc ≤ acc.2 then (255 :: acc.1, acc.2 - pc)
      else ((Int.fdiv (255 * acc.2 + pc - 1) pc).toNat :: acc.1, 0)) ([], need)
    (v, decide (0 < rest))

/-! ## Passes -/

/-- The pass takes in every pending request and release (R241, R267): a release ends its grant at the committed slot, and completes there. -/
def State.passBegin (s : State) (restarted : Bool) (reqs : List Grant) : State :=
  let c := s.plan.slotNow + 1
  let rel := s.plan.releases
  let p : Pass := { slot := c, from_ := s.time.st, restarted := restarted, requests := reqs, releases := rel }
  let s := { s with plan := { s.plan with reqs := [], releases := [], pass := some p, passDone := some c } }
  rel.foldl (fun s (tag, o) =>
    let ok := s.plan.grants.any fun g => g.tag == tag && !g.ended
    let s := { s with plan := { s.plan with grants := s.plan.grants.map fun g => if g.tag = tag then { g with aborted := true } else g } }
    match o with
    | some t => if ok then (s.modOp t fun p => { p with committed := true }).completeTag t stOk 0 c.toNat else s.completeTag t stBadDesc
    | none => s) s

/-- Slots and passes run (R239, R401, R476). -/
def State.planRuns (s : State) : Bool :=
  s.plan.running && !(s.pwr.st == .reset || s.pwr.st == .off || s.pwr.st == .sleep || s.pwr.st == .basting)

/-- The commit lead in force, in ST units, for a running slot of a length in ST units (R242). -/
def State.commitLead (s : State) (len : Nat) : Nat := min (16000 * max 100 (fld (s.reg Reg.planPassCfg) 15 0)) (len - 480000)

/-- The pass for the next slot is due (R241): its commit lead before the predicted start of that slot has come, and no pass has been started for it. -/
def State.passDue (s : State) : Bool :=
  let e := s.slotEnd.1
  s.reached (e - BitVec.ofNat 64 (s.commitLead (e - s.plan.slotStart).toNat)) && s.plan.passDone != some (s.plan.slotNow + 1)

/-- PASS_START (R241, R242, R401, R407): when it is due, an ACTIVE or SOLO device starts the pass for the next slot; a SHADOW, which runs none, notes the requests that its twin's pass
takes in (R408). -/
def execPassStart (s : State) : Host.Outcome State Fault Refusal :=
  .next <|
    if !s.planRuns || !s.passDue then s
    else if s.roleActs && s.plan.pass.isNone then s.passBegin false s.plan.reqs
    else if s.twin.st == .shadow then
      { s with plan := { s.plan with reqs := [], passDone := some (s.plan.slotNow + 1) }, twin := { s.twin with taken := s.plan.reqs, passBegun := true } }
    else s

/-- Start of the slot that a pass commits, and the half-cycle mark that it is. -/
def State.slotFirst (s : State) (c : Word) : DWord × Option DWord :=
  if c = s.plan.slotNow then (s.plan.slotStart, s.plan.lockPhase) else s.slotEnd

/-- The requests aborted during their pass end, each before its ABORT (R349, R350); their operations hold the ABORT's tag plus one. -/
def State.passAborts (s : State) (p : Pass) : State :=
  (p.requests.filter fun g => g.aborted).foldl (fun s g =>
    let by_ := (s.findOp g.tag).map (·.value)
    let s := s.completeTag g.tag stAborted
    match by_ with
    | some (a + 1) => s.completeTag a stOk
    | _ => s) s

/-- Work a pass through (R257, R262 to R271, R280, R284). -/
def State.passRun (s : State) (p : Pass) : State :=
  let c := p.slot
  let s := s.passAborts p
  let (first, mark) := s.slotFirst c
  let cfg := if c = s.plan.slotNow then s.plan.cfgLive else s.reg Reg.planSlotCfg
  let l := s.buildLedger c p.from_ first (s.slotLens cfg first mark)
  let on := s.onlineSrc
  let lost := s.plan.online.any fun m => !(on.any fun e => e.1 == m)
  let lead : Int := Int.fdiv (first - p.from_).toInt 16000 + ((l.row 0).len / 2 : Nat)
  let s := on.foldl (fun (t : State) e => t.modRail e.1 fun r => { r with pcapPrev := s.pcapAt e.1 e.2 lead }) s
  let s := (s.rails.filter fun e => e.2.isKind 0 && !(on.any fun o => o.1 == e.1)).foldl (fun t e => t.modRail e.1 fun r => { r with pcapPrev := 0 }) s
  let gone := s.plan.grants.filter fun g => g.aborted && !g.ended
  let s := gone.foldl (fun s g => s.notice g 0x00 7 c 0) s
  let old := s.plan.grants.filter fun g => g.aborted || g.ended
  let live := s.plan.grants.filter fun g => !(g.aborted || g.ended)
  let reqs := p.requests.map fun g => if g.cls = 0xFF && (s.rail g.rail).hasPage then { g with cls := rpClass (s.rail g.rail).active } else g
  let items := sortBy (fun a b => arbBefore c a.1 b.1) (live.map (fun g => (g, true)) ++ reqs.map fun g => (g, false))
  let a : Arb := items.foldl (fun (a : Arb) (e : Grant × Bool) => if e.2 then arbDecided lost a e.1 else arbPending a e.1) { s := s, l := l, kept := [] }
  let s := a.s
  let auto := (List.range 8).map (autoEntry s a.l)
  let short := s.shedMode = 0 && auto.any (fun (e : List Nat × Bool) => e.2)
  let carried := c == s.plan.slotNow || (p.restarted && decide ((first - s.time.st).toInt < 320000))
  let grants := a.kept.map (·.1)
  let copies := a.kept.map fun (e : Grant × Nat) => { e.1 with booked := e.2 }
  let src := s.cyc (fld cfg 29 28)
  let snap := (List.range horizon).zip a.l.rows |>.flatMap fun e => a.l.entry (s.locks cfg && src.live) carried (s.locks cfg && src.st == .holdover) e.1 e.2
  let row := a.l.row 0
  let targets := s.targetsOf c copies
  let s := { s with ledger := snapshotMem s.ledger snap }
  let pl : Planner := s.plan
  let pl : Planner := { pl with pass := none, grants := (old.map fun (g : Grant) => { g with ended := true }) ++ grants, online := on.map fun (e : Nat × Rail) => e.1 }
  let pl : Planner := { pl with shed := auto.map (fun (e : List Nat × Bool) => e.1), shedShort := pl.shedShort || short, uncovered := decide (row.head < row.bol) }
  let pl : Planner := { pl with lenNext := some (s.reg Reg.planSlotCfg) }
  let pl : Planner := if carried then pl else { pl with next := some (c, targets, copies), nextAfterTrip := pl.shedActive }
  let s := { s with plan := pl }
  let s := if s.twin.st == .active then
      s.emit (.dovetail (.passResult { slot := c, startSt := first, grants := copies, targets := targets, shed := pl.shed, outcomes := a.outs, carried := carried }))
    else s
  (s.source 1 c.toNat).tracePass c.toNat carried p.restarted pl.clampActed

/-- PASS_END (R262, R555): an uncorrectable error in what the planner reads raises the SAFETY reset. -/
def execPassEnd (ecc : Ecc) (s : State) : Host.Outcome State Fault Refusal :=
  .next <|
    match s.plan.pass with
    | none => s
    | some p =>
      match ecc with
      | .uncorrectable => (s.eccUe 3 0xFFFF).raiseRst .safety
      | .corrected => s.eccCe.passRun p
      | .ok => s.passRun p

/-! ## Slot boundaries -/

/-- Share a rail's measured energy among its grants in arbitration order (R244): each takes up to what it booked, the last the remainder; no share is negative
(log entry 36). -/
def shareOut : List Grant → Nat → List Grant
  | [], _ => []
  | [g], e => [{ g with remaining := g.remaining - e }]
  | g :: t, e => { g with remaining := g.remaining - min e g.booked } :: shareOut t (e - min e g.booked)

/-- Book the closed slot (R28, R36, R244): consumed energy to the consuming grants, returned energy to the REGEN grants of each rail. -/
def State.bookSlot (s : State) : State :=
  let c := s.plan.slotNow
  let grants := s.rails.foldl (fun gs (m, r) =>
    let mine := fun (rg : Bool) => sortBy (arbBefore c) (gs.filter fun g => g.rail == m && g.started && g.regen == rg)
    let done := shareOut (mine false) ((r.eacc * 1000).toNat) ++ shareOut (mine true) ((-r.eacc * 1000).toNat)
    gs.map fun g => (done.find? fun d => d.tag == g.tag && d.thread == g.thread).getD g) s.plan.grants
  let s := s.rails.foldl (fun t (m, _) => t.modRail m fun r => { r with eLast := r.eacc, eacc := 0, eFine := 0, vAcc := 0, vCount := 0 }) s
  { s with plan := { s.plan with grants := grants } }

/-- Grants whose energy is used up end at the boundary (R244, R265). -/
def State.endSpent (s : State) (slot : Word) : State :=
  let spent := fun (g : Grant) => g.started && !g.standing && g.remaining == 0
  let s := (s.plan.grants.filter fun g => spent g && !g.ended).foldl (fun s g => s.notice g 0x00 8 slot 0) s
  { s with plan := { s.plan with grants := s.plan.grants.filter fun g => !spent g } }

/-- Mean V_BUS over the closing slot of the bus-forming rails in RUN, mV (R250; log entry 33): of each rail the mean over its lead periods that closed in the slot, or its last word where none did. -/
def State.vbusMean (s : State) : Option Int :=
  let l := (s.rails.filter fun e => e.2.hasPage && rpFlag e.2.active 3 && e.2.st == .run).map fun (e : Nat × Rail) =>
    if e.2.vCount = 0 then s.rmInt e.1 0x28 4 else Int.fdiv e.2.vAcc (e.2.vCount : Nat)
  if l = [] then none else some (Int.fdiv (sumI l) (l.length : Nat))

/-- Write the targets of the committed slot (R272, R282): entries that fired after its pass started stay in force, and the clamp checks. -/
def State.writeTargets (s : State) (ts : List Target) : State :=
  let s := ts.foldl (fun s t => s.modRail t.rail fun r => { r with portions := t.portions, loTarget := t.lo }) s
  let stay := s.plan.shedActive &&& ~~~s.plan.nextAfterTrip
  let s := { s with plan := { s.plan with shedActive := stay, nextAfterTrip := 0, curtailed := 0, tripLost := if stay = 0 then [] else s.plan.tripLost } }
  ((List.range 8).foldl (fun s i => if stay.getLsbD i then s.shedBy (s.shedEntry i) else s) s).clamp

/-- Install the copies of a committed slot: what each grant books there, and that it has started (R170, R259). -/
def State.startGrants (s : State) (c : Word) (copies : List Grant) : State :=
  let gs := (s.plan.grants.filter fun g => !g.ended).map fun g =>
    match copies.find? fun k => k.tag == g.tag && k.thread == g.thread with
    | some k => { g with booked := k.booked, started := g.started || decide (slotRel g.start c ≤ 0) }
    | none => g
  { s with plan := { s.plan with grants := gs } }

/-- The ARMED rails with a started grant have seen a slot boundary (R170): each enters RUN at its lead's next boundary. -/
def State.armedSlots (s : State) : State :=
  s.rails.foldl (fun s (m, r) => if r.st == .armed && s.grantOn m then s.modRail m fun r => { r with slotSince := true } else s) s

/-- Write cells of a memory below a bound over what it held there (R396). -/
def installCells (m : Mem) (lo hi : Nat) (cells : List (Nat × Byte)) : Mem :=
  (cells.filter fun e => decide (lo ≤ e.1 ∧ e.1 < hi)).foldl (fun m e => memSet 0 m e.1 e.2) (m.filter fun e => decide (e.1 < lo ∨ hi ≤ e.1))

/-- The half-cycle mark at which a boundary taken from the twin fell, when slots are locked (R237, R401). -/
def State.markAt (s : State) (t : DWord) : Option DWord :=
  let c := s.cyc (fld s.plan.cfgLive 29 28)
  if s.locks s.plan.cfgLive && c.live then some (BitVec.ofInt 64 (Int.fdiv (c.phaseAt t + 1073741824) 2147483648 * 2147483648)) else none

/-- The next slot boundary (R239, R240, R401): the number of the slot that starts there, its instant and its half-cycle mark. A JOINING or SHADOW device keeps no slot timing of its own: it takes the boundary at which it installs the
twin's state, and then the start of each committed slot from the pass results, that of a carried slot included (R243). -/
def State.nextBoundary (s : State) : Option (Word × DWord × Option DWord) :=
  match s.twin.st with
  | .joining | .shadow =>
    if s.twin.st == .joining && s.twin.joinStep < 3 then
      match s.twin.joinIn with
      | some (.joinState slot a _ _ _ _ _ _ _ _) => if s.twin.joinStep = 2 then some (slot, a, none) else none
      | _ => none
    else match s.plan.next with
      | some e => some (e.1, s.plan.nextStart, s.markAt s.plan.nextStart)
      | none => if 0 < (s.plan.nextStart - s.plan.slotStart).toInt then some (s.plan.slotNow + 1, s.plan.nextStart, s.markAt s.plan.nextStart) else none
  | _ => some (s.plan.slotNow + 1, s.slotEnd)

/-- Step 2 of a join (R416, R401): rail, drawer and ledger memories and the planner state (slot, grants, requests, targets in force, trip-shed entries) come from the twin; then the engines start and ROLE is SHADOW. -/
def State.joinInstall (s : State) : State :=
  if s.twin.st == .joining && s.twin.joinStep == 2 then
    match s.twin.joinIn with
    | some (.joinState slot startSt term rails drawers ledger grants reqs targets shed) =>
      let s := { s with railMem := installCells s.railMem 0 0x40000 rails, drawerMem := installCells s.drawerMem 0 0x40000 drawers }
      let s := { s with ledger := installCells s.ledger 0 0x3BE00 ledger }
      let s := { s with plan := { s.plan with slotNow := slot, slotStart := startSt, nextStart := startSt, lockPhase := s.markAt startSt, grants := grants, reqs := reqs, shed := shed } }
      let s := targets.foldl (fun s t => s.modRail t.rail fun r => { r with portions := t.portions, loTarget := t.lo }) s
      let r := roleOf s.twin
      let s := { s with twin := { s.twin with joinStep := 3, joinCount := 0, joinIn := none, digOwn := [], digPeer := [], badOwn := [], badPeer := [], mism := [] } }
      (s.setTerm term).roleChanged r
    | _ => s
  else s

/-- Ledger memory below the read-only regions with every thread's store buffer drained (R396), as the SHADOW is sent it. -/
def State.drainedLedger (s : State) : List (Nat × Byte) :=
  let m := s.threads.foldl (fun m e => e.2.buf.foldl (fun m b => memWrite 0 m b.adr (toLe b.len b.data.toNat)) m) s.ledger
  m.filter fun e => decide (e.1 < 0x3BE00)

/-- What a joining twin installs at a slot boundary (R416). -/
def State.joinItem (s : State) : DvItem :=
  .joinState s.plan.slotNow s.plan.slotStart s.twin.term s.railMem s.drawerMem s.drainedLedger s.plan.grants s.plan.reqs
    (s.rails.map fun (m, r) => { rail := m, portions := r.portions, lo := r.loTarget }) s.plan.shed

/-- ALIGNED comes back after a full slot without a mismatch (R402), a join counts its quiet slots (R416). -/
def State.twinSlot (s : State) : State :=
  let t : Twin := s.twin
  let quiet := !t.slotMism
  let t : Twin := { t with slotMism := false, aligned := t.aligned || (quiet && (t.st == .shadow || (t.st == .active && t.peer == .shadow))) }
  let t : Twin := { t with joinCount := if t.st == .joining && t.joinStep == 3 then t.joinCount + 1 else t.joinCount }
  { s with twin := t }

/-- SLOT_BOUNDARY (R170, R401, R237 to R240, R243, R244, R272, R282, R400, R416): once the running slot's end has come, that instant starts the next slot: the closed slot is booked, spent grants end, the committed slot's targets are
written or the slot is carried, and a slot configuration takes effect. -/
def execSlotBoundary (s : State) : Host.Outcome State Fault Refusal :=
  .next <| match s.nextBoundary with
  | none => s
  | some (c, now, mark) =>
    if !s.planRuns || !s.reached now then s
    else
      let s := { s with plan := { s.plan with lenClosed := max 1 ((now - s.plan.slotStart).toNat / 16000) } }
      let s := { s.bookSlot with plan := { s.bookSlot.plan with vbusClosed := s.vbusMean } }
      let s := s.endSpent c
      let s := if mark.isSome then { s with cycs := tabSet (fun _ => {}) s.cycs (fld s.plan.cfgLive 29 28) { s.cyc (fld s.plan.cfgLive 29 28) with broke := (s.cyc (fld s.plan.cfgLive 29 28)).st != .tracking } } else s
      let cfg := s.plan.lenNext.getD s.plan.cfgLive
      let kept := if fld cfg 29 28 = fld s.plan.cfgLive 29 28 && s.locks cfg then mark else none
      let pl := { s.plan with slotNow := c, slotStart := now, lockPhase := kept, cfgLive := cfg, lenNext := none, lockErr := s.lockErrOf cfg }
      let s := { s with plan := { pl with slotLen := s.lenUnder cfg, locked := s.locks cfg } }
      let s := match s.plan.next with
        | some (k, ts, copies) =>
          if k = c then ({ s with plan := { s.plan with next := none } }.startGrants c copies).writeTargets ts
          else { s with plan := { s.plan with next := none, carried := true } }
        | none => if s.roleActs then { s with plan := { s.plan with carried := true } } else s
      let s := ((s.armedSlots).joinInstall).twinSlot
      let s := if s.twin.st == .active && s.twin.link then s.emit (.dovetail (.ledgerMem s.drainedLedger)) else s
      let s := if s.twin.st == .active && s.twin.link && s.twin.peer == .joining then s.emit (.dovetail s.joinItem) else s
      s.source 0 s.plan.slotNow.toNat

/-! ## Trip-shed -/

/-- GEN_TRIP_N_FALL (R278 to R283): the edge latches with hardware source 2 + i; an enabled one fires entry i on the targets in force, which the clamp checks, and a running
pass starts again with the source taken as lost. -/
def execGenTripNFall (i : Fin 8) (s : State) : Host.Outcome State Fault Refusal :=
  let cfg := s.reg Reg.planShedCfg
  let s := { s with plan := { s.plan with latch := setBit s.plan.latch i true, level := setBit s.plan.level i true } }
  let s := s.source (2 + i) i
  .next <|
    if !bitOf (fld cfg 15 8) i || s.shedMode = 2 then s
    else
      let lost := (s.onlineSrc.filter fun e => bitOf (byteAt e.2.active 0x10B) 7 && byteAt e.2.active 0x10B % 8 == i.val).map (·.1)
      let pl := { s.plan with tripLost := s.plan.tripLost ++ lost, shedActive := setBit s.plan.shedActive i true }
      let s := { s with plan := { pl with nextAfterTrip := setBit pl.nextAfterTrip i false } }
      let s := (s.shedBy (s.shedEntry i)).clamp
      match s.plan.pass with
      | some p => s.passBegin true (p.requests ++ s.plan.reqs)
      | none => s

/-! ## Requests (R252, R253) -/

/-- The request of a record (R252). -/
def requestOf (tag : Nat) (thread : Option Nat) (addr : Nat) (b : List Byte) : Grant :=
  let fl := byteAt b 2
  let j := leAt b 0x10 8
  { tag := tag, thread := thread, addr := addr, rail := byteAt b 0, cls := byteAt b 1,
    deferrable := bitOf fl 0, curtailable := bitOf fl 1, regen := bitOf fl 2, peak := leAt b 4 4, pminAcc := leAt b 8 4, standing := j == 0, remaining := j * 1000000, earliest := BitVec.ofNat 32 (leAt b 0x18 4),
    latest := BitVec.ofNat 32 (leAt b 0x1C 4), start := 0, power := 0, current := 0, booked := 0, started := false, provSent := false, aborted := false, ended := false }

/-- A request enters the request table (R241), and the twin is told (R396). -/
def State.postRequest (s : State) (g : Grant) : State :=
  let s := { s with plan := { s.plan with reqs := s.plan.reqs ++ [g] } }
  if s.twin.st == .active then s.emit (.dovetail (.request g)) else s

/-- A tag is that of a grant or request that has not ended. -/
def State.grantTag (s : State) (tag : Nat) : Bool :=
  (s.plan.grants.any fun g => g.tag == tag && !g.ended) || (s.plan.reqs.any fun g => g.tag == tag)
    || (match s.plan.pass with | some p => p.requests.any fun g => g.tag == tag | none => false)

/-- GRANT_REQUEST (R252 to R255, R333): the request is checked and waits in the request table for its pass. -/
def execGrantRequest (o : Nat) (s : State) : Host.Outcome State Fault Refusal :=
  .next <| opRun s o 0x20 (fun op s => s.requestBad (slice op.desc 8 32)) noPre fun op s =>
    if op.accepted then s
    else (s.putOp { op with accepted := true }).postRequest (requestOf op.tag none (op.u64 0x28) (slice op.desc 8 32))

/-- GRANT_RELEASE (R267): the release waits for the pass that takes it. -/
def execGrantRelease (o : Nat) (s : State) : Host.Outcome State Fault Refusal :=
  .next <| opRun s o 0x21 noBad noPre fun op s =>
    if op.accepted then s
    else
      let s := s.putOp { op with accepted := true }
      { s with plan := { s.plan with releases := s.plan.releases ++ [(op.u16 8, some op.tag)] } }

end Sys2Proof.Machine
end

