-- ==== Sys2Proof/Machine/Twin.lean ====
section
/-! DEFINITION. Twin operation (ch. Twin operation over the dovetail link): the items of the link (R396, R402), loss of the twin and bids (R404 to R409), hand-over and
resets (R410, R411), terms (R412 to R414), starting and joining (R413, R415, R416) and the commands of TWIN.CTL (R417). -/

namespace Sys2Proof.Machine

/-- Change the twin unit. -/
def State.modTwin (s : State) (f : Twin → Twin) : State := { s with twin := f s.twin }

/-! ## Terms and states -/

/-- The term stored in NVM ring 2 (R412, R500), 0 when the ring is empty (log entry 12). -/
def State.storedTerm (s : State) : Word :=
  match s.newestRec 2 with
  | some b => BitVec.ofNat 32 (leAt b 0 4)
  | none => 0

/-- TAKE with the term and ARM = 0 to every lane in RUN (R405, R412). -/
def State.takeAll (s : State) : State :=
  s.lanes.foldl (fun s (n, l) => if l.st == .run then s.dn n (.take s.twin.term false) else s) s

/-- Enter a twin state: ACTIVE or SOLO from neither of them sends TAKE and restarts the discipline (R403, R412); without a twin the device is not aligned (R394). -/
def State.twinEnter (s : State) (st : TwinState) : State :=
  let led := s.roleActs
  let s := s.modTwin fun t => { t with aligned := t.aligned && !(st == .solo || st == .detached || st == .off), waiting := t.waiting && st == .off, passBegun := false }
  let s := s.twinTo st
  if s.roleActs && !led then
    let s := s.modTwin fun t => { t with raises := 0 }
    let s := if s.time.disc == .free then s else { s with time := { s.time with disc := .acquiring, goodEdges := 0, autoDone := false } }
    s.takeAll
  else s

/-- SOLO or ACTIVE from OFF, with the term of R413. -/
def State.startLead (s : State) (st : TwinState) (other : Word) : State :=
  let own := s.storedTerm
  (s.setTerm (BitVec.ofNat 32 (max own.toNat other.toNat) + 0x100)).twinEnter st

/-- Enter JOINING (R416): every lane goes OFF until ST has been stepped. -/
def State.joinStart (s : State) : State :=
  let s := s.lanes.foldl (fun s (n, _) => s.laneOff n) s
  (s.modTwin fun t => { t with joinStep := 0, joinCount := 0, joinIn := none, digOwn := [], digPeer := [], badOwn := [], badPeer := [], mism := [], await := [], copies := [] }).twinEnter .joining

/-- An OFF device's lanes are READY: it waits for its twin with its stored term (R412, R415). -/
def State.twinWait (s : State) : State :=
  if s.twin.st == .off then (s.setTerm s.storedTerm).modTwin fun t => { t with waiting := true, waits := 0, waitAt := s.time.st } else s

/-! ## Losing the twin (R404 to R409) -/

/-- Bid (R405): the term rises by 1, the device enters TAKING and sends TAKE on every RUN lane; with no lane in RUN there is none to wait for. -/
def State.bid (s : State) : State :=
  let begun := s.twin.passBegun
  let s := ((s.setTerm (s.twin.term + 1)).modTwin fun t => { t with raises := 0 }).twinEnter .taking
  let idle := s.lanes.all fun e => e.2.st != .run
  (s.modTwin fun t => { t with passBegun := begun, bidAt := if idle then some s.time.st else none }).takeAll

/-- Lanes that a join has returned to OFF train again when the join ends before its step of ST (R94, R416). -/
def State.trainBack (s : State) : State :=
  if s.twin.st == .joining && s.twin.joinStep == 0 then
    (List.range 1024).foldl (fun s n => if s.laneOk n && wbit (s.reg Reg.linkLaneCtl n) 0 && (s.lane n).st == .off then s.laneTrain n else s) s
  else s

/-- A loss condition (R404, R405): 0 WATCHDOG, 1 YIELD, 2 ALIVE, 3 LINK, 4 PEER. TWIN.LOSS takes it when it comes within 2 us of the first. -/
def State.twinLoss (s : State) (bit : Nat) : State :=
  let t := s.twin
  let first := t.loss = 0
  let s := if first then s.modTwin fun t => { t with loss := setBit t.loss bit true, lossAt := s.time.st }
    else if (s.time.st - t.lossAt).toNat ≤ 32000 then s.modTwin fun t => { t with loss := setBit t.loss bit true } else s
  match t.st with
  | .shadow => s.bid
  | .active => if bit = 3 && t.aliveIn then s.bid else s.twinEnter .solo
  | .detached => if bit = 0 || bit = 2 || bit = 4 then s.bid else s
  | .joining => (s.trainBack.twinEnter .off).modTwin fun t => { t with joinStep := 0, joinIn := none, waiting := true, waits := 0, waitAt := s.time.st }
  | .off | .solo | .taking => s

/-- TAKE_REQ_LOW (R404): WATCHDOG; a wake source of SLEEP when SUP.WAKE_CFG.TREQ is 1 (R480). -/
def execTakeReqLow (s : State) : Host.Outcome State Fault Refusal :=
  let s := s.modTwin fun t => { t with reqIn := true }
  .next ((if wbit (s.reg Reg.supWakeCfg) 1 then s.wake 6 else s).twinLoss 0)

/-- YIELD_RECEIVED (R404, R410): YIELD. -/
def execYieldReceived (s : State) : Host.Outcome State Fault Refusal := .next ((s.modTwin fun t => { t with yieldIn := true }).twinLoss 1)

/-- ALIVE_LOSS (R404): TWIN_ALIVE_IN has stopped changing. -/
def execAliveLoss (s : State) : Host.Outcome State Fault Refusal := .next ((s.modTwin fun t => { t with aliveIn := false }).twinLoss 2)

/-- LINK_LOSS (R393, R404): no lane has carried a good frame for 1 us. -/
def execLinkLoss (s : State) : Host.Outcome State Fault Refusal :=
  .next (if (s.time.st - s.twin.frameAt).toNat < 16000 then s else (s.modTwin fun t => { t with link := false, dvUp := 0 }).twinLoss 3)

/-- The RUN lanes, and those of them whose last good trailer shows MASTER (R406). -/
def State.masterCount (s : State) : Nat × Nat :=
  s.lanes.foldl (fun c e => if e.2.st == .run then (c.1 + 1, c.2 + b2n (e.2.status.getLsbD 9)) else c) (0, 0)

/-- A bid is won (R406, R408): ACTIVE when the link is up and the twin has entered SHADOW, or has yielded to this bid, else SOLO. The lost twin's undecided host requests are
dropped, and its pass is run again at once. -/
def State.bidWon (s : State) : State :=
  let t := s.twin
  let st : TwinState := if t.link && (t.peer == .shadow || t.yieldIn) then .active else .solo
  let reqs := (t.taken ++ s.plan.reqs).filter fun g => g.thread.isSome
  let s := { s with ops := s.ops.map fun (o : Op) => { o with held := false }, plan := { s.plan with reqs := reqs } }
  let s := s.modTwin fun t => { t with taken := [], yieldIn := false }
  let aligned := t.aligned && st == .active
  let s := (s.twinEnter st).modTwin fun t => { t with aligned := aligned }
  if t.passBegun && s.planRuns && s.plan.pass.isNone then s.passBegin true s.plan.reqs else s

/-- A bid is lost (R406, R407): DETACHED, and the held operations complete TWIN_ROLE. -/
def State.bidLost (s : State) : State :=
  let held := s.ops.filter fun o => o.held && !o.done
  let s := s.modTwin fun t => { t with taken := [], yieldIn := false }
  (held.foldl (fun s o => s.completeTag o.tag stTwinRole) s).twinEnter .detached

/-- BID_RESOLVE (R406): 3 us after its TAKE has left, a PORT 0 bidder wins with half of its RUN lanes or more, a PORT 1 bidder with more than half. -/
def execBidResolve (s : State) : Host.Outcome State Fault Refusal :=
  let (r, m) := s.masterCount
  .next <|
    if s.twin.st != .taking || (match s.twin.bidAt with | some a => decide ((s.time.st - a).toNat < 48000) | none => true) then s
    else if (if s.port then decide (r < 2 * m) else decide (r ≤ 2 * m)) then s.bidWon
    else s.bidLost

/-- PEER of a DETACHED device (R404): PEER_OK = 0 in the last good trailer of more than half of its RUN lanes. -/
def State.peerCheck (s : State) : State :=
  if s.twin.st != .detached then s
  else
    let (r, z) := s.lanes.foldl (fun (c : Nat × Nat) e => if e.2.st == .run then (c.1 + 1, c.2 + b2n (!e.2.status.getLsbD 8)) else c) (0, 0)
    if r < 2 * z then s.twinLoss 4 else s

/-- TERM_LOW within 1 us of a TAKE (R414): the term rises by 0x100 and TAKE goes out again; after the fourth raise TERM_ERR and a TWIN event. One report answers the TAKE that
left last. -/
def State.termLow (s : State) : State :=
  match s.twin.takeAt with
  | none => s
  | some a =>
    if 16000 < (s.time.st - a).toNat then s
    else if 4 ≤ s.twin.raises then
      (s.modTwin fun t => { t with termErr := true, takeAt := none }).event 0x10 (roleOf s.twin) (toLe 4 s.twin.term.toNat)
    else ((s.setTerm (s.twin.term + 0x100)).modTwin fun t => { t with raises := t.raises + 1, takeAt := none }).takeAll

/-! ## Realignment (R402) -/

/-- Install a realignment copy: rail memory 0x100 to 0xFFF of rail m, and the program areas of its drawers. -/
def State.installCopy (s : State) (m : Nat) (rail drawers : List (Nat × Byte)) : State :=
  let base := 4096 * m
  let s := { s with railMem := installCells s.railMem (base + 0x100) (base + 0x1000) (rail.map fun (e : Nat × Byte) => (base + e.1, e.2)) }
  let ks := ((rpCells m (s.rail m).active).map (· / 16)).eraseDups
  let free := fun (a : Nat) => let o := a % 4096; ks.contains (a / 4096) && (decide (0x800 ≤ o) || decide (80 ≤ o % 128))
  { s with drawerMem := (drawers.filter fun (e : Nat × Byte) => free e.1).foldl (fun m e => memSet 0 m e.1 e.2) (s.drawerMem.filter fun (e : Nat × Byte) => !free e.1) }

/-- The copy that the ACTIVE sends. -/
def State.copyItem (s : State) (m : Fin 64) : DvItem :=
  let base := 4096 * m.val
  let ks := ((rpCells m (s.rail m).active).map (· / 16)).eraseDups
  .realignCopy m ((s.railMem.filter fun (e : Nat × Byte) => decide (base + 0x100 ≤ e.1 ∧ e.1 < base + 0x1000)).map fun (e : Nat × Byte) => (e.1 - base, e.2))
    (s.drawerMem.filter fun (e : Nat × Byte) => ks.contains (e.1 / 4096) && (decide (0x800 ≤ e.1 % 4096) || decide (80 ≤ e.1 % 128)))

/-- REALIGN (R402): it comes with the first lead boundary at least 20 us after the mismatch, and each adds 1 to REALIGNS, and more than 8 of one rail within 1 s clear ALIGNED; the ACTIVE sends the rail's state, the SHADOW or the joining device installs
it, and a join starts its count again (R416). -/
def execRealign (m : Fin 64) (s : State) : Host.Outcome State Fault Refusal :=
  let t := s.twin
  .next <|
    if !t.mism.any fun (e : Nat × DWord) => e.1 == m.val && decide (320000 ≤ ((s.rail m).leadAt - e.2).toNat ∧ ((s.rail m).leadAt - e.2).toNat < 2 ^ 63) then s
    else
      let now := s.time.st
      let log := (m.val, now) :: t.aligns.filter fun e => decide ((now - e.2).toNat ≤ 16000000000)
      let many := decide (8 < (log.filter fun e => e.1 == m.val).length)
      let s := s.modTwin fun t =>
        { t with mism := t.mism.filter (fun (e : Nat × DWord) => e.1 != m.val), realigns := satInc 0xFFFF t.realigns, aligns := log, aligned := t.aligned && !many, joinCount := 0 }
      if t.st == .active then s.emit (.dovetail (s.copyItem m))
      else if t.st == .shadow || t.st == .joining then
        match t.copies.find? fun e => e.1 == m.val with
        | some (_, r, d) => (s.modTwin fun t => { t with copies := t.copies.filter fun e => e.1 != m.val }).installCopy m r d
        | none => s.modTwin fun t => { t with await := insertN t.await m }
      else s

/-! ## The items of the link (R396) -/

/-- What a stamp of the twin brings about, once link and peer are known (R394, R410, R413, R415, R416). -/
def State.peerSeen (s : State) : State :=
  let t := s.twin
  let leads := t.peer == .solo || t.peer == .active
  match t.st with
  | .off =>
    if !t.waiting then s
    else if leads then (s.setTerm t.peerTerm).joinStart
    else if !s.port && (t.peer == .off || t.peer == .joining) then s.startLead .active t.peerTerm
    else if s.port && t.peer == .off then s.joinStart
    else s
  | .solo => if t.peer == .joining || t.peer == .shadow then s.twinEnter .active else s
  | .active =>
    if t.yielded && t.peer == .active then
      (s.modTwin fun t => { t with yielded := false }).twinEnter .shadow
    else if t.peer == .off || t.peer == .detached || t.peer == .solo then (s.modTwin fun t => { t with yielded := false }).twinEnter .solo
    else s
  | .joining =>
    if !leads then s
    else
      let s := s.setTerm t.peerTerm
      if t.joinStep = 0 && s.mayStep then
        let s := (s.stepTo t.peerSt).modTwin fun t => { t with joinStep := 1 }
        (List.range 1024).foldl (fun s n => if s.laneOk n && wbit (s.reg Reg.linkLaneCtl n) 0 then s.laneTrain n else s) s
      else s
  | .shadow | .taking | .detached => s

/-- A stamp of the twin (R391, R393, R396): the link is up when grade, protocol and PORT pair; a SHADOW's arrival aligns the ACTIVE. The steering of TWIN mode, whose arithmetic the
spec does not state, has a free target within the clamp of R213 (R403, log entry 4). -/
def State.stampIn (s : State) (st : DWord) (ps : TwinState) (term : Word) (port : Bool) (grade : BitVec 2) (proto : Byte) : State :=
  let pairs := grade == s.grade && proto == 0x01 && port != s.port
  let was := s.twin.peer
  let s := s.modTwin fun t =>
    { t with link := pairs, dvUp := if t.dvUp = 0 then 0xFF else t.dvUp, aliveIn := true, reqIn := false }
  if !pairs then s
  else
    let s := s.modTwin fun t => { t with peer := ps, peerSt := st, peerTerm := term, aligned := t.aligned || (t.st == .active && ps == .shadow && was != .shadow) }
    let s :=
      if s.steer = 2 then
        let (w, s) := s.freshWord
        { s with time := { s.time with freqTarget := clampI (-200000) 200000 w.toInt } }
      else s
    s.peerSeen

/-- The pass result of the ACTIVE (R282, R400, R401): the SHADOW installs it before the slot starts, and the requests that have their outcome leave its table. Of a carried slot it takes the boundary alone, and keeps its targets (R243). Its pass took in the trips that fired before it ended, which restarted it (R283); this device's own view of them is that of the result's arrival. -/
def State.passResultIn (s : State) (r : PassResult) : State :=
  let kept := (s.twin.taken ++ s.plan.reqs).filter fun g => !r.outcomes.any fun k => k.1 == g.tag && k.2.1 == g.thread
  let pl := { s.plan with nextStart := r.startSt, lenNext := some (s.reg Reg.planSlotCfg), grants := r.grants, shed := r.shed, reqs := kept }
  let pl := if r.carried then { pl with next := none, slotNow := r.slot - 1, carried := true } else { pl with next := some (r.slot, r.targets, r.grants), nextAfterTrip := s.plan.shedActive }
  ({ s with plan := pl }).modTwin fun t => { t with taken := [], passBegun := false }

/-- The device follows its twin: SHADOW, or JOINING once it runs (R396, R400, R416). -/
def State.follows (s : State) : Bool := s.twin.st == .shadow || (s.twin.st == .joining && decide (3 ≤ s.twin.joinStep))

/-- DOVETAIL_FRAME (R393, R396): an item from the twin. Items other than stamps count only on a paired link (R391). -/
def execDovetailFrame (i : DvItem) (s : State) : Host.Outcome State Fault Refusal :=
  let s := s.modTwin fun t => { t with frameAt := s.time.st, dvUp := if t.dvUp = 0 then 0xFF else t.dvUp }
  .next <| match i with
    | .stamp st ps term _ port grade proto => s.stampIn st ps term port grade proto
    | i =>
      if !s.twin.link then s
      else match i with
        | .stamp .. => s
        | .crcBitmap bad => s.peerMap (bad.map fun n => n.val)
        | .outDigest e crc => s.peerDigest e crc
        | .pubDigest m crc => s.peerDigest (2048 + m) crc
        | .railOp d a => if s.follows then s.modTwin fun t => { t with applyQ := t.applyQ ++ [(a, .peerOp d)] } else s
        | .rsp m v a => if s.follows then s.modTwin fun t => { t with applyQ := t.applyQ ++ [(a, Apply.rsp m v)] } else s
        | .request g => if s.follows then { s with plan := { s.plan with reqs := s.plan.reqs ++ [g] } } else s
        | .passResult r => if s.follows then s.passResultIn r else s
        | .ledgerMem cells => if s.follows then { s with ledger := installCells s.ledger 0 0x3BE00 cells } else s
        | .realignCopy m r d =>
          if s.twin.await.contains m then (s.modTwin fun t => { t with await := t.await.filter (· != m.val) }).installCopy m r d
          else if s.follows then s.modTwin fun t => { t with copies := t.copies.filter (fun e => e.1 != m.val) ++ [(m.val, r, d)] } else s
        | .joinState slot a term r d l g q ts sh =>
          if s.twin.st == .joining then s.modTwin fun t => { t with joinIn := some (.joinState slot a term r d l g q ts sh) } else s
        | .laneFaults l => s.modTwin fun t => { t with peerFault := l.map fun n => n.val }

/-- DOVETAIL_LANE_LOSS (R393): the lane's bit clears. -/
def execDovetailLaneLoss (i : Fin 8) (s : State) : Host.Outcome State Fault Refusal :=
  .next (s.modTwin fun t => { t with dvUp := setBit t.dvUp i false })

/-- ALIVE_TOGGLE (R392): TWIN_ALIVE_OUT changes level, 256 ns after its last change or later, and a stamp goes out, but for a reset, SLEEP, BASTING and OFF. -/
def execAliveToggle (s : State) : Host.Outcome State Fault Refusal :=
  .next <| match s.pwr.st with
    | .reset | .sleep | .basting | .off => s
    | _ =>
      if (match s.twin.aliveAt with | some a => decide ((s.time.st - a).toNat < 4096) | none => false) then s
      else (s.modTwin fun t => { t with aliveOut := !t.aliveOut, aliveAt := some s.time.st }).emit (.dovetail s.stampItem)

/-! ## Hand-over, resets, TWIN.CTL -/

/-- RESET_REQ_RECEIVED (R462): the TWIN reset source. -/
def execResetReqReceived (s : State) : Host.Outcome State Fault Refusal := .next (s.raiseRst .twin)

/-- A command of TWIN.CTL acts only with its key (R417). -/
def twinCmd (key : Byte) (s : State) (ok : Bool) (f : State → State) : State :=
  s.viaBar0 fun s => if key ≠ 0x5A then s else if ok then f s else s.modTwin fun t => { t with cmdRej := true }

/-- TWIN_YIELD (R410): YIELD to an aligned SHADOW. -/
def execTwinYield (key : Byte) (s : State) : Host.Outcome State Fault Refusal :=
  .next <| twinCmd key s (s.alignedTwin && s.twin.link) fun s => (s.emit .yieldMsg).modTwin fun t => { t with yielded := true }

/-- TWIN_SOLO (R413, R417): an OFF device with the link down leads alone; in PARK it stays OFF (R476). -/
def execTwinSolo (key : Byte) (s : State) : Host.Outcome State Fault Refusal :=
  .next <| twinCmd key s (s.twin.st == .off && !s.twin.link && s.pwr.st != .park) fun s => s.startLead .solo 0

/-- TWIN_DETACH (R416, R417): JOINING, SHADOW and DETACHED return to OFF. -/
def execTwinDetach (key : Byte) (s : State) : Host.Outcome State Fault Refusal :=
  .next <| twinCmd key s (s.twin.st == .joining || s.twin.st == .shadow || s.twin.st == .detached) fun s =>
    ((s.trainBack.modTwin fun t => { t with waiting := false }).twinEnter .off).modTwin fun t => { t with waiting := false, joinStep := 0, joinIn := none, applyQ := [] }

/-! ## Starting and joining -/

/-- START_WAIT in ST units (R415, TWIN.CFG): 100 ms units; 0 acts as 1. -/
def State.startWait (s : State) : Nat := 1600000000 * max 1 (fld (s.reg Reg.twinCfg) 7 0)

/-- START_WAIT_EXPIRY (R415): once START_WAIT has passed, the PORT 0 device leads alone; the PORT 1 device does so when twice START_WAIT has passed and TWIN_ALIVE_IN has stayed still, or it stays OFF with a TWIN event and waits for the key write of SOLO or the link. -/
def execStartWaitExpiry (s : State) : Host.Outcome State Fault Refusal :=
  let t := s.twin
  .next <|
    if t.st != .off || !t.waiting || t.link || 2 ≤ t.waits || decide ((s.time.st - t.waitAt).toNat < (t.waits + 1) * s.startWait) then s
    else if !s.port then s.startLead .solo 0
    else if t.waits = 0 then s.modTwin fun t => { t with waits := 1 }
    else if t.aliveIn then (s.modTwin fun t => { t with waits := 2 }).event 0x10 (roleOf t) (toLe 4 t.term.toNat)
    else s.startLead .solo 0

/-- JOIN_DIGEST_MATCH (R416): step 1 of a join is done. -/
def execJoinDigestMatch (s : State) : Host.Outcome State Fault Refusal :=
  .next (if s.twin.st == .joining && s.twin.joinStep == 1 then s.modTwin fun t => { t with joinStep := 2 } else s)

/-- JOIN_COMPLETE (R416): after JOIN_SLOTS slots without a realignment the device enters SHADOW with ALIGNED. -/
def execJoinComplete (s : State) : Host.Outcome State Fault Refusal :=
  let need := max 1 (fld (s.reg Reg.twinCfg) 15 8)
  .next <|
    if s.twin.st == .joining && s.twin.joinStep == 3 && decide (need ≤ s.twin.joinCount) then
      (s.modTwin fun t => { t with aligned := true }).twinEnter .shadow
    else s

/-- TERM_STORE (R412, R500): a changed term goes into NVM ring 2. -/
def execTermStore (s : State) : Host.Outcome State Fault Refusal :=
  .next (if s.twin.term = s.storedTerm then s else s.supRecord 2 (toLe 4 s.twin.term.toNat ++ toLe 8 s.twin.termAt.toNat))

end Sys2Proof.Machine
end

