-- ==== Sys2Proof/Machine/CellLink.lean ====
section
/-! DEFINITION. The two superframes of a lane (ch. Cell link): what an upstream superframe brings (lock, auxiliary values, bring-up, range, samples, guard, dead time, learning,
diode emulation, undershoot, capture) and what a downstream superframe carries. -/

namespace Sys2Proof.Machine

/-! ## Trailer: lock, auxiliary values, bring-up -/

/-- An auxiliary byte (R54): the high byte in an even SEQ, the low byte in the next odd one with the same selector; the value when this completes it. -/
def Lane.auxByte (l : Lane) (t : Trailer) : Lane × Option (Nat × BitVec 16) :=
  let seq : Byte := BitVec.ofNat 8 t.seq
  if t.seq % 2 = 0 then ({ l with auxHi := some (t.auxSel, t.auxByte), auxSeq := seq }, none)
  else match l.auxHi with
    | some (sel, hi) =>
      let l := { l with auxHi := none }
      if sel = t.auxSel && seq == l.auxSeq + 1 then
        let v : BitVec 16 := hi ++ t.auxByte
        ({ l with auxSeq := seq, aux := (sel, v) :: l.aux.filter fun e => e.1 != sel }, some (sel, v))
      else ({ l with auxSeq := seq }, none)
    | none => ({ l with auxSeq := seq }, none)

/-- The answer to an outstanding CONFIG (R55, R63, R64): CFG_ACK with its CSEQ, then CFG_DATA. -/
def State.cfgAnswer (s : State) (n : Nat) (sel : Nat) (v : BitVec 16) : State :=
  let l := s.lane n
  match l.cfgWait with
  | none => s
  | some (seq, adr, data, wr) =>
    if sel = 0xB && v.toNat / 256 = seq.toNat then s.setLane n { l with cfgAck := some (BitVec.ofNat 8 v.toNat) }
    else if sel = 0xC then
      match l.cfgAck with
      | some res => s.cfgDone n adr data wr res v
      | none => s
    else s

/-- The checks of bring-up that wait for an auxiliary value (R94, R95, R597). -/
def State.auxChecked (s : State) (n : Nat) : State :=
  match (s.lane n).st with
  | .configuring => s.laneConfigured n
  | .ready | .run | .parked => if (s.lane n).cfgMode = 3 || (s.lane n).cfgMode = 4 then s.lateCheck n else s
  | _ => s

/-- An accepted auxiliary value: the CONFIG exchange, the checks of bring-up that wait for it, and TEMP for the health record (R148). -/
def State.auxTaken (s : State) (n : Nat) (sel : Nat) (v : BitVec 16) : State :=
  let s := s.cfgAnswer n sel v
  let s := if sel = 0 then
      s.modCell n fun c => { c with health := { c.health with temp := some (match c.health.temp with | some x => if x.toInt < v.toInt then v else x | none => v) } }
    else s
  s.auxChecked n

/-- A PROFILE_LOAD of lane n ends when its commit has left and PROF_CRC matches the block (R337). -/
def State.profCheck (s : State) (n : Nat) : State :=
  let l := s.lane n
  match l.profOp with
  | some o =>
    if l.auxOf 0xD = some (profCrc l.profBlock) && (s.findOp o).any (fun p => p.committed || p.u16 0xC == 0) then
      (s.setLane n { l with profOp := none }).completeTag o stOk 0 (profCrc l.profBlock)
    else s
  | none => s

/-- PROFILE_WRITEs that commit a profile (R62). -/
def profCommits (q : List DnCmd) : Nat := (q.filter fun d => match d with | .profileWrite _ _ c _ => c | _ => false).length

/-- Queue the PROFILE_WRITEs of the lane's PROFILE_LOAD, once the lane is trained and while none of them waits or has committed (R62, R337, R597). -/
def State.profSend (s : State) (n : Nat) : State :=
  let l := s.lane n
  match l.profOp.bind s.findOp with
  | some o =>
    if o.committed || !l.live || profCommits l.dnq ≠ 0 then s
    else s.setLane n { l with dnq := l.dnq ++ ((List.range 16).filter (bitOf (o.u16 0xC))).flatMap (profCmds l.profBlock) }
  | none => s

/-- Commits of profiles have left the lane: a PROF_CRC taken before is no longer that of the active profiles, and a PROFILE_LOAD reaches its commit point with the first (R333). -/
def State.profSent (s : State) (n before : Nat) : State :=
  let l := s.lane n
  if profCommits l.dnq < before then
    let s := s.setLane n { l with aux := l.aux.filter fun e => e.1 != 0xD }
    match l.profOp with
    | some o => s.modOp o fun p => { p with committed := true, since := if p.committed then p.since else s.time.st }
    | none => s
  else s

/-- What a good superframe does for a lane in bring-up (R45, R73, R94, R98): lock, the round trip measured over 64 superframes, and after the shift of phase over 64 more with lock, which have to confirm the strobe within 4 ST
units of the grid. -/
def State.bringUp (s : State) (n : Nat) (roundTrip : Nat) : State :=
  let l := s.lane n
  match l.st with
  | .locking => if l.locked then (s.setLane n { l with measN := 0, rtSum := 0 }).laneTo n .measuring else s
  | .measuring => (if l.measN < 64 then s.setLane n { l with measN := l.measN + 1, rtSum := l.rtSum + roundTrip } else s).laneMeasured n
  | .aligning =>
    let x : Lane := { l with measN := l.measN + 1, rtSum := l.rtSum + roundTrip }
    if !l.locked then s
    else if x.measN < 64 then s.setLane n x
    else if ((x.leadOf (s.asym n) : Int) - x.advance).natAbs ≤ 4 then (s.setLane n { x with measN := 0, rtSum := 0 }).laneConfigure n |>.laneConfigured n
    else s.laneFail n 4
  | _ => s

/-! ## Range (R52, R78, R79) -/

/-- Whether sample k lies in a settling window (R79), and its range (R78). -/
def inWindow (l : Lane) (t : Trailer) (k : Nat) : Bool :=
  if 0 < l.settle then true
  else if 2 ≤ t.range || (t.range == 1) == l.coarse then false
  else !l.lastGood || decide (t.idx ≤ k)

/-- The lane after the range field of a good superframe: a reserved value counts a framing error and changes nothing known; a change opens a settling window to the end of the
second superframe after it. -/
def Lane.rangeStep (l : Lane) (t : Trailer) : Lane :=
  if 2 ≤ t.range then { l with framErr := l.framErr + 1, settle := l.settle - 1 }
  else if (t.range == 1) != l.coarse then { l with coarse := t.range == 1, settle := 2 }
  else { l with settle := l.settle - 1 }

/-! ## Samples: the guard (R117 to R119) -/

/-- What the guard finds in a superframe: switches over IPK, the bus-window run, whether it fired. -/
structure GuardScan where
  hi : Bool := false
  lo : Bool := false
  run : Nat := 0
  vwin : Bool := false
deriving DecidableEq, Repr

/-- The current the guard takes a sample for, in mA (R79, R80): a clipped fine sample stands for the coarse full scale inside a settling window and the fine one outside. -/
def guardCurrent (l : Lane) (p : Pair) (win : Bool) : Nat :=
  if p.clip && !p.coarse then (if win then l.fs true else l.fs false) else p.i.natAbs

/-- High-side conduction outside V_BLANK at an instant (R112, R117). -/
def Lane.busSample (l : Lane) (blank t : Nat) : Bool :=
  match l.highSince t with
  | some a => decide (a + blank ≤ t)
  | none => false

/-- The guard looks at sample k at instant t. -/
def guardSample (l : Lane) (g : GuardSet) (win : Bool) (t : Nat) (a : GuardScan) (p : Pair) : GuardScan :=
  let past := decide (1000 * g.ipk < guardCurrent l p win)
  let out := decide (p.v < 1000 * (g.vbusMin : Int) ∨ 1000 * (g.vbusMax : Int) < p.v)
  let run := if l.busSample g.vBlank t && out then a.run + 1 else 0
  { hi := a.hi || (past && l.onAt true t), lo := a.lo || (past && l.onAt false t), run := run, vwin := a.vwin || decide (4 ≤ run) }

/-- The reactive limits on the samples of a superframe (R117). -/
def State.guardScan (s : State) (n strobe : Nat) (win : Nat → Bool) (ps : List Pair) : State :=
  let l := s.lane n
  let g := s.guardFor n
  let a := ps.zipIdx.foldl (fun a (e : Pair × Nat) => guardSample l g (win e.2) (strobe + 16 * e.2) a e.1) { run := l.vwinRun }
  let s := s.modLane n fun l => { l with vwinRun := a.run }
  let s := if a.hi || a.lo then s.guardAct n (BitVec.ofNat 2 (b2n a.hi + 2 * b2n a.lo)) 1 else s
  if a.vwin then s.guardAct n 3 2 else s

/-- DVDT_MAX on a transition (R117): the switch whose edge it belongs to uses GUARD_PROF for the rest of the period. -/
def State.guardSlope (s : State) (n : Nat) (bus : Int) (x : Transit) : State :=
  let l := s.lane n
  match l.ownerOf x.start with
  | some e =>
    if (s.guardFor n).dvdtMax < x.slope bus then
      s.setLane n { l with useGuardHi := l.useGuardHi || e.hits true, useGuardLo := l.useGuardLo || e.hits false, hits := setBit l.hits 3 true, interv := true }
    else s
  | none => s

/-! ## Samples: accumulation, dead time, learning -/

/-- One pair into the accumulation stage (R106, R110 to R112): filtered current and voltage for the summary, calibrated voltage for the bus estimate, high-side conduction to the
sample, and energy, v x i over the nanosecond that a pair stands for. -/
def accPair (keep : Nat) (l : Lane) (blank on : Nat) (e : Engine) (p : Pair) (t : Nat) : Engine :=
  let hi := (p.i :: e.filtI).take keep
  let hv := (p.v :: e.filtV).take keep
  let fi := roundDiv (sumI hi) hi.length
  let fv := roundDiv (sumI hv) hv.length
  let a := e.acc
  let bus := l.busSample blank t
  let a : Acc := { n := a.n + 1, sumI := a.sumI + fi, sumSqI := a.sumSqI + fi * fi, peakI := if a.peakI.natAbs < fi.natAbs then fi else a.peakI, sumV := a.sumV + fv,
                   nBus := a.nBus + b2n bus, sumBus := if bus then a.sumBus + p.v else a.sumBus, tOn := a.tOn + on, energy := a.energy + p.v * p.i }
  { e with acc := a, filtI := hi, filtV := hv, lastI := p.i }

/-- The next dead time after a measured swing (R127, R128): swing + DT_MARGIN, or DT_MAX when the swing did not complete, within DT_STEP of the value the period began
with and inside its limits. -/
def deadTime (page : List Byte) (dtMin base swing : Nat) : Nat :=
  let want := if swing = 0 then cpDtMax page else swing + cpDtMargin page
  clampN dtMin (cpDtMax page) (clampN (base - cpDtStep page) (base + cpDtStep page) want)

/-- The turn-off whose swing a transition completes, and the swing time (R127): a fall that crosses 90 % of its swing after the high side's turn-off, a rise after the low side's. -/
def Lane.swingOf (l : Lane) (x : Transit) : Option (Bool × Nat × Nat) :=
  let hi := !x.up
  if l.onAt hi x.stop then none
  else match l.offAt hi x.stop with
    | some o => if o = (if hi then l.swungHi else l.swungLo).toNat then none else some (hi, o, max 1 (x.stop - o))
    | none => none

/-- The turn-off of a switch whose swing has not completed within DT_MAX by instant t (R128). -/
def Lane.noSwing (l : Lane) (hi : Bool) (dtMax t : Nat) : Option (Bool × Nat × Nat) :=
  match l.offAt hi t with
  | some o => if o ≠ (if hi then l.swungHi else l.swungLo).toNat ∧ o + dtMax < t then some (hi, o, 0) else none
  | none => none

/-- A swing has been timed, or has not completed (0): the dead time of its kind adapts (R127, R128), and the turn-off counts once. -/
def State.swing (s : State) (n dtMin : Nat) (w : Bool × Nat × Nat) : State :=
  let page := (s.cell n).active
  let s := s.modLane n fun l => if w.1 then { l with swungHi := BitVec.ofNat 64 w.2.1 } else { l with swungLo := BitVec.ofNat 64 w.2.1 }
  (s.enginesOf n).foldl (fun s e => s.modEng e fun g =>
    if w.1 then { g with dtHL := deadTime page dtMin g.dtHLb w.2.2 } else { g with dtLH := deadTime page dtMin g.dtLHb w.2.2 }) s

/-- Edge-adaptation learning for one edge (R130): its slope in 0.1 V/ns and its di/dt in A/us. -/
def Engine.learn (e : Engine) (page : List Byte) (band d slope didt : Nat) : Engine :=
  let k := 2 * band + d
  let above := decide (11 * cpDvdt page < 10 * slope) || decide (11 * cpDidt page < 10 * didt)
  let below := decide (10 * slope < 8 * cpDvdt page) && decide (10 * didt < 8 * cpDidt page)
  let get := fun (t : List (Nat × Nat)) => tabGet (fun _ => 0) t k
  let put := fun (t : List (Nat × Nat)) (v : Nat) => tabSet (fun _ => 0) t k v
  let soft := if above then get e.softN + 1 else 0
  let hard := if below then get e.hardN + 1 else 0
  let w := e.work page band d
  let w' := if 16 ≤ soft then min (cpProfHi page band d) (w + 1) else if 64 ≤ hard then max (cpProfLo page band d) (w - 1) else w
  { e with softN := put e.softN (if 16 ≤ soft then 0 else soft), hardN := put e.hardN (if 64 ≤ hard then 0 else hard),
           workProf := if w' = w then e.workProf else tabSet (fun i => cpProfLo page (i / 2) (i % 2)) e.workProf k w' }

/-- Learning from a transition (R130, R131), in the band and direction its edge was sent with. -/
def State.learnSf (s : State) (n : Nat) (bus : Int) (x : Transit) : State :=
  match (s.lane n).ownerOf x.start with
  | some o =>
    if s.analyticsOff then s
    else (s.enginesOf n).foldl (fun s e => s.modEng e fun g => g.learn (s.cell n).active o.band (if o.level then 0 else 1) (x.slope bus) x.di) s
  | none => s

/-- One switch's sums after a transition of its edge (R148): a turn-on timed, or a turn-off with its energy normalised to 100 A. -/
def SideEst.edge (e : SideEst) (on : Bool) (x : Transit) : SideEst :=
  if on then { e with nOn := e.nOn + 1 }
  else if x.cur = 0 then e
  else { e with nOff := e.nOff + 1, eOff := e.eOff + roundDiv (x.vi.natAbs * 100000) x.cur.natAbs }

/-- One switch's sums after a conducting sample: its conduction voltage and current (R148). -/
def SideEst.sample (e : SideEst) (v i : Int) : SideEst := { e with n := e.n + 1, i := e.i + i, v := e.v + v, ii := e.ii + i * i, iv := e.iv + i * v }

/-- The health estimators see the cell (R131, R148): HEALTH_EN is set and ANALYTICS is not throttled. -/
def State.healthOn (s : State) (n : Nat) : Bool := (s.cell n).active != [] && cpFlag (s.cell n).active 3 && !s.analyticsOff

/-- Health from a transition. -/
def State.healthEdge (s : State) (n : Nat) (x : Transit) : State :=
  match (s.lane n).ownerOf x.start with
  | some o =>
    if !s.healthOn n then s
    else s.modCell n fun c =>
      let h := c.health
      { c with health := { h with hi := if o.hits true then h.hi.edge o.level x else h.hi, lo := if o.hits false then h.lo.edge o.level x else h.lo } }
  | none => s

/-- Health from the fine-range samples outside settling windows while one switch conducts (R148). -/
def State.healthPairs (s : State) (n blank : Nat) (bus : Int) (win : Nat → Bool) (ps : List (Pair × Nat)) : State :=
  let l := s.lane n
  if !s.healthOn n then s
  else s.modCell n fun c =>
    { c with health := ps.zipIdx.foldl (fun (h : Health) (e : (Pair × Nat) × Nat) =>
      let p := e.1.1
      let t := e.1.2
      if p.coarse || win e.2 then h
      else if l.busSample blank t && !l.onAt false t then { h with hi := h.hi.sample (bus - p.v) p.i }
      else if l.onAt false t && !l.onAt true t then { h with lo := h.lo.sample (-p.v) p.i }
      else h) c.health }

/-- Accumulation of a superframe by engine e of cell n, with the conduction times already worked out. -/
def State.accSf (s : State) (n e : Nat) (blank : Nat) (ps : List ((Pair × Nat) × Nat)) : State :=
  let l := s.lane n
  let page := (s.cell n).active
  let keep := 2 ^ (byteAt page 0x27 % 8)
  s.modEng e fun g => ps.foldl (fun g (p : (Pair × Nat) × Nat) => accPair keep l blank p.2 g p.1.1 p.1.2) g

/-- The measured high-side conduction up to each sample. -/
def conduction (bus : Int) (l : Lane) : Trans → List (Pair × Nat) → List ((Pair × Nat) × Nat)
  | _, [] => []
  | x, p :: t => (p, onTime bus (l.onAt true p.2) x p.1 p.2) :: conduction bus l { x with v := p.1.v, at_ := BitVec.ofNat 64 p.2 } t

/-- The sample pairs of a superframe into the pipelines of the engines that work for cell n (R102, R106, R110): transition timing with what hangs on it, accumulation, and the cell's DT_CLAMP events. -/
def State.pipeline (s : State) (n strobe : Nat) (win : Nat → Bool) (ps : List Pair) : State :=
  let g := s.guardFor n
  let bus := s.busOf n
  let l := s.lane n
  let tp := ps.zipIdx.map fun (p : Pair × Nat) => (p.1, strobe + 16 * p.2)
  let (tr, xs) := transits bus l.trans tp
  let on := conduction bus l l.trans tp
  let dtMin := max g.dtMin l.dtCell
  let page := (s.cell n).active
  let s := s.modLane n fun l => { l with trans := tr }
  let s := xs.foldl (fun s x =>
    let s := ((s.guardSlope n bus x).learnSf n bus x).healthEdge n x
    match (s.lane n).swingOf x with
    | some w => s.swing n dtMin w
    | none => s) s
  let s := [true, false].foldl (fun s hi => match (s.lane n).noSwing hi (cpDtMax page) (strobe + 1008) with
    | some w => s.swing n dtMin w
    | none => s) s
  let s := s.healthPairs n g.vBlank bus win tp
  let s := (s.enginesOf n).foldl (fun s e => s.accSf n e g.vBlank on) s
  if l.status.getLsbD 5 then s.modCell n fun c => { c with health := { c.health with dt := satInc 0xFFFF c.health.dt } } else s

/-- Diode emulation (R132, R185): with DE_EN and not DE_OFF, the first fine sample outside a settling window at or below ZCD_OFFSET while the low side conducts turns it off, once per
turn-on. -/
def State.diode (s : State) (n strobe : Nat) (win : Nat → Bool) (ps : List Pair) : State :=
  let l := s.lane n
  let page := (s.cell n).active
  let e := s.eng (s.serving n)
  let hit := ps.zipIdx.any fun (p : Pair × Nat) => !p.1.coarse && !win p.2 && decide (p.1.i ≤ cpZcd page) && l.onAt false (strobe + 16 * p.2)
  if cpFlag page 2 && !wbit e.outNow.mode 4 && !l.burst && !l.deFired && hit then
    (s.modLane n fun l => { l with deFired := true }).dn n (.guardEdge 2 (BitVec.ofNat 4 (e.work page 0 1)) false)
  else s

/-! ## Sense lanes (R179 to R183) -/

/-- The sum over a superframe of the field that carries a quantity, if the rail maps one (R180). -/
def senseSum (page : List Byte) (q : Nat) (ps : List Pair) : Option Int :=
  if rpMapV page = q then some (sumI (ps.map (·.v))) else if rpMapI page = q then some (sumI (ps.map (·.i))) else none

/-- The sense lane's superframe enters the means of its rail's lead period (R172, R179): the filtered pairs that its pipeline has just accumulated, and how many. -/
def State.senseAdd (s : State) (m n : Nat) (was : Acc) : State :=
  let a := (s.eng n).acc
  s.modRail m fun r => { r with sens := (r.sens.1 + (a.n - was.n), r.sens.2.1 + (a.sumV - was.sumV), r.sens.2.2 + (a.sumI - was.sumI)) }

/-- The detector is held off (R182): the first UNDERSHOOT_HOLDOFF lead periods after a burst. -/
def Rail.heldOff (r : Rail) : Bool := r.holdoff && decide (r.holdN < rpK16 r.active 0x112)

/-- The undershoot detector on a good superframe of the sense lane (R182, R184): the sum of 64 samples in mV, compared with that of eight superframes before; during a burst the first mean above UNDERSHOOT_TRIP + UNDERSHOOT_HYST of
the page it started on ends it. -/
def State.undershoot (s : State) (m : Nat) (ps : List Pair) : State :=
  let r := s.rail m
  let p := r.active
  let now := senseSum p 1 ps
  let old := (r.senseHist.getD 7 none)
  let s := s.setRail m { r with senseHist := (now :: r.senseHist).take 8 }
  if r.burst then
    match now with
    | some v => if 64 * 100 * (rpK16 r.burstPage 0x10C + rpK16 r.burstPage 0x110 : Nat) < v then s.burstEnd m else s
    | none => s
  else match now, old with
  | some v, some w =>
    let trip := decide (v < 64 * 100 * (rpK16 p 0x10C : Int))
    let steep := decide (64 * 512 * (rpK16 p 0x10E : Int) < (w - v) * 10)
    if rpFlag p 2 && r.st == .run && !r.heldOff && trip && steep then s.burstStart m else s
  | _, _ => s

/-! ## UPSTREAM_SUPERFRAME -/

/-- The superframe passes its tests (R45 to R47): block lock, 25 blocks, the sync header of block 24, TYPE, CRC; `w` are the payloads. -/
def sfGood (locked : Bool) (hdr : BitVec 2) (w : List DWord) : Bool :=
  let t := trailerOf w
  locked && hdr == 2 && w.length == 25 && t.type == 0xE7 && t.crc == superframeCrc w

/-- A superframe that fails: none of its content is used but by capture (R47), under the SEQ it should have, and the twin learns of it (R396). The second in a row blinds a lane in RUN (R552), and the fourth ends superframe
lock (R45). -/
def State.sfBad (s : State) (n : Nat) (w : List DWord) : State :=
  let l := s.lane n
  let seq := l.seqIn + 1
  let k := min 4 (l.badRun + 1)
  let s := s.setLane n { l with good := 0, badRun := k, seqIn := seq, lastGood := false, auxHi := none, settle := l.settle - 1 }
  let s := match s.senseOf n with | some m => s.modRail m fun r => { r with senseHist := (none :: r.senseHist).take 8 } | none => s
  let s := s.modTwin fun t => if t.link then { t with badHere := insertN t.badHere n } else t
  let s := s.capFrame n (strobeOf s.time.st seq.toNat) w false false l.status []
  let s := if 2 ≤ k then s.goBlind n else s
  if k = 4 && l.locked then s.lockLost n else s

/-- The samples of a good superframe (R97, R109, R110, R179): in RUN the guard, the engines and diode emulation take them, a sense lane's feed the rail's means and the detector; in PARKED one superframe of every 64 goes to the
guard (log entry 27). -/
def State.samples (s : State) (n strobe : Nat) (win : Nat → Bool) (ps : List Pair) : State :=
  let l := s.lane n
  if s.cellStopped n then s
  else match l.st with
  | .run =>
    let was := (s.eng n).acc
    let s := (s.guardScan n strobe win ps).pipeline n strobe win ps
    match s.senseOf n with
    | some m => (s.senseAdd m n was).undershoot m ps
    | none => s.diode n strobe win ps
  | .parked =>
    let s := s.setLane n { l with parkN := (l.parkN + 1) % 64 }
    if l.parkN = 0 then s.guardScan n strobe win ps else s
  | _ => s

/-- What a good superframe's trailer brings for the twin's sake (R404, R414). -/
def State.trailerTwin (s : State) (n : Nat) : State :=
  if (s.lane n).st != .run then s
  else
    let s := if (s.lane n).status.getLsbD 1 then s.termLow else s
    s.peerCheck

/-- What a completed auxiliary value brings, if one is complete. -/
def State.auxStep (s : State) (n : Nat) : Option (Nat × BitVec 16) → State
  | some (sel, v) => (s.auxTaken n sel v).profCheck n
  | none => s

/-- A measuring lane may have all it waits for (R94). -/
def State.measuredStep (s : State) (n : Nat) : State := if (s.lane n).st == .measuring then s.laneMeasured n else s

/-- A superframe that passes. -/
def State.sfOk (s : State) (n : Nat) (w : List DWord) (roundTrip : Nat) : State :=
  let t := trailerOf w
  let l := s.lane n
  let strobe := strobeOf s.time.st t.seq
  let ps := s.pairsOf n w
  let win := inWindow l t
  let changed := decide (t.range < 2) && (t.range == 1) != l.coarse
  let k := min 4 (l.good + 1)
  let sf := if changed && (l.rangeSf.all fun x => decide (x < strobe / 1024)) then some (strobe / 1024) else l.rangeSf
  let (l, v) := (l.rangeStep t).auxByte t
  let s := s.setLane n { l with good := k, badRun := 0, goodAt := s.time.st, seqIn := BitVec.ofNat 8 t.seq, rangeSf := sf, locked := l.locked || k == 4, lastGood := true,
                                lastTrailer := w.getD 24 0, status := t.status, blind := false }
  let s := s.samples n strobe win ps
  let s := s.bringUp n roundTrip
  let s := (s.auxStep n v).measuredStep n
  (s.trailerTwin n).capFrame n strobe w true changed t.status ps

/-- The receiver of lane n takes the blocks of a superframe (R42): the line's last bits and block lock. -/
def Lane.receive (l : Lane) (w : List (BitVec 2 × DWord)) : Lane :=
  { w.foldl (fun l (b : BitVec 2 × DWord) => l.blockLock b.1) l with rxScr := (payloadsOf l.rxScr w).2 }

/-- UPSTREAM_SUPERFRAME (R42 to R47): 25 blocks arrive with their sync headers and scrambled payloads, and the round trip of the superframe as the receiver measures it, in ST units (R73). A silent or OFF lane takes none (R99). -/
def execUpstreamSuperframe (n : Fin 1024) (w : List (BitVec 2 × DWord)) (roundTrip : Nat) (s : State) : Host.Outcome State Fault Refusal :=
  let p := (payloadsOf (s.lane n).rxScr w).1
  .next <|
    if (s.lane n).st == .off || !s.laneOk n then s
    else
      let s := s.modLane n fun l => l.receive w
      if sfGood (s.lane n).blkLock (w.getD 24 (0, 0)).1 p then s.sfOk n p roundTrip else s.sfBad n p

/-! ## DOWNSTREAM_SUPERFRAME -/

/-- The ROLE sent on lane n (R57, R94, R97, R553): the device's while the lane is in RUN, else IDLE. -/
def State.laneRole (s : State) (n : Nat) : Nat := if (s.lane n).st == .run then roleOf s.twin else 0

/-- READY lanes with a valid guard set are in RUN when the device has a role (R96, R116). -/
def State.readyRun (s : State) (n : Nat) : State :=
  if (s.lane n).st == .ready && roleOf s.twin ≠ 0 && (s.guardFor n).crcOk then s.laneTo n .run else s

/-- TAKE with ARM to a cell of an armed or running rail, or its sense lane, that shows SAFE, once every 64 superframes (R399). -/
def State.armStep (s : State) (n : Nat) : State :=
  let l := s.lane n
  let due := match s.railHaving n with
    | some m => (s.rail m).st == .armed || (s.rail m).st == .run
    | none => false
  if s.roleActs && due && l.st == .run && l.status.getLsbD 10 then
    if 64 ≤ l.armSince then s.setLane n { l with armSince := 1, dnq := l.dnq ++ [.take s.twin.term true] } else s.setLane n { l with armSince := l.armSince + 1 }
  else s.setLane n { l with armSince := 64 }

/-- The engine that serves the lane sends HEARTBEATs: it is not stalled, nor isolated (R61, R109, R157). -/
def State.beats (s : State) (n : Nat) : Bool := !((s.eng (s.serving n)).st == .stalled) && !s.cellStopped n

/-- The superframe strobe that a superframe leaving now reaches at the cell, in units of superframes (R26, R56, R73): transmission leads the grid by the lane's phase. -/
def State.dnStrobe (s : State) (n : Nat) : Nat := (s.time.st.toNat + (s.lane n).advance) / 1024

/-- DOWNSTREAM_SUPERFRAME (R42 to R44, R56 to R61, R109, R118, R125): the waiting commands are packed, guard edges first, with a HEARTBEAT once in 32 superframes (log entry 9), the trailer
gives SEQ and ROLE, and the blocks go out scrambled. One superframe leaves for each strobe; a silent lane sends nothing (R99). Sent edges are forgotten 16 superframes later, when no sample of their time is still to come. -/
def execDownstreamSuperframe (n : Fin 1024) (s : State) : Host.Outcome State Fault Refusal :=
  let k := s.dnStrobe n
  let grid := 1024 * k
  .next <|
    if (s.lane n).st == .off || !s.laneOk n || (s.lane n).lastDn == some k then s
    else
      let s := (((s.readyRun n).profSend n).armStep n).ensureMade n grid
      let commits := profCommits (s.lane n).dnq
      let p := packAll (s.sfCtx n grid) ((s.lane n).prune (grid - 16384))
      let l := p.lane
      let beat := s.beats n && decide (31 ≤ l.hbSince)
      let l : Lane := if beat then { l with hbCount := l.hbCount + 1, hbSince := 0, hbAt := s.time.st } else { l with hbSince := min 31 (l.hbSince + 1) }
      let takes := ((s.lane n).dnq.any fun d => match d with | .take _ _ => true | _ => false) && !(l.dnq.any fun d => match d with | .take _ _ => true | _ => false)
      let hb : List DWord := if beat then [BitVec.ofNat 64 (2 ^ 63 + 2 ^ 56 + l.hbCount.toNat * 2 ^ 40)] else []
      let (line, scr) := lineOf l.txScr 0 (superframeOf (edgeBlocks p.edges.reverse ++ hb ++ p.blocks.reverse) (k % 256) (s.laneRole n))
      let s := (s.setLane n { l with lastDn := some k, txScr := scr }).profSent n commits
      let s := if takes then s.modTwin fun t => { t with takeAt := some s.time.st, bidAt := if t.st == .taking then some (t.bidAt.getD s.time.st) else t.bidAt } else s
      (s.emit (.superframe n line)).tellTwin

end Sys2Proof.Machine
end

