-- ==== Sys2Proof/Machine/Pp.lean ====
section
/-! DEFINITION. The period program's instructions (R136 to R143): each command runs the instruction at the engine's pc when it is the one the command names. A reserved word, a
nonzero 0-field or running past instruction 255 is a program fault whatever the command names; a command that names another instruction than the one at
the pc, or an engine that runs no custom program, changes nothing (log entry 13). -/

namespace Sys2Proof.Machine

/-- High 32 bits of the signed product (R141, R290). -/
def mulHigh (a b : Word) : Word := BitVec.ofInt 32 (Int.fdiv (a.toInt * b.toInt) 4294967296)

/-- DIV of R141: truncated toward zero, with its values for a divisor of 0. -/
def ppQuot (a b : Word) : Word :=
  if b = 0 then (if a = 0 then 0 else if a.toInt < 0 then 0x80000000 else 0x7FFFFFFF)
  else BitVec.ofInt 32 (Int.tdiv a.toInt b.toInt)

/-- Signed minimum. -/
def minS (a b : Word) : Word := if a.toInt ≤ b.toInt then a else b

/-- Signed maximum. -/
def maxS (a b : Word) : Word := if a.toInt ≤ b.toInt then b else a

/-- Magnitude, saturated. -/
def absS (a : Word) : Word := if a = 0x80000000 then 0x7FFFFFFF else if a.toInt < 0 then -a else a

/-- Register g of an engine (R136). -/
def Engine.reg (e : Engine) (i : Nat) : Word := tabGet (fun _ => 0) e.regs i

/-- Put register g. -/
def Engine.setReg (e : Engine) (i : Nat) (v : Word) : Engine := { e with regs := tabSet (fun _ => 0) e.regs i v }

/-- The budget of a run in cycles (R104, R108): 4,096, or T - 1 us when that is shorter. -/
def State.ppBudget (s : State) (e : Nat) : Nat :=
  match s.cellOf e with
  | some n => min 4096 (s.periodOf n / 16 - 1000)
  | none => 4096

/-- The engine runs a custom image (R134). -/
def State.custom (s : State) (e : Nat) : Bool :=
  match s.cellOf e with
  | some n => cpProg (s.cell n).active == 0xFF
  | none => false

/-- The lane of the cell that engine e works for is in RUN, as a program's run asks (R109). -/
def State.cellInRun (s : State) (e : Nat) : Bool :=
  match s.cellOf e with
  | some n => (s.lane n).st == .run
  | none => false

/-- One instruction of engine e (R140 to R143): what it decodes to, its faults, and its effect when it is `op`. `f`: what the ECC of the program memory reports for its word; an uncorrectable error is a program fault (R555). Outside RUN no program runs (R109). DESIGN CHOICE (log entry 15): program memory past the end of
a loaded image that is shorter reads 0, the word of NOP. -/
def ppRun (s : State) (e : Nat) (f : Ecc) (op : PpOp) (eff : Fields → State → State) : State :=
  let g := s.eng e
  if !g.running || !s.custom e || !s.cellInRun e then s
  else if 255 < g.pc then s.runBad e true
  else if f = .uncorrectable then (s.eccUe 0 ((s.cellOf e).getD 0xFFFF)).runBad e true
  else match ppDecode (g.image.getD g.pc 0) with
    | none => s.runBad e true
    | some (o, x) => if o = op then eff x (s.fetched f) else s

/-- The instruction's cycles are counted; one that would pass the budget is not carried out and the run ends as an overrun (R108, R142). -/
def State.ppSpend (s : State) (e cost : Nat) (f : Engine → Engine) : State :=
  let g := s.eng e
  if s.ppBudget e < g.cycles + cost then s.runBad e false
  else s.setEng e (f { g with cycles := g.cycles + cost })

/-- A register operation: rd takes a value and the pc moves on. -/
def State.ppAlu (s : State) (e cost rd : Nat) (v : Word) : State :=
  s.ppSpend e cost fun g => { g.setReg rd v with pc := g.pc + 1 }

/-- A branch: 1 cycle when not taken and 2 when taken (R141). -/
def State.ppJump (s : State) (e : Nat) (taken : Bool) (target : Nat) : State :=
  if taken then s.ppSpend e 2 fun g => { g with pc := target } else s.ppSpend e 1 fun g => { g with pc := g.pc + 1 }

/-- A three-register operation. -/
def ppR (s : State) (e : Nat) (f : Ecc) (cost : Nat) (op : PpOp) (v : Word → Word → Word) : State :=
  ppRun s e f op fun x s => s.ppAlu e cost x.rd (v ((s.eng e).reg x.ra) ((s.eng e).reg x.rb))

/-- An operation with an immediate. -/
def ppI (s : State) (e : Nat) (f : Ecc) (op : PpOp) (v : Word → Word → Word) : State :=
  ppRun s e f op fun x s => s.ppAlu e 1 x.rd (v ((s.eng e).reg x.ra) x.imm)

/-- A conditional branch. -/
def ppB (s : State) (e : Nat) (f : Ecc) (op : PpOp) (c : Word → Word → Bool) : State :=
  ppRun s e f op fun x s => s.ppJump e (c ((s.eng e).reg x.ra) ((s.eng e).reg x.rb)) x.target

/-! ## The memory map (R136) -/

/-- Where an address of the memory map lies. -/
inductive PpWhere where
  | loc (w : Nat)
  | input (w : Nat)
  | page (off : Nat)
  | output (w : Nat)
  | drawer (off : Nat)
  | rail (j off : Nat)
  | bad
deriving DecidableEq, Repr

/-- The region of a word address; misaligned and unmapped addresses are faults (R142). -/
def ppWhere (a : Nat) : PpWhere :=
  if a % 4 ≠ 0 then .bad
  else if a < 0x100 then .loc (a / 4)
  else if a < 0x200 then .input (a / 4 - 64)
  else if a < 0x300 then .page (a - 0x200)
  else if a < 0x400 then .output (a / 4 - 192)
  else if 0x1000 ≤ a ∧ a < 0x2000 then .drawer (a - 0x1000)
  else if 0x10000 ≤ a ∧ a < 0x20000 then .rail (a / 4096 - 16) (a % 4096)
  else .bad

/-- Cycles of a shared-memory access: as many as its worst case or fewer, a free value (log entry 4). -/
def State.ppCost (s : State) (most : Nat) : Nat × State :=
  let (w, s) := s.freshWord
  (1 + w.toNat % most, s)

/-- A load has its value and cost; the uncorrectable error of its memory ends the run (R555). -/
def ppLoad (s : State) (e n : Nat) (adr : Nat) (ecc : Ecc) : Option (Word × Nat × State) :=
  let g := s.eng e
  let s := if ecc = .corrected then s.eccCe else s
  match ppWhere adr with
  | .bad => none
  | .loc w => some (tabGet (fun _ => 0) g.loc w, 1, s)
  | .input w => some (if w < 14 then tabGet (fun _ => 0) g.inputs w else 0, 1, s)
  | .page off => some (BitVec.ofNat 32 (leAt (s.cell n).active off 4), 1, s)
  | .output w =>
    match w with
    | 0 => some (g.stage.duty, 1, s)
    | 1 => some (g.stage.mode, 1, s)
    | 2 => some (g.stage.rangeReq, 1, s)
    | 4 => some (g.stage.user0, 1, s)
    | 5 => some (g.stage.user1, 1, s)
    | _ => let (v, s) := s.freshWord; some (v, 1, s)
  | .drawer off =>
    let (c, s) := s.ppCost 4
    some (BitVec.ofNat 32 (memLe s.drawerMem (4096 * (n / 16) + off) 4), c, s)
  | .rail j off =>
    let (c, s) := s.ppCost 6
    let m := 16 * (n / 256) + j
    let own := s.railOf n == some m
    let v := if own && decide (0xC0 ≤ off ∧ off < 0x100) && g.pub != [] then leAt g.pub (off - 0xC0) 4 else s.rmLe m off 4
    some (BitVec.ofNat 32 v, c, s)

/-- The memory number of R555 for an address: 0 program memory, local data and page, 1 drawer and rail memory. -/
def ppEccMem (adr : Nat) : Nat := match ppWhere adr with | .drawer _ | .rail _ _ => 1 | _ => 0

/-- A store to an output word (R138, R139, R142); none is a program fault. -/
def ppOut (o : Outputs) (period w : Nat) (v : Word) : Option Outputs :=
  match w with
  | 0 => some { o with duty := v }
  | 1 => if fld v 3 0 ≤ 3 && fld v 31 5 = 0 then some { o with mode := v } else none
  | 2 => if v.toNat ≤ 2 then some { o with rangeReq := v } else none
  | 3 =>
    if 16 ≤ o.edgeq.length || (fld v 31 30 = 3 && wbit v 29) || period ≤ fld v 24 0 then none
    else some { o with edgeq := o.edgeq ++ [v] }
  | 4 => some { o with user0 := v }
  | 5 => some { o with user1 := v }
  | _ => none

/-- A store: the state after it and its cost, or none for a program fault (R25, R142, R147, R173). -/
def ppStore (s : State) (e n : Nat) (adr : Nat) (v : Word) : Option (Nat × State) :=
  match ppWhere adr with
  | .loc w => some (1, s.modEng e fun g => { g with loc := tabSet (fun _ => 0) g.loc w v })
  | .output w => (ppOut (s.eng e).stage (s.periodOf n) w v).map fun o => (1, s.modEng e fun g => { g with stage := o })
  | .drawer off =>
    if off < 0x800 ∧ off % 0x80 < 80 then none
    else
      let (c, s) := s.ppCost 4
      some (c, s.dmPut (n / 16) off 4 v.toNat)
  | .rail j off =>
    let m := 16 * (n / 256) + j
    if s.railOf n ≠ some m || off < 0xC0 then none
    else if off < 0x100 then
      if s.leadOf n = some m then
        let (c, s) := s.ppCost 6
        some (c, s.modRail m fun r => { r with pubStage := stageWord r.pubStage off v })
      else none
    else
      let (c, s) := s.ppCost 6
      some (c, s.rmPut m off 4 v.toNat)
  | _ => none

/-- PP_NOP (R141): NOP does nothing for one cycle. -/
def execPpNop (e : Fin 1088) (f : Ecc) (s : State) : Host.Outcome State Fault Refusal :=
  .next (ppRun s e f .nop fun _ s => s.ppSpend e 1 fun g => { g with pc := g.pc + 1 })

/-- PP_ADD (R141): rd := ra + rb. -/
def execPpAdd (e : Fin 1088) (f : Ecc) (s : State) : Host.Outcome State Fault Refusal :=
  .next (ppR s e f 1 .add (fun a b => a + b))

/-- PP_SUB (R141): rd := ra - rb. -/
def execPpSub (e : Fin 1088) (f : Ecc) (s : State) : Host.Outcome State Fault Refusal :=
  .next (ppR s e f 1 .sub (fun a b => a - b))

/-- PP_ADDS (R141): rd := ra + rb, saturated. -/
def execPpAdds (e : Fin 1088) (f : Ecc) (s : State) : Host.Outcome State Fault Refusal :=
  .next (ppR s e f 1 .adds (fun a b => sat32 (a.toInt + b.toInt)))

/-- PP_SUBS (R141): rd := ra - rb, saturated. -/
def execPpSubs (e : Fin 1088) (f : Ecc) (s : State) : Host.Outcome State Fault Refusal :=
  .next (ppR s e f 1 .subs (fun a b => sat32 (a.toInt - b.toInt)))

/-- PP_MUL (R141): rd := low 32 bits of ra x rb. -/
def execPpMul (e : Fin 1088) (f : Ecc) (s : State) : Host.Outcome State Fault Refusal :=
  .next (ppR s e f 2 .mul (fun a b => a * b))

/-- PP_MULH (R141): rd := high 32 bits of signed ra x rb. -/
def execPpMulh (e : Fin 1088) (f : Ecc) (s : State) : Host.Outcome State Fault Refusal :=
  .next (ppR s e f 2 .mulh (fun a b => mulHigh a b))

/-- PP_QMUL (R141): rd := (ra x rb) >> 16, signed, saturated. -/
def execPpQmul (e : Fin 1088) (f : Ecc) (s : State) : Host.Outcome State Fault Refusal :=
  .next (ppR s e f 2 .qmul (fun a b => sat32 (Int.fdiv (a.toInt * b.toInt) 65536)))

/-- PP_DIV (R141): rd := ra / rb, truncated toward zero. -/
def execPpDiv (e : Fin 1088) (f : Ecc) (s : State) : Host.Outcome State Fault Refusal :=
  .next (ppR s e f 18 .div (fun a b => ppQuot a b))

/-- PP_AND (R141): rd := ra and rb. -/
def execPpAnd (e : Fin 1088) (f : Ecc) (s : State) : Host.Outcome State Fault Refusal :=
  .next (ppR s e f 1 .and_ (fun a b => a &&& b))

/-- PP_OR (R141): rd := ra or rb. -/
def execPpOr (e : Fin 1088) (f : Ecc) (s : State) : Host.Outcome State Fault Refusal :=
  .next (ppR s e f 1 .or_ (fun a b => a ||| b))

/-- PP_XOR (R141): rd := ra xor rb. -/
def execPpXor (e : Fin 1088) (f : Ecc) (s : State) : Host.Outcome State Fault Refusal :=
  .next (ppR s e f 1 .xor (fun a b => a ^^^ b))

/-- PP_SHL (R141): rd := ra << rb[4:0]. -/
def execPpShl (e : Fin 1088) (f : Ecc) (s : State) : Host.Outcome State Fault Refusal :=
  .next (ppR s e f 1 .shl (fun a b => a <<< (b.toNat % 32)))

/-- PP_SHR (R141): rd := ra >> rb[4:0], logical. -/
def execPpShr (e : Fin 1088) (f : Ecc) (s : State) : Host.Outcome State Fault Refusal :=
  .next (ppR s e f 1 .shr (fun a b => a >>> (b.toNat % 32)))

/-- PP_SAR (R141): rd := ra >> rb[4:0], arithmetic. -/
def execPpSar (e : Fin 1088) (f : Ecc) (s : State) : Host.Outcome State Fault Refusal :=
  .next (ppR s e f 1 .sar (fun a b => a.sshiftRight (b.toNat % 32)))

/-- PP_MIN (R141): rd := signed minimum. -/
def execPpMin (e : Fin 1088) (f : Ecc) (s : State) : Host.Outcome State Fault Refusal :=
  .next (ppR s e f 1 .min (fun a b => minS a b))

/-- PP_MAX (R141): rd := signed maximum. -/
def execPpMax (e : Fin 1088) (f : Ecc) (s : State) : Host.Outcome State Fault Refusal :=
  .next (ppR s e f 1 .max (fun a b => maxS a b))

/-- PP_ABS (R141): rd := |ra|, 0x8000_0000 giving 0x7FFF_FFFF. -/
def execPpAbs (e : Fin 1088) (f : Ecc) (s : State) : Host.Outcome State Fault Refusal :=
  .next (ppR s e f 1 .abs (fun a _ => absS a))

/-- PP_ADDI (R141): rd := ra + imm. -/
def execPpAddi (e : Fin 1088) (f : Ecc) (s : State) : Host.Outcome State Fault Refusal :=
  .next (ppI s e f .addi (fun a i => a + i))

/-- PP_ANDI (R141): rd := ra and imm. -/
def execPpAndi (e : Fin 1088) (f : Ecc) (s : State) : Host.Outcome State Fault Refusal :=
  .next (ppI s e f .andi (fun a i => a &&& i))

/-- PP_ORI (R141): rd := ra or imm. -/
def execPpOri (e : Fin 1088) (f : Ecc) (s : State) : Host.Outcome State Fault Refusal :=
  .next (ppI s e f .ori (fun a i => a ||| i))

/-- PP_SHLI (R141): rd := ra << imm[4:0]. -/
def execPpShli (e : Fin 1088) (f : Ecc) (s : State) : Host.Outcome State Fault Refusal :=
  .next (ppI s e f .shli (fun a i => a <<< (i.toNat % 32)))

/-- PP_SHRI (R141): rd := ra >> imm[4:0], logical. -/
def execPpShri (e : Fin 1088) (f : Ecc) (s : State) : Host.Outcome State Fault Refusal :=
  .next (ppI s e f .shri (fun a i => a >>> (i.toNat % 32)))

/-- PP_SARI (R141): rd := ra >> imm[4:0], arithmetic. -/
def execPpSari (e : Fin 1088) (f : Ecc) (s : State) : Host.Outcome State Fault Refusal :=
  .next (ppI s e f .sari (fun a i => a.sshiftRight (i.toNat % 32)))

/-- PP_LUI (R141): rd := imm16 << 16. -/
def execPpLui (e : Fin 1088) (f : Ecc) (s : State) : Host.Outcome State Fault Refusal :=
  .next (ppI s e f .lui (fun _ i => i <<< 16))

/-- PP_LI (R141): rd := imm. -/
def execPpLi (e : Fin 1088) (f : Ecc) (s : State) : Host.Outcome State Fault Refusal :=
  .next (ppI s e f .li (fun _ i => i))

/-- PP_LD (R136, R141, R555): rd := the word at ra + imm. -/
def execPpLd (e : Fin 1088) (f : Ecc) (ecc : Ecc) (s : State) : Host.Outcome State Fault Refusal :=
  .next <| ppRun s e f .ld fun x s =>
    match s.cellOf e with
    | none => s
    | some n =>
      let adr := ((s.eng e).reg x.ra + x.imm).toNat
      match ppLoad s e n adr ecc with
      | none => s.runBad e true
      | some (v, c, s) =>
        if ecc = .uncorrectable then (s.eccUe (ppEccMem adr) n).runBad e true
        else s.ppAlu e c x.rd v

/-- PP_ST (R136, R138, R141): the word at ra + imm := rd. -/
def execPpSt (e : Fin 1088) (f : Ecc) (s : State) : Host.Outcome State Fault Refusal :=
  .next <| ppRun s e f .st fun x s =>
    match s.cellOf e with
    | none => s
    | some n =>
      match ppStore s e n ((s.eng e).reg x.ra + x.imm).toNat ((s.eng e).reg x.rd) with
      | none => s.runBad e true
      | some (c, t) =>
        if t.ppBudget e < (t.eng e).cycles + c then s.runBad e false
        else t.ppSpend e c fun g => { g with pc := g.pc + 1 }

/-- PP_BEQ (R141): if ra = rb then pc := TARGET. -/
def execPpBeq (e : Fin 1088) (f : Ecc) (s : State) : Host.Outcome State Fault Refusal :=
  .next (ppB s e f .beq fun a b => a == b)

/-- PP_BNE (R141): if ra differs from rb then pc := TARGET. -/
def execPpBne (e : Fin 1088) (f : Ecc) (s : State) : Host.Outcome State Fault Refusal :=
  .next (ppB s e f .bne fun a b => a != b)

/-- PP_BLT (R141): if ra < rb, signed, then pc := TARGET. -/
def execPpBlt (e : Fin 1088) (f : Ecc) (s : State) : Host.Outcome State Fault Refusal :=
  .next (ppB s e f .blt fun a b => decide (a.toInt < b.toInt))

/-- PP_BGE (R141): if ra >= rb, signed, then pc := TARGET. -/
def execPpBge (e : Fin 1088) (f : Ecc) (s : State) : Host.Outcome State Fault Refusal :=
  .next (ppB s e f .bge fun a b => decide (b.toInt ≤ a.toInt))

/-- PP_JMP (R141): pc := TARGET. -/
def execPpJmp (e : Fin 1088) (f : Ecc) (s : State) : Host.Outcome State Fault Refusal :=
  .next (ppRun s e f .jmp fun x s => s.ppJump e true x.target)

/-- PP_EVT (R141, R142, R298): raises pattern event NUM; 511 is a program fault. -/
def execPpEvt (e : Fin 1088) (f : Ecc) (s : State) : Host.Outcome State Fault Refusal :=
  .next <| ppRun s e f .evt fun x s =>
    if 511 ≤ x.num then s.runBad e true
    else if s.ppBudget e < (s.eng e).cycles + 1 then s.runBad e false
    else (s.raiseEv x.num).ppSpend e 1 fun g => { g with pc := g.pc + 1 }

/-- PP_END (R107, R138, R141): ends this run; its outputs take effect in the next period. An engine that runs a stock program carries out that program's
work of the period and ENDs (R134, R601); `f` is then what the ECC of the memories that it reads reports: its page and local data, for a lead its rail's (R555). -/
def execPpEnd (e : Fin 1088) (f : Ecc) (s : State) : Host.Outcome State Fault Refusal :=
  let g := s.eng e
  .next <|
    if g.running && !s.custom e && s.cellInRun e then
      match s.cellOf e with
      | some n => if f = .uncorrectable then (s.eccUe (if (s.leadOf n).isSome then 1 else 0) n).runBad e true else (s.fetched f).stockRun e n
      | none => s
    else ppRun s e f .end_ fun _ s =>
      if s.ppBudget e < (s.eng e).cycles + 1 then s.runBad e false
      else
        let s := s.modEng e fun g => { g with cycles := g.cycles + 1, pc := g.pc + 1 }
        s.runGood e (s.eng e).stage

/-- PROGRAM_OVERRUN (R108): the run has passed its budget, of 1 ns cycles from its boundary; the sequencer stops it and discards its outputs. -/
def execProgramOverrun (e : Fin 1088) (s : State) : Host.Outcome State Fault Refusal :=
  .next (if (s.eng e).running && s.reached ((s.eng e).bound + BitVec.ofNat 64 (16 * s.ppBudget e)) then s.runBad e false else s)

end Sys2Proof.Machine
end

