-- ==== Sys2Proof/Machine/Pattern.lean ====
section
/-! DEFINITION. The pattern engine (R286 to R316): each PAT_ command runs the instruction at the thread's pc when it is the one the command names. A reserved word, a
nonzero 0-field or running past 0xFFFC is a thread fault whatever the command names; a command that names another instruction, or a thread that is not in RUN,
changes nothing (log entry 13). An instruction that drains the store buffer, or waits for room in it, does so within its command (log entry 37). -/

namespace Sys2Proof.Machine

/-! ## Registers (R303) -/

/-- Register i by its present name: in a fast handler 8 to 15 name the fast bank; p0 reads 0. -/
def Thread.reg (x : Thread) (i : Nat) : Word :=
  if i = 0 then 0 else if x.inFast && decide (8 ≤ i) then tabGet (fun _ => 0) x.f (i - 8) else tabGet (fun _ => 0) x.p i

/-- Write register i by its present name; a write to p0 is ignored. -/
def Thread.setReg (x : Thread) (i : Nat) (v : Word) : Thread :=
  if i = 0 then x
  else if x.inFast && decide (8 ≤ i) then { x with f := tabSet (fun _ => 0) x.f (i - 8) v }
  else { x with p := tabSet (fun _ => 0) x.p i v }

/-! ## Faults and steps (R291) -/

/-- A thread fault with the cause of R318: the pc stays at the faulting instruction, the thread's armed marks are cancelled and a PAT_FAULT event goes to
the host. -/
def State.patFault (s : State) (t cause : Nat) : State :=
  let pc := (s.thr t).pc
  let s := s.modThr t fun x => { x with cause := BitVec.ofNat 4 cause, waits := [], sel := none }
  let s := s.marksCancel fun w => match w with | .thread u _ => u == t | _ => false
  (s.thrTo t .faulted).event 0x0C t ([BitVec.ofNat 8 cause, 0] ++ toLe 2 pc)

/-- One instruction of thread t: what it decodes to, its faults, and its effect when it is `op`. `f`: what the ECC of pattern memory reports for its word; an uncorrectable error is a thread fault (R291, R555). -/
def patRun (s : State) (t : Nat) (f : Ecc) (op : PatOp) (eff : Fields → Thread → State → State) : State :=
  let x := s.thr t
  if x.st != .run then s
  else if 0xFFFC < x.pc then s.patFault t 7
  else if f = .uncorrectable then (s.eccUe 2 0xFFFF).patFault t 8
  else match patDecode (tabGet (fun _ => 0) s.patMem (x.pc / 4)) with
    | none => s.patFault t 1
    | some (o, y) => if o = op then eff y x (s.fetched f) else s

/-- Thread t goes on behind its instruction. -/
def State.patNext (s : State) (t : Nat) : State := s.modThr t fun x => { x with pc := x.pc + 4 }

/-- rd takes a value and the thread goes on. -/
def State.patPut (s : State) (t rd : Nat) (v : Word) : State := s.modThr t fun x => { x.setReg rd v with pc := x.pc + 4 }

/-- A three-register operation. -/
def patR (s : State) (t : Nat) (f : Ecc) (op : PatOp) (v : Word → Word → Word) : State :=
  patRun s t f op fun y x s => s.patPut t y.rd (v (x.reg y.ra) (x.reg y.rb))

/-- An operation with an immediate. -/
def patI (s : State) (t : Nat) (f : Ecc) (op : PatOp) (v : Word → Word → Word) : State :=
  patRun s t f op fun y x s => s.patPut t y.rd (v (x.reg y.ra) y.imm)

/-- A jump to a byte address, traced as a taken branch. -/
def State.patJump (s : State) (t target : Nat) : State := (s.modThr t fun x => { x with pc := target }).traceBranch t (target / 4)

/-- A conditional branch. -/
def patB (s : State) (t : Nat) (f : Ecc) (op : PatOp) (c : Word → Word → Bool) : State :=
  patRun s t f op fun y x s => if c (x.reg y.ra) (x.reg y.rb) then s.patJump t (4 * y.target) else s.patNext t

/-! ## Store buffer (R307, R308) -/

/-- The oldest entry drains to ledger memory. -/
def State.drainOne (s : State) (t : Nat) : State :=
  let x := s.thr t
  match x.buf with
  | [] => s
  | e :: rest => (s.setThr t { x with buf := rest }).ledgerWrite e.adr (toLe e.len e.data.toNat)

/-- n entries drain, oldest first. -/
def drainN : Nat → Nat → State → State
  | 0, _, s => s
  | n + 1, t, s => drainN n t (s.drainOne t)

/-- The whole buffer drains. -/
def State.drainAll (s : State) (t : Nat) : State := drainN (s.thr t).buf.length t s

/-- An entry covers byte a. -/
def StEntry.covers (e : StEntry) (a : Nat) : Bool := decide (e.adr ≤ a ∧ a < e.adr + e.len)

/-- Byte a from the youngest entry that covers it. -/
def bufByte (buf : List StEntry) (a : Nat) : Option Byte :=
  buf.foldl (fun r e => if e.covers a then some (BitVec.ofNat 8 (e.data.toNat >>> (8 * (a - e.adr)))) else r) none

/-- How many of the oldest entries must drain so that none overlaps n bytes at a. -/
def overlapDepth (buf : List StEntry) (a n : Nat) : Nat :=
  ((List.range buf.length).zip buf).foldl (fun d e => if (List.range n).any fun i => e.2.covers (a + i) then e.1 + 1 else d) 0

/-- A load of n bytes (R308): forwarded when the buffer holds every byte, else read from ledger memory behind every overlapping store; none on an
uncorrectable error of the memory. -/
def patLoad (s : State) (t a n : Nat) (ecc : Ecc) : State × Option Nat :=
  let buf := (s.thr t).buf
  let l := (List.range n).map fun i => bufByte buf (a + i)
  if l.all Option.isSome then (s, some (leAt (l.map fun b => b.getD 0) 0 n))
  else
    let s := drainN (overlapDepth buf a n) t s
    match ecc with
    | .ok => (s, some (s.ledgerLe a n))
    | .corrected => (s.eccCe, some (s.ledgerLe a n))
    | .uncorrectable => (s.eccUe 2 0xFFFF, none)

/-- The effective address of ra + imm. -/
def patAddr (x : Thread) (y : Fields) : Nat := (x.reg y.ra + y.imm).toNat

/-- Misaligned for its size, or outside ledger memory (R291). -/
def patAddrBad (a n : Nat) : Bool := a % n != 0 || decide (ledgerSize < a + n)

/-- LD, LDH and LDB. -/
def patLdN (s : State) (t : Nat) (f : Ecc) (op : PatOp) (n : Nat) (ecc : Ecc) : State :=
  patRun s t f op fun y x s =>
    let a := patAddr x y
    if patAddrBad a n then s.patFault t 2
    else match patLoad s t a n ecc with
      | (s, some v) => s.patPut t y.rd (wordN v)
      | (s, none) => s.patFault t 8

/-- ST, STH and STB: into the store buffer, whose oldest entry drains first when all four are taken. -/
def patStN (s : State) (t : Nat) (f : Ecc) (op : PatOp) (n : Nat) : State :=
  patRun s t f op fun y x s =>
    let a := patAddr x y
    if patAddrBad a n then s.patFault t 2
    else if ledgerRo ≤ a then s.patFault t 3
    else
      let s := if 4 ≤ x.buf.length then s.drainOne t else s
      (s.modThr t fun z => { z with buf := z.buf ++ [{ adr := a, len := n, data := x.reg y.rd }] }).patNext t

/-! ## Waits (R293 to R297) -/

/-- The innermost armed wait ends with a status word: rd takes it, a WAITM's fire instant goes to FIRE, and the thread issues its next
instruction. -/
def State.endWait (s : State) (t : Nat) (v : Word) (fire : DWord) : State :=
  let x := s.thr t
  match x.waits with
  | [] => s
  | w :: rest =>
    let (rd, ev, s) := match w.on with
      | .event e rd _ => (rd, e, s)
      | .mark _ rd => let (f, s) := s.freshWord; (rd, f.toNat % 511, s)
    let x := match w.on with | .mark _ _ => { x with fire := fire } | .event _ _ _ => x
    let s := s.setThr t { x.setReg rd v with pc := w.pc + 4, waits := rest }
    (s.thrTo t .run).traceWake t ev 0

/-- Event e is pending in thread t and no interrupt of the thread takes it (R297). -/
def State.waitFree (s : State) (t e : Nat) : Bool :=
  (s.pend e).getLsbD t && !(irqTakeable (s.thr t) (s.route e) && wbit (s.route e) t)

/-- Bit t alone. -/
def thrMask (t : Nat) : BitVec 16 := BitVec.ofNat 16 (2 ^ t)

/-- The innermost wait completes if its result is latched or its event is pending; an event that an interrupt can take is left to the interrupt first (R297). -/
def State.tryWait (s : State) (t : Nat) : State :=
  match (s.thr t).waits with
  | [] => s
  | w :: _ =>
    match w.result, w.on with
    | some v, .event e _ _ =>
      if v ≠ 0 || !(s.pend e).getLsbD t then s.endWait t v 0
      else if s.waitFree t e then (s.clearPend e (thrMask t)).endWait t 0 0
      else s
    | some v, .mark _ _ => s.endWait t v w.fire
    | none, .event e _ _ => if s.waitFree t e then (s.clearPend e (thrMask t)).endWait t 0 0 else s
    | none, .mark _ _ => s

/-- Arm a wait and enter WAIT. -/
def State.armWait (s : State) (t : Nat) (on : Wait) : State :=
  (s.modThr t fun x => { x with waits := { on := on, pc := x.pc, level := x.level, since := s.time.st } :: x.waits }).thrTo t .wait

/-- The watchdog is kicked (R451). -/
def State.wdtKick (s : State) : State := { s with sup := { s.sup with wdtSince := s.cycles, wdtSaid := false } }

/-! ## Special registers (R292) -/

/-- Read special register i; none for a reserved one. -/
def patMfsGet (s : State) (t i : Nat) : Option (Word × State) :=
  let x := s.thr t
  let st := s.time.st
  match i with
  | 0x0 => some (wordN t, s)
  | 0x1 => some (st.setWidth 32, s.setThr t { x with stHi := st.extractLsb' 32 32 })
  | 0x2 => some (x.stHi.setWidth 32, s)
  | 0x3 => some (s.plan.slotNow, s)
  | 0x4 => some (x.fire.setWidth 32, s)
  | 0x5 => some (x.fire.extractLsb' 32 32, s)
  | 0x6 => some ((if x.inFast then x.ievF else x.ievN).setWidth 32, s)
  | 0x7 => some (putb 0 x.nie ||| putb 1 x.fie ||| putb 2 x.inNormal ||| putb 3 x.inFast, s)
  | 0x8 => some (x.npc, s)
  | 0x9 => some (x.fpc, s)
  | 0xA => some (wordN x.nwr, s)
  | 0xB => some (wordN x.nrd, s)
  | _ => none

/-- An MTS that clears the class enable of the selected interrupt withdraws it (R302). -/
def Thread.withdrawClass (x : Thread) : Thread :=
  match x.sel with
  | some (_, f) => if (if f then x.fie else x.nie) then x else { x with sel := some (511, f) }
  | none => x

/-- Write special register i; none for a reserved or read-only one. -/
def patMtsPut (s : State) (t i : Nat) (v : Word) : Option State :=
  match i with
  | 0x7 => some ((s.modThr t fun x => { x with nie := wbit v 0, fie := wbit v 1 }.withdrawClass).select t)
  | 0x8 => some (s.modThr t fun x => { x with npc := v })
  | 0x9 => some (s.modThr t fun x => { x with fpc := v })
  | 0xB => some ((s.modThr t fun x => { x with nrd := v.toNat % 16 }).noticeFlush t)
  | _ => none

/-! ## Tags and grants (R309 to R312) -/

/-- A pattern tag is in use: its request or grant has not ended, or a notice of it waits (R310). -/
def State.patTagUsed (s : State) (t tag : Nat) : Bool :=
  s.grantTag tag || (s.thr t).held.any fun b => leAt b 0 2 == tag

/-- The lowest free tag of thread t (R311). -/
def State.patTag (s : State) (t : Nat) : Option Nat :=
  let base := 256 * fld (s.reg Reg.patternTagCfg) 3 0 + 16 * t
  ((List.range 16).map (base + ·)).find? fun g => !s.patTagUsed t g

/-- Some pattern tag is in use (PATTERN.TAG_CFG). -/
def State.anyPatTag (s : State) : Bool :=
  let base := 256 * fld (s.reg Reg.patternTagCfg) 3 0
  (List.range 16).any fun t => (List.range 16).any fun i => s.patTagUsed t (base + 16 * t + i)

/-- An RSP is accepted (R313, R397): SETPOINT is written at the apply instant, which in SOLO is now. -/
def State.rspAccept (s : State) (m : Nat) (v : Word) : State :=
  if s.twin.st == .active then
    { s with twin := { s.twin with applyQ := s.twin.applyQ ++ [(s.time.st + 32000, Apply.rsp m v)] } }.emit (.dovetail (DvItem.rsp (Fin.ofNat 64 m) v (s.time.st + 32000)))
  else s.writeSetpoint m v

/-! ## The commands: arithmetic -/

/-- NOP. -/
def execPatNop (t : Fin 16) (f : Ecc) (s : State) : Host.Outcome State Fault Refusal := .next (patRun s t f .nop fun _ _ s => s.patNext t)
/-- ADD. -/
def execPatAdd (t : Fin 16) (f : Ecc) (s : State) : Host.Outcome State Fault Refusal := .next (patR s t f .add (· + ·))
/-- SUB. -/
def execPatSub (t : Fin 16) (f : Ecc) (s : State) : Host.Outcome State Fault Refusal := .next (patR s t f .sub (· - ·))
/-- AND. -/
def execPatAnd (t : Fin 16) (f : Ecc) (s : State) : Host.Outcome State Fault Refusal := .next (patR s t f .and_ (· &&& ·))
/-- OR. -/
def execPatOr (t : Fin 16) (f : Ecc) (s : State) : Host.Outcome State Fault Refusal := .next (patR s t f .or_ (· ||| ·))
/-- XOR. -/
def execPatXor (t : Fin 16) (f : Ecc) (s : State) : Host.Outcome State Fault Refusal := .next (patR s t f .xor (· ^^^ ·))
/-- SHL. -/
def execPatShl (t : Fin 16) (f : Ecc) (s : State) : Host.Outcome State Fault Refusal := .next (patR s t f .shl fun a b => a <<< (b.toNat % 32))
/-- SHR. -/
def execPatShr (t : Fin 16) (f : Ecc) (s : State) : Host.Outcome State Fault Refusal := .next (patR s t f .shr fun a b => a >>> (b.toNat % 32))
/-- SAR. -/
def execPatSar (t : Fin 16) (f : Ecc) (s : State) : Host.Outcome State Fault Refusal := .next (patR s t f .sar fun a b => a.sshiftRight (b.toNat % 32))
/-- MUL. -/
def execPatMul (t : Fin 16) (f : Ecc) (s : State) : Host.Outcome State Fault Refusal := .next (patR s t f .mul (· * ·))
/-- MULH. -/
def execPatMulh (t : Fin 16) (f : Ecc) (s : State) : Host.Outcome State Fault Refusal := .next (patR s t f .mulh mulHigh)
/-- MIN. -/
def execPatMin (t : Fin 16) (f : Ecc) (s : State) : Host.Outcome State Fault Refusal := .next (patR s t f .min minS)
/-- MAX. -/
def execPatMax (t : Fin 16) (f : Ecc) (s : State) : Host.Outcome State Fault Refusal := .next (patR s t f .max maxS)
/-- SLT. -/
def execPatSlt (t : Fin 16) (f : Ecc) (s : State) : Host.Outcome State Fault Refusal :=
  .next (patR s t f .slt fun a b => if a.toInt < b.toInt then 1 else 0)
/-- SLTU. -/
def execPatSltu (t : Fin 16) (f : Ecc) (s : State) : Host.Outcome State Fault Refusal :=
  .next (patR s t f .sltu fun a b => if a.toNat < b.toNat then 1 else 0)
/-- ADDI. -/
def execPatAddi (t : Fin 16) (f : Ecc) (s : State) : Host.Outcome State Fault Refusal := .next (patI s t f .addi (· + ·))
/-- ANDI. -/
def execPatAndi (t : Fin 16) (f : Ecc) (s : State) : Host.Outcome State Fault Refusal := .next (patI s t f .andi (· &&& ·))
/-- ORI. -/
def execPatOri (t : Fin 16) (f : Ecc) (s : State) : Host.Outcome State Fault Refusal := .next (patI s t f .ori (· ||| ·))
/-- XORI. -/
def execPatXori (t : Fin 16) (f : Ecc) (s : State) : Host.Outcome State Fault Refusal := .next (patI s t f .xori (· ^^^ ·))
/-- SHLI. -/
def execPatShli (t : Fin 16) (f : Ecc) (s : State) : Host.Outcome State Fault Refusal := .next (patI s t f .shli fun a b => a <<< (b.toNat % 32))
/-- SHRI. -/
def execPatShri (t : Fin 16) (f : Ecc) (s : State) : Host.Outcome State Fault Refusal := .next (patI s t f .shri fun a b => a >>> (b.toNat % 32))
/-- SARI. -/
def execPatSari (t : Fin 16) (f : Ecc) (s : State) : Host.Outcome State Fault Refusal := .next (patI s t f .sari fun a b => a.sshiftRight (b.toNat % 32))
/-- LUI. -/
def execPatLui (t : Fin 16) (f : Ecc) (s : State) : Host.Outcome State Fault Refusal := .next (patI s t f .lui fun _ b => b <<< 16)
/-- LI. -/
def execPatLi (t : Fin 16) (f : Ecc) (s : State) : Host.Outcome State Fault Refusal := .next (patI s t f .li fun _ b => b)

/-! ## Memory -/

/-- LD. -/
def execPatLd (t : Fin 16) (f : Ecc) (ecc : Ecc) (s : State) : Host.Outcome State Fault Refusal := .next (patLdN s t f .ld 4 ecc)
/-- LDH. -/
def execPatLdh (t : Fin 16) (f : Ecc) (ecc : Ecc) (s : State) : Host.Outcome State Fault Refusal := .next (patLdN s t f .ldh 2 ecc)
/-- LDB. -/
def execPatLdb (t : Fin 16) (f : Ecc) (ecc : Ecc) (s : State) : Host.Outcome State Fault Refusal := .next (patLdN s t f .ldb 1 ecc)
/-- ST. -/
def execPatSt (t : Fin 16) (f : Ecc) (s : State) : Host.Outcome State Fault Refusal := .next (patStN s t f .st 4)
/-- STH. -/
def execPatSth (t : Fin 16) (f : Ecc) (s : State) : Host.Outcome State Fault Refusal := .next (patStN s t f .sth 2)
/-- STB. -/
def execPatStb (t : Fin 16) (f : Ecc) (s : State) : Host.Outcome State Fault Refusal := .next (patStN s t f .stb 1)

/-- XCHG: drains the buffer, then exchanges rd with the word. -/
def execPatXchg (t : Fin 16) (f : Ecc) (ecc : Ecc) (s : State) : Host.Outcome State Fault Refusal :=
  .next <| patRun s t f .xchg fun y x s =>
    let a := patAddr x y
    if patAddrBad a 4 then s.patFault t 2
    else if ledgerRo ≤ a then s.patFault t 3
    else
      let s := s.drainAll t
      let old := wordN (s.ledgerLe a 4)
      if ecc = .uncorrectable then (s.eccUe 2 0xFFFF).patFault t 8
      else
      let s := s.fetched ecc
      (s.ledgerWrite a (toLe 4 (x.reg y.rd).toNat)).patPut t y.rd old

/-! ## Control flow -/

/-- BEQ. -/
def execPatBeq (t : Fin 16) (f : Ecc) (s : State) : Host.Outcome State Fault Refusal := .next (patB s t f .beq (· == ·))
/-- BNE. -/
def execPatBne (t : Fin 16) (f : Ecc) (s : State) : Host.Outcome State Fault Refusal := .next (patB s t f .bne (· != ·))
/-- BLT. -/
def execPatBlt (t : Fin 16) (f : Ecc) (s : State) : Host.Outcome State Fault Refusal := .next (patB s t f .blt fun a b => decide (a.toInt < b.toInt))
/-- BGE. -/
def execPatBge (t : Fin 16) (f : Ecc) (s : State) : Host.Outcome State Fault Refusal := .next (patB s t f .bge fun a b => decide (b.toInt ≤ a.toInt))
/-- BLTU. -/
def execPatBltu (t : Fin 16) (f : Ecc) (s : State) : Host.Outcome State Fault Refusal := .next (patB s t f .bltu fun a b => decide (a.toNat < b.toNat))
/-- BGEU. -/
def execPatBgeu (t : Fin 16) (f : Ecc) (s : State) : Host.Outcome State Fault Refusal := .next (patB s t f .bgeu fun a b => decide (b.toNat ≤ a.toNat))
/-- JMP. -/
def execPatJmp (t : Fin 16) (f : Ecc) (s : State) : Host.Outcome State Fault Refusal := .next (patB s t f .jmp fun _ _ => true)

/-- CALL: the field RA names the link register. -/
def execPatCall (t : Fin 16) (f : Ecc) (s : State) : Host.Outcome State Fault Refusal :=
  .next <| patRun s t f .call fun y x s => (s.setThr t (x.setReg y.ra (wordN (x.pc + 4)))).patJump t (4 * y.target)

/-- JR. -/
def execPatJr (t : Fin 16) (f : Ecc) (s : State) : Host.Outcome State Fault Refusal :=
  .next <| patRun s t f .jr fun y x s => s.patJump t (patAddr x y / 4 * 4)

/-! ## Waits and events -/

/-- WAITE (R293). -/
def execPatWaite (t : Fin 16) (f : Ecc) (s : State) : Host.Outcome State Fault Refusal :=
  .next <| patRun s t f .waite fun y x s =>
    if !wbit (s.route y.num) t then s.patPut t y.rd 0x0A
    else (s.armWait t (.event y.num y.rd (x.reg y.ra))).tryWait t

/-- WAITM (R294): the mark word is read behind the thread's own stores to it; a misaligned word or one outside ledger memory is refused like any bad one (log entry 37). -/
def execPatWaitm (t : Fin 16) (f : Ecc) (ecc : Ecc) (s : State) : Host.Outcome State Fault Refusal :=
  .next <| patRun s t f .waitm fun y x s =>
    let a := patAddr x y
    if patAddrBad a 16 then s.patPut t y.rd 0x0A
    else
      let s := drainN (overlapDepth x.buf a 16) t s
      let w := s.ledgerBytes a 16
      let s := s.fetched ecc
      if ecc = .uncorrectable then (s.eccUe 2 0xFFFF).patFault t 8
      else if s.markBad w then s.patPut t y.rd 0x0A
      else
        let s := s.armMark (.thread t a) w
        s.armWait t (.mark a y.rd)

/-- EMIT (R298): drains the buffer, then raises the event. -/
def execPatEmit (t : Fin 16) (f : Ecc) (s : State) : Host.Outcome State Fault Refusal :=
  .next <| patRun s t f .emit fun y _ s =>
    if y.num = 511 then s.patFault t 4 else ((s.drainAll t).raiseEv y.num true).patNext t

/-- EVCLR. -/
def execPatEvclr (t : Fin 16) (f : Ecc) (s : State) : Host.Outcome State Fault Refusal :=
  .next <| patRun s t f .evclr fun y _ s =>
    if y.num = 511 then s.patFault t 4 else (s.clearPend y.num (thrMask t)).patNext t

/-! ## Grants, set-points and the watchdog -/

/-- GRANT (R309, R398, R407): in TAKING the thread stays at the instruction. -/
def execPatGrant (t : Fin 16) (f : Ecc) (ecc : Ecc) (s : State) : Host.Outcome State Fault Refusal :=
  .next <| patRun s t f .grant fun y x s =>
    let a := patAddr x y
    let s := s.drainAll t
    let b := s.ledgerBytes a 32
    if a % 32 ≠ 0 ∨ ledgerRo ≤ a then s.patPut t y.rd 0x0A000000
    else if ecc = .uncorrectable then (s.eccUe 2 0xFFFF).patFault t 8
    else
      let s := s.fetched ecc
      if s.requestBad b then s.patPut t y.rd 0x0A000000
      else if s.twin.st == .taking then s
      else if !s.roleActs then s.patPut t y.rd 0x13000000
      else match s.patTag t with
        | none => s.patPut t y.rd 0x08000000
        | some g => (s.postRequest (requestOf g (some t) (a + 0x20) b)).patPut t y.rd (wordN g)

/-- GREL (R312, R398). -/
def execPatGrel (t : Fin 16) (f : Ecc) (s : State) : Host.Outcome State Fault Refusal :=
  .next <| patRun s t f .grel fun y x s =>
    let g := (x.reg y.ra).toNat
    if !(s.roleActs || s.twin.st == .taking) then s.patPut t y.rd 0x13
    else if s.plan.grants.any fun k => k.tag == g && k.thread == some t.val && !k.ended then
      { s with plan := { s.plan with releases := s.plan.releases ++ [(g, none)] } }.patPut t y.rd 0
    else s.patPut t y.rd 0x0A

/-- KICK (R314). -/
def execPatKick (t : Fin 16) (f : Ecc) (s : State) : Host.Outcome State Fault Refusal :=
  .next <| patRun s t f .kick fun _ _ s => (if wbit (s.reg Reg.patternKickEn) t then s.wdtKick else s).patNext t

/-- RSP (R313, R397, R398, R407). -/
def execPatRsp (t : Fin 16) (f : Ecc) (s : State) : Host.Outcome State Fault Refusal :=
  .next <| patRun s t f .rsp fun y x s =>
    let m := (x.reg y.ra).toNat
    if !s.railOk m || !(s.rail m).hasPage then s.patPut t y.rd 0x0A
    else if s.twin.st == .taking then s
    else if !s.roleActs then s.patPut t y.rd 0x13
    else (s.rspAccept m (x.reg y.rb)).patPut t y.rd 0

/-! ## Handlers, special registers, and the end -/

/-- RETI (R297, R303): back to the return address; a wait of the level returned to is re-entered at its instruction, and completes at once when its result is latched. A
wait whose instruction the handler does not return to is dropped with its mark (log entry 37). -/
def execPatReti (t : Fin 16) (f : Ecc) (s : State) : Host.Outcome State Fault Refusal :=
  .next <| patRun s t f .reti fun _ x s =>
    if !x.inFast && !x.inNormal then s.patFault t 5
    else
      let pc := (if x.inFast then x.fpc else x.npc).toNat / 4 * 4
      let x := if x.inFast then { x with inFast := false } else { x with inNormal := false }
      let s := s.setThr t { x with pc := pc }
      let s := match x.waits with
        | w :: rest =>
          if w.level ≠ x.level then s
          else if w.pc = pc then (s.thrTo t .wait).tryWait t
          else
            let s := s.setThr t { x with pc := pc, waits := rest }
            s.marksCancel fun who => match who, w.on with | .thread u a, .mark b _ => u == t.val && a == b | _, _ => false
        | [] => s
      s.select t

/-- MFS (R292). -/
def execPatMfs (t : Fin 16) (f : Ecc) (s : State) : Host.Outcome State Fault Refusal :=
  .next <| patRun s t f .mfs fun y _ s =>
    match patMfsGet s t y.imm.toNat with
    | some (v, s) => s.patPut t y.rd v
    | none => s.patFault t 6

/-- MTS (R292). -/
def execPatMts (t : Fin 16) (f : Ecc) (s : State) : Host.Outcome State Fault Refusal :=
  .next <| patRun s t f .mts fun y x s =>
    match patMtsPut s t y.imm.toNat (x.reg y.rd) with
    | some s => s.patNext t
    | none => s.patFault t 6

/-- SYNC (R308). -/
def execPatSync (t : Fin 16) (f : Ecc) (s : State) : Host.Outcome State Fault Refusal := .next (patRun s t f .sync fun _ _ s => (s.drainAll t).patNext t)

/-- HALT (R290). -/
def execPatHalt (t : Fin 16) (f : Ecc) (s : State) : Host.Outcome State Fault Refusal :=
  .next <| patRun s t f .halt fun _ _ s => ((s.drainAll t).patNext t).thrTo t .halted

/-! ## The engine's own events -/

/-- WAITE_COMPLETE (R293): the awaited event is pending and no interrupt takes it. -/
def execWaiteComplete (t : Fin 16) (s : State) : Host.Outcome State Fault Refusal :=
  .next <| match (s.thr t).waits with
    | { on := .event _ _ _, .. } :: _ => if (s.thr t).st == .wait then s.tryWait t else s
    | _ => s

/-- WAITE_TIMEOUT (R293): a wait whose timeout, ra in ns, has passed completes TIMEOUT; one that a handler interrupts latches it (R297). -/
def execWaiteTimeout (t : Fin 16) (s : State) : Host.Outcome State Fault Refusal :=
  let x := s.thr t
  let timed := fun (w : WaitRec) => match w.on with | .event _ _ v => v != 0 && w.result.isNone && decide (16 * v.toNat ≤ (s.time.st - w.since).toNat) | .mark _ _ => false
  .next <| match x.waits with
    | w :: _ =>
      if x.st == .wait && timed w then s.endWait t 0x0D 0
      else s.setThr t (x.latch (fun w => timed w && decide (w.level < x.level)) 0x0D 0)
    | [] => s

/-- WAITM_COMPLETE (R294): the armed mark has reported. -/
def execWaitmComplete (t : Fin 16) (s : State) : Host.Outcome State Fault Refusal :=
  .next <| match (s.thr t).waits with
    | { on := .mark _ _, .. } :: _ => if (s.thr t).st == .wait then s.tryWait t else s
    | _ => s

/-- INTERRUPT_CLAIM (R297, R302, R303): the selected interrupt, or the spurious one, is entered; its pending bit clears, and a WAITE on the same event is latched OK. -/
def execInterruptClaim (t : Fin 16) (s : State) : Host.Outcome State Fault Refusal :=
  .next <| let x := s.thr t
    match x.sel with
    | none => s
    | some (e, fast) =>
      if !thrTakes x then s
      else
        let x := if x.st == .wait then x.latch (fun w => w.level == x.level && match w.on with | .event k _ _ => (s.pend k).getLsbD t | .mark _ _ => false) 0 0 else x
        let s := if e = 511 then s else s.setPend e (s.pend e &&& ~~~thrMask t)
        let ret := wordN x.pc
        let n := BitVec.ofNat 9 e
        let x := { x with pc := x.vbase + 4 * e, sel := none }
        let x := if fast then { x with fpc := ret, inFast := true, ievF := n } else { x with npc := ret, inNormal := true, ievN := n }
        (((s.setThr t x).thrTo t .run).traceWake t e (if fast then 2 else 1)).select t

/-- STORE_BUFFER_DRAIN (R307): the oldest entry drains. -/
def execStoreBufferDrain (t : Fin 16) (s : State) : Host.Outcome State Fault Refusal := .next (s.drainOne t)

/-- An event with TONLY = 0 and IRQ = 1 routes to thread t with its class enabled (R315). -/
def State.outsideIrq (s : State) (t : Nat) : Bool :=
  let x := s.thr t
  s.regs.any fun (k, r) => k / 2048 == Reg.patternEvRoute && !wbit r 31 && wbit r 30 && wbit r t && (if wbit r 29 then x.fie else x.nie)

/-- Thread t waits for ever unless a sibling wakes it (R315). -/
def State.stuck (s : State) (t : Nat) : Bool :=
  let x := s.thr t
  x.st == .wait && (match x.waits with
    | { on := .event e _ v, .. } :: _ => v == 0 && wbit (s.route e) 31 && !(s.pend e).getLsbD t
    | _ => false)
    && (x.waits.all fun w => match w.on with | .mark _ _ => w.result.isSome | .event _ _ _ => true) && !s.outsideIrq t

/-- The deadlock condition (R315), with no awaited event pending (R316). -/
def State.deadlocked (s : State) : Bool :=
  let live := (List.range 16).filter fun t => thrTakes (s.thr t)
  live != [] && live.all s.stuck

/-- Since when the deadlock condition holds, when it does (R315, R316): the last change of a thread's state or of a route; whatever else breaks the condition changes a thread's state. -/
def State.deadSince (s : State) : DWord :=
  (List.range 16).foldl (fun (a : DWord) t => let x := (s.thr t).stAt; if (s.time.st - x).toNat < (s.time.st - a).toNat then x else a) s.routeAt

/-- The length in us of the slot in which an instant lies: the running one or the one before it (R316). -/
def State.slotLenAt (s : State) (a : DWord) : Nat := if (a - s.plan.slotStart).toNat < 2 ^ 63 then s.plan.slotLen else s.plan.lenClosed

/-- DEADLOCK_BREAK (R316): the condition has held for twice the length of the slot in which it arose; the highest-numbered waiting thread's WAITE completes DEADLOCK_BREAK. -/
def execDeadlockBreak (s : State) : Host.Outcome State Fault Refusal :=
  .next <| if !s.deadlocked || decide ((s.time.st - s.deadSince).toNat < 32000 * s.slotLenAt s.deadSince) then s
    else
      let t := (List.range 16).foldl (fun a k => if thrTakes (s.thr k) then k else a) 0
      let s := { s with deadlock := true, broken := BitVec.ofNat 4 t }
      ((s.event 0x0D t).source 25 t).endWait t 0x0E 0

/-- EV_PEND_WRITE (R302): the written bits clear in the selected event, withdrawing it. -/
def execEvPendWrite (v : Word) (s : State) : Host.Outcome State Fault Refusal :=
  let e := fld (s.reg Reg.patternEvSel) 8 0
  .next (s.viaBar0 fun s => if e = 511 then s else s.clearPend e (v.setWidth 16))

end Sys2Proof.Machine
end

