-- ==== Sys2Proof/Machine/Host.lean ====
section
/-! DEFINITION. The host's rings (R323 to R331, R357 to R360): doorbells, fetching of descriptors and extents with tags and arbitration (R326, R327, R334, R343), release of held
records (R342, R352), interrupt moderation (R354), ring set-up, and the endpoint (R319, R481, R565). -/

namespace Sys2Proof.Machine

/-- Change the host interface. -/
def State.modHost (s : State) (f : HostIf → HostIf) : State := { s with host := f s.host }

/-- RING_ERR's DETAIL (R353): ring kind (0 SQ, 1 CQ, 2 EQ, 3 AQ) and number. -/
def ringName (k : Nat) : Nat := if k = eqKey then 128 else k

/-- A ring goes to ERROR with a cause (R331, R358), with its RING_ERR event. -/
def State.ringError (s : State) (k cause : Nat) : State :=
  (s.modRing k fun r => { r with st := 2, cause := cause }).event 0x14 (ringName k) [BitVec.ofNat 8 cause]

/-! ## Doorbells (R328 to R331) -/

/-- A tail value of a host-written ring (R331): taken, or BAD_TAIL when it is not below the size or makes the ring hold more than size - 1 entries. -/
def State.takeTail (s : State) (k v : Nat) : State :=
  let r := s.ring k
  let n := s.ringSize k
  if !r.live then s
  else if n ≤ v || n ≤ s.ringHeld k + (v + n - r.prod) % n then s.ringError k 1
  else s.setRing k { r with prod := v }

/-- A head value of a device-written ring (R331): taken, or BAD_HEAD when it reports more records than were written. -/
def State.takeHead (s : State) (k v : Nat) : State :=
  let r := s.ring k
  let n := s.ringSize k
  if !r.live then s
  else if n ≤ v || s.ringHeld k < (v + n - r.cons) % n then s.ringError k 1
  else s.setRing k { r with cons := v }

/-- The tails and heads of a doorbell page (R328). -/
def State.takeDoorbells (s : State) (b : List Byte) : State :=
  let s := (List.range 64).foldl (fun s q => s.takeTail q (leAt b (4 * q) 4)) s
  let s := (List.range 64).foldl (fun s q => s.takeHead (64 + q) (leAt b (0x100 + 4 * q) 4)) s
  let s := s.takeHead eqKey (leAt b 0x200 4)
  (List.range 8).foldl (fun s a => s.takeTail (192 + a) (leAt b (0x210 + 4 * a) 4)) s

/-- The address of the doorbell page, HOST.DB_BASE (R328). -/
def State.dbBase (s : State) : Nat := (s.reg Reg.hostDbBaseLo).toNat + 2 ^ 32 * (s.reg Reg.hostDbBaseHi).toNat

/-- The device reads doorbell bytes 0x000 to 0x22F (R329). -/
def State.dbRead (s : State) : State := s.emit (.hostRead s.dbBase 0x230)

/-- NUDGE (R329): the device starts a read of the doorbell page. -/
def execNudge (s : State) : Host.Outcome State Fault Refusal := .next (if s.ringsUp then s.dbRead else s)

/-- The next poll of the doorbell page (R329): (POLL + 1) x 0.5 us after the last one. -/
def State.pollAt (s : State) : DWord := s.host.polledAt + BitVec.ofNat 64 (8000 * (fld (s.reg Reg.hostDbPoll) 6 0 + 1))

/-- DOORBELL_POLL (R329): once the poll interval has passed, the same read, whether or not NUDGE has been written. -/
def execDoorbellPoll (s : State) : Host.Outcome State Fault Refusal :=
  .next (if s.ringsUp && s.reached s.pollAt then (s.modHost fun h => { h with polledAt := s.time.st }).dbRead else s)

/-- DOORBELL_READ_COMPLETE (R328 to R331): new tails and heads are taken; a failed read sets DB_ERR. -/
def execDoorbellReadComplete (d : HostRead) (s : State) : Host.Outcome State Fault Refusal :=
  .next <|
    if !s.ringsUp then s
    else match d with
      | .data b => s.takeDoorbells b
      | .failed => s.modHost fun h => { h with dbErr := true }

/-! ## Tags (R311, R343) -/

/-- The tag lies in the pattern tag block (R311). -/
def State.inPatBlock (s : State) (tag : Nat) : Bool := tag / 256 == fld (s.reg Reg.patternTagCfg) 3 0

/-- A NOTICE of the tag still waits to be written (R266, R343). -/
def State.noticeWaits (s : State) (tag : Nat) : Bool := s.eqHeld.any fun r => byteAt r 0 == 1 && leAt r 4 4 == tag

/-- A host tag is in flight (R343): as an operation, a decided grant that has not ended, or a notice not yet written. -/
def State.tagFlight (s : State) (tag : Nat) : Bool :=
  (s.findOp tag).isSome || (s.plan.grants.any fun g => g.tag == tag && g.thread.isNone && !g.ended) || s.noticeWaits tag

/-- The tags in flight (HOST.STAT.INFLIGHT): operations, grants and requests of host and threads, and tags with a notice not yet written (R343). -/
def State.inFlight (s : State) : List Nat :=
  (((s.ops.filter fun o => decide (o.tag < 4096)).map (·.tag)) ++ ((s.plan.grants.filter fun g => !g.ended).map (·.tag)) ++ (s.plan.reqs.map (·.tag))
    ++ (match s.plan.pass with | some p => p.requests.map (·.tag) | none => [])
    ++ ((s.eqHeld.filter fun r => byteAt r 0 == 1).map fun r => leAt r 4 4)).eraseDups

/-! ## Fetching (R326, R327) -/

/-- The SQ has posted descriptors that the device may serve. -/
def State.sqReady (s : State) (q : Nat) : Bool := (s.ring q).live && s.ringHeld q != 0

/-- Fetching is held: 4,096 tags are in flight, or the held-event buffer is over its threshold (R327, R352; HOST.STAT.FETCH_HOLD). -/
def State.fetchHold (s : State) : Bool := s.host.fetchStop || decide (4096 ≤ s.inFlight.length)

/-- The device fetches from the rings at all (R327, R352, HOST.CTL.EN). -/
def State.mayFetch (s : State) : Bool := s.ringsUp && wbit (s.reg Reg.hostCtl) 0 && !s.fetchHold

/-- SQ q is of the high tier (R327). -/
def State.sqHigh (s : State) (q : Nat) : Bool := wbit (s.ringCfg q) 3

/-- The ring of a tier that was served last (R327). -/
def State.rrLast (s : State) (high : Bool) : Nat := if high then s.host.rrHigh else s.host.rrLow

/-- The ring that a tier serves next (R327): the one served last while descriptors of its WEIGHT + 1 are left to it, then the next ready ring in rising order, with SQ0 after SQ63 (the order is a
DESIGN CHOICE, log entry 52). -/
def State.rrNext (s : State) (high : Bool) : Option Nat :=
  let last := s.rrLast high
  let ready := fun (k : Nat) => s.sqReady k && s.sqHigh k == high
  if ready last && decide ((s.ring last).turn ≤ fld (s.ringCfg last) 2 0) then some last
  else (List.range 64).findSome? fun i => if ready ((last + 1 + i) % 64) then some ((last + 1 + i) % 64) else none

/-- SQ q is the one to be served next (R327): the high tier comes first. -/
def State.sqTurn (s : State) (q : Nat) : Bool :=
  match s.rrNext true with
  | some k => k == q
  | none => s.rrNext false == some q

/-- A descriptor of SQ q is taken: it counts in the ring's turn, which a ring that was not served last starts anew (R327). -/
def State.rrTake (s : State) (q : Nat) : State :=
  let high := s.sqHigh q
  let again := s.rrLast high == q && decide ((s.ring q).turn ≤ fld (s.ringCfg q) 2 0)
  let s := s.modRing q fun r => { r with turn := if again then r.turn + 1 else 1 }
  s.modHost fun h => if high then { h with rrHigh := q } else { h with rrLow := q }

/-- Take the next slot of a host-written ring: its index, and the state with the consumer index advanced. -/
def State.consume (s : State) (k : Nat) : Nat × State :=
  let r := s.ring k
  (r.cons, s.setRing k { r with cons := (r.cons + 1) % s.ringSize k })

/-- The descriptor at a slot of SQ q (R334, R341, R343): a tag conflict, a BAD_DESC completion, or an operation in flight. -/
def State.takeDesc (s : State) (q slot : Nat) (b : List Byte) : State :=
  let tag := leAt b 2 2 % 4096
  if s.inPatBlock tag || s.tagFlight tag then s.event 0x13 tag ([BitVec.ofNat 8 q, 0] ++ toLe 2 slot)
  else
    let o : Op := { tag := tag, sq := q, desc := b }
    let s := { s with ops := s.ops ++ [o] }
    if s.badDesc b then s.complete o stBadDesc else s

/-- DESCRIPTOR_FETCH (R326, R327, R334, R343, R358): the descriptor is copied whole and checked; a failed read puts the ring in ERROR. -/
def execDescriptorFetch (q : Fin 64) (d : HostRead) (s : State) : Host.Outcome State Fault Refusal :=
  .next <|
    if !s.mayFetch || !s.sqReady q || !s.sqTurn q then s
    else
      let s := s.emit (.hostRead (s.ringBase q + 64 * (s.ring q).cons) 64)
      match d with
      | .failed => s.ringError q 2
      | .data b =>
        let (slot, s) := s.consume q
        (s.rrTake q).takeDesc q slot b

/-- An extent breaks R359. -/
def extentBad (b : List Byte) : Bool :=
  b.length != 32 || leAt b 0 8 % 4096 != 0 || !decide (1 ≤ leAt b 8 4 ∧ leAt b 8 4 ≤ 2 ^ 20) || !zerosAt b 0xC 4 || leAt b 0x10 8 % 4096 != 0
    || decide (2 ^ 52 ≤ leAt b 0x10 8) || !zerosAt b 0x18 8

/-- EXTENT_FETCH (R326, R359, R381, R382): a posted extent is copied and checked; one that overlaps a held range is refused; a stalled drain resumes. -/
def execExtentFetch (a : Fin 8) (d : HostRead) (s : State) : Host.Outcome State Fault Refusal :=
  let k := 192 + a.val
  .next <|
    if !s.ringsUp || !wbit (s.reg Reg.hostCtl) 0 || !(s.ring k).live || s.ringHeld k = 0 then s
    else
      let s := s.emit (.hostRead (s.ringBase k + 32 * (s.ring k).cons) 32)
      match d with
      | .failed => s.ringError k 2
      | .data b =>
        let (_, s) := s.consume k
        if extentBad b then s.ringError k 1
        else
          let e : Extent := { bus := leAt b 0 8, len := leAt b 8 4, arch := leAt b 0x10 8, used := 0 }
          let s := (s.setExtents a (s.aqExtents a ++ [e])).refuseHeld a
          if s.cap.stalledAq.contains a && !(s.aqExtents a).isEmpty then
            { s with cap := { s.cap with stalledAq := s.cap.stalledAq.filter (· != a.val) } }.archEvent a 3 (match s.draining a with | some (b, _) => b | none => 0) 0 0
          else s

/-- CQ_RECORD_RELEASE (R342): records held back by a full CQ are written in their order while slots are free. -/
def execCqRecordRelease (q : Fin 64) (s : State) : Host.Outcome State Fault Refusal := .next (s.cqFlush q)

/-- EQ_RECORD_RELEASE (R352): waiting event records are written while slots are free; fetching resumes below 2,048. -/
def execEqRecordRelease (s : State) : Host.Outcome State Fault Refusal := .next s.eqFlush

/-- COAL_T of ring k has passed since its first unsignalled record, and the ring holds unread ones (R354). -/
def State.coalDue (s : State) (k : Nat) : Bool :=
  let t := fld (s.reg Reg.hostRingMod k) 31 16
  (s.ring k).unsig != 0 && s.ringHeld k != 0 && t != 0 && s.reached ((s.ring k).unsigAt + BitVec.ofNat 64 (16000 * t))

/-- MSIX_COAL_TIMER (R354): the message of CQ k, or of the EQ for k = 64, when COAL_T has passed. -/
def execMsixCoalTimer (k : Fin 65) (s : State) : Host.Outcome State Fault Refusal :=
  .next (if s.linkOn && s.coalDue (64 + k.val) then s.msixSend (64 + k.val) else s)

/-! ## Ring set-up (R357, R358) -/

/-- The ring that HOST.RING_SEL chooses; none for an AQ above 7. -/
def State.ringSel (s : State) : Option Nat :=
  let v := s.reg Reg.hostRingSel
  let i := fld v 5 0
  match fld v 7 6 with
  | 0 => some i
  | 1 => some (64 + i)
  | 2 => some eqKey
  | _ => if i < 8 then some (192 + i) else none

/-- The RING_CFG fields that a kind of ring has (R357), EN apart. -/
def ringCfgMask (k : Nat) : Word :=
  if k < 64 then 0x001FFC0F else if k ≤ eqKey then 0x001F03F0 else 0x001F0000

/-- A configuration that may not be enabled (R358): a size outside its range, or an SQ whose CQ is disabled. -/
def State.ringBadCfg (s : State) (k : Nat) : Bool :=
  let n := fld (s.ringCfg k) 20 16
  decide (n < (if k = eqKey then 8 else 4) ∨ 16 < n) || (decide (k < 64) && !(s.ring (64 + s.cqOf k)).en)

/-- A write of RING_CFG of ring k (R331, R357, R358): EN to 0 leaves a ring in ERROR there until it is enabled again. -/
def State.ringCfgWrite (s : State) (k : Nat) (v : Word) : State :=
  let r := s.ring k
  if r.en then
    if wbit v 31 then s
    else if 64 ≤ k && k < 128 && (List.range 64).any (fun q => (s.ring q).en && s.cqOf q == k - 64) then s.setRing k { r with cause := 3 }
    else s.setRing k { r with en := false, st := if r.st = 2 then 2 else 0 }
  else
    let s := s.setReg Reg.hostRingCfg k (v &&& ringCfgMask k)
    if !wbit v 31 then s
    else if s.ringBadCfg k then s.setRing k { r with cause := 3 }
    else s.setRing k { en := true, st := 1, cause := r.cause, phase := decide (64 ≤ k ∧ k ≤ eqKey) }

/-- RING_ENABLE (R331, R358): EN = 1 with both indices at 0, or BAD_CFG. -/
def execRingEnable (v : Word) (s : State) : Host.Outcome State Fault Refusal :=
  .next (if s.ringsUp then (match s.ringSel with | some k => s.ringCfgWrite k v | none => s) else s)

/-- RING_DISABLE (R357, R358): the ring takes no new entries; a CQ with an enabled SQ bound to it stays enabled with BAD_CFG. -/
def execRingDisable (v : Word) (s : State) : Host.Outcome State Fault Refusal :=
  .next (if s.ringsUp then (match s.ringSel with | some k => s.ringCfgWrite k v | none => s) else s)

/-- A write of HOST.CTL (R357): EN is kept, and RESET_KEY 0xA5 raises the HOST reset. -/
def State.hostCtlWrite (s : State) (v : Word) : State :=
  let s := s.setReg Reg.hostCtl 0 (v &&& 1)
  if fld v 31 24 = 0xA5 then s.raiseRst .host else s

/-- HOST_RESET_KEY (R357). -/
def execHostResetKey (v : Word) (s : State) : Host.Outcome State Fault Refusal := .next (if s.ringsUp then s.hostCtlWrite v else s)

/-! ## The endpoint -/

/-- PERST (R480, R481): PERST# takes the endpoint's link down, and its deassertion lets it train again and may wake the device. Records that waited for the link are written. -/
def execPerst (deasserted : Bool) (s : State) : Host.Outcome State Fault Refusal :=
  let s := s.modHost fun h => { h with perst := !deasserted }
  let s := if deasserted then ((List.range 64).foldl State.cqFlush s).eqFlush else s
  .next (if deasserted && wbit (s.reg Reg.supWakeCfg) 2 then s.wake 7 else s)

/-- The identification words of the function's configuration space (R319, R568): Vendor and Device ID at 0x00, Revision ID and class code at 0x08, BAR0 and BAR2 kinds, Subsystem IDs at 0x2C, no interrupt
pin. What the PCI Express Base Specification keeps beside them is seen by a bus agent alone (log entry 53). -/
def State.configWord (s : State) (off : Nat) : Word :=
  if off = 0x00 then wordN (0x1F3C + 0x10000 * (if s.pwr.st == .basting then 0x0A1F else 0x0A10 + min 2 s.grade.toNat))
  else if off = 0x08 then 0x11800001
  else if off = 0x10 || off = 0x18 then 0x4
  else if off = 0x2C then 0x00001F3C
  else 0

/-- MALFORMED_ACCESS (R565): a malformed write is discarded, a malformed read returns 0, and both are counted. -/
def execMalformedAccess (isWrite : Bool) (s : State) : Host.Outcome State Fault Refusal :=
  .next (s.viaBar0 fun s => s.modHost fun h => { h with accErr := satInc 0xFFFF h.accErr, rdata := if isWrite then h.rdata else 0 })

end Sys2Proof.Machine
end

