-- ==== Sys2Proof/Machine/RailOps.lean ====
section
/-! DEFINITION. The rail operations of the host (R178, R200, R235, R333, R600), the apply instant at which both twins carry out what the ACTIVE accepts (R397), and the fences of a submission
ring (R345). -/

namespace Sys2Proof.Machine

/-! ## The apply instant (R397) -/

/-- Carry out an accepted rail operation: RAIL_SETPOINT writes its value, RAIL_SETPOINT_AT arms its mark, and each but RAIL_SETPOINT waits for its rail's lead boundary. -/
def State.applyRail (s : State) (tag : Nat) : State :=
  match s.findOp tag with
  | none => s
  | some o =>
    let m := o.u8 8
    if o.done then s
    else match o.code with
      | 0x12 =>
        let s := (s.writeSetpoint m (BitVec.ofNat 32 (o.u32 0xC))).commit o
        s.completeTag tag stOk 0 (s.rmLe m 0x84 4)
      | 0x13 =>
        let s := s.armMark (.setpoint tag) (slice o.desc 0x10 16)
        s.modRail m fun r => { r with reqs := r.reqs ++ [tag] }
      | _ => s.modRail m fun r => { r with reqs := r.reqs ++ [tag] }

/-- Tag under which a SHADOW carries out an operation of its twin (R396). -/
def mirrored (d : List Byte) : Nat := 8192 + leAt d 2 2 % 4096

/-- The apply instant of what is accepted now in ACTIVE (R397): 2 us from now. -/
def State.applyAt (s : State) : DWord := s.time.st + 32000

/-- APPLY_INSTANT (R397): once its instant has come, the oldest accepted action takes effect; on the twin, the same action as the link brought it. -/
def execApplyInstant (s : State) : Host.Outcome State Fault Refusal :=
  .next <| match s.twin.applyQ with
    | [] => s
    | (due, a) :: t =>
      if !s.reached due then s
      else
        let s := s.modTwin fun (w : Twin) => { w with applyQ := t }
        match a with
        | .op tag => s.applyRail tag
        | .rsp m v => s.writeSetpoint m v
        | .peerOp d =>
          let tag := mirrored d
          let o : Op := { tag := tag, sq := 0, desc := d, accepted := true }
          ({ (s.dropOp tag) with ops := (s.dropOp tag).ops ++ [o] }).applyRail tag

/-- A rail operation is accepted (R397): in ACTIVE it waits for its apply instant and the twin is told of it, in SOLO it applies now. -/
def State.acceptRail (s : State) (op : Op) : State :=
  let s := s.modOp op.tag fun p => { p with accepted := true, held := false }
  if s.twin.st == .active then (s.emit (.dovetail (.railOp op.desc s.applyAt))).modTwin fun t => { t with applyQ := t.applyQ ++ [(s.applyAt, Apply.op op.tag)] }
  else s.applyRail op.tag

/-- An operation that finds nothing to do completes OK at once (R600). -/
def State.nothingToDo (s : State) (op : Op) : State := (s.commit op).complete op stOk

/-! ## Rail operations (R333, R600) -/

/-- The rail of an operation is in one of some states. -/
def railIs (l : List RailState) (op : Op) (s : State) : Bool := l.contains (s.rail (op.u8 8)).st

/-- The state of the rail makes the operation not ready. -/
def railNotReady (l : List RailState) (op : Op) (s : State) : Option Nat := if railIs l op s then some stNotReady else none

/-- RAIL_START (R167, R600): NOT_READY in OFF and ENV_TRIP, nothing to do when started, else it waits for the lead boundary at which the checks are made. -/
def execRailStart (o : Nat) (s : State) : Host.Outcome State Fault Refusal :=
  .next <| opRun s o 0x10 noBad (railNotReady [.off, .envTrip]) fun op s =>
    if op.accepted then s else if railIs [.standby, .armed, .run] op s then s.nothingToDo op else s.acceptRail op

/-- RAIL_STOP (R600): NOT_READY in OFF and ENV_TRIP, nothing to do in STOPPED, else STOPPED at the lead boundary. -/
def execRailStop (o : Nat) (s : State) : Host.Outcome State Fault Refusal :=
  .next <| opRun s o 0x11 noBad (railNotReady [.off, .envTrip]) fun op s =>
    if op.accepted then s else if railIs [.stopped] op s then s.nothingToDo op else s.acceptRail op

/-- RAIL_SETPOINT (R333): SETPOINT and SP_SEQ, with the new SP_SEQ as its result. -/
def execRailSetpoint (o : Nat) (s : State) : Host.Outcome State Fault Refusal :=
  .next <| opRun s o 0x12 noBad noPre fun op s => if op.accepted then s else s.acceptRail op

/-- RAIL_SETPOINT_AT (R235, R333): a one-shot mark is armed; its firing lets the set-point be written at the lead's next boundary. A mark word that R230 refuses is BAD_DESC. -/
def execRailSetpointAt (o : Nat) (s : State) : Host.Outcome State Fault Refusal :=
  .next <| opRun s o 0x13 (fun op s => s.markBad (slice op.desc 0x10 16) || !zerosAt op.desc 0x1C 4) noPre fun op s =>
    if op.accepted then s else s.acceptRail op

/-- RAIL_RELEASE (R178, R600): NOT_READY in any state but ENV_TRIP, else STOPPED at the lead boundary. -/
def execRailRelease (o : Nat) (s : State) : Host.Outcome State Fault Refusal :=
  let pre := fun (op : Op) (s : State) => if op.accepted || railIs [.envTrip] op s then none else some stNotReady
  .next <| opRun s o 0x14 noBad pre fun op s => if op.accepted then s else s.acceptRail op

/-- RAIL_LIMITS (R200, R600): BAD_DESC for a field out of range or an active page of another kind, NOT_READY in OFF, else renewed at the lead boundary. -/
def execRailLimits (o : Nat) (s : State) : Host.Outcome State Fault Refusal :=
  let bad := fun (op : Op) (s : State) => !limitsOk op.desc || ((s.rail (op.u8 8)).hasPage && !(s.rail (op.u8 8)).isKind 3)
  .next <| opRun s o 0x15 bad (railNotReady [.off]) fun op s => if op.accepted then s else s.acceptRail op

/-! ## NOP and fences (R333, R345) -/

/-- NOP (R333). -/
def execNop (o : Nat) (s : State) : Host.Outcome State Fault Refusal :=
  .next <| opRun s o 0x00 noBad noPre fun op s => (s.commit op).complete op stOk

/-- Every operation fetched before a FENCE from its scope has completed: from its own SQ, or from any (R345); entries of the start plan and the twin's operations are no descriptors. -/
def State.fenceOpen (s : State) (op : Op) : Bool :=
  (opsBefore s.ops op.tag).all fun p => p.done || decide (4096 ≤ p.tag) || (op.u8 8 == 0 && p.sq != op.sq)

/-- Release a FENCE (R345). -/
def State.fenceTry (s : State) (op : Op) : State :=
  if s.fenceOpen op then (s.commit op).complete op stOk else s.modOp op.tag fun p => { p with accepted := true }

/-- FENCE (R345): later descriptors of its SQ wait from its fetch on; it is released at once when nothing earlier is unfinished. -/
def execFence (o : Nat) (s : State) : Host.Outcome State Fault Refusal := .next <| opRun s o 0x02 noBad noPre fun op s => s.fenceTry op

/-- FENCE_RELEASE (R345): the last earlier descriptor has completed. -/
def execFenceRelease (o : Nat) (s : State) : Host.Outcome State Fault Refusal :=
  .next <| opRun s o 0x02 noBad noPre fun op s => if op.accepted then s.fenceTry op else s

end Sys2Proof.Machine
end

