-- ==== Sys2Proof/Machine/Pages.lean ====
section
/-! DEFINITION. Loading pages and profiles (R62, R144, R145, R162, R164 to R166, R336, R337), ordering swaps (R33, R34, R335, R336), and the operand data that operations read from
host memory (R355). -/

namespace Sys2Proof.Machine

/-- OPERAND_READ_COMPLETE (R355, R526): the operand data of an operation that may start arrives, whole and once; a failed read ends the operation. -/
def execOperandReadComplete (o : Nat) (d : HostRead) (s : State) : Host.Outcome State Fault Refusal :=
  .next <| match s.findOp o with
    | none => s
    | some op =>
      if op.done || op.data.isSome || dataLen op.desc = 0 || !s.mayStart op then s
      else match d with
        | .failed => s.complete op stMediaError
        | .data b => if b.length = dataLen op.desc then s.putOp { op with data := some b } else s

/-! ## Pages -/

/-- STAGE_CELL (R144, R145, R336): the page is checked and becomes the staged copy; a page that breaks a rule discards it, while the page of a swap already ordered
stays with that swap, past its commit point. -/
def execStageCell (o : Nat) (s : State) : Host.Outcome State Fault Refusal :=
  .next <| opRun s o 0x50 noBad noPre fun op s =>
    let n := op.u16 8
    if op.data.isNone then s
    else if !s.cellPageOk n op.bytes then (s.modCell n fun c => { c with staged := [] }).complete op stBadDesc
    else if (s.cell n).swapOp.isSome then s.complete op stBusy
    else ((s.commit op).modCell n fun c => { c with staged := op.bytes }).complete op stOk

/-- The envelope fields of a page differ from the rail's OTP row after the seal (R166, R511). -/
def State.envelopeBad (s : State) (m : Nat) (p : List Byte) : Bool :=
  let a := (s.otpRead (0xA0 + 2 * m)).toNat
  let b := (s.otpRead (0xA1 + 2 * m)).toNat
  s.isSealed && envelopeOf p != (a % 2 ^ 32, a / 2 ^ 32, b % 2 ^ 32, b / 2 ^ 32 % 2 ^ 16)

/-- STAGE_RAIL (R162 to R166, R336): as STAGE_CELL, with the sealed envelope. -/
def execStageRail (o : Nat) (s : State) : Host.Outcome State Fault Refusal :=
  .next <| opRun s o 0x51 noBad noPre fun op s =>
    let m := op.u8 8
    if op.data.isNone then s
    else if !s.railPageOk m op.bytes then (s.modRail m fun r => { r with staged := [] }).complete op stBadDesc
    else if s.envelopeBad m op.bytes then s.complete op stDenied
    else if (s.rail m).swapOp.isSome then s.complete op stBusy
    else ((s.commit op).modRail m fun r => { r with staged := op.bytes }).complete op stOk

/-! ## Swaps (R33 to R35, R335, R336) -/

/-- Cell n has running boundaries (R33). -/
def State.cellRuns (s : State) (n : Nat) : Bool := (s.lane n).st == .run && decide (s.periodOf n ≠ 0)

/-- The cells that SWAP KIND 1 names: those of the rail's staged page (R335). -/
def State.swapCells (s : State) (m : Nat) : List Nat := rpCells m (s.rail m).staged

/-- Order the swap of some rails and cells under an operation: what has no running boundaries takes its page now, all by the state at the order (R33). -/
def State.orderSwap (s : State) (op : Op) (rail : Option Nat) (cells : List Nat) : State :=
  let all := decide (cells ≠ [])
  let nowRail := rail.filter fun m => !(s.rail m).hasPage
  let nowCells := cells.filter fun n => !s.cellRuns n
  let s := s.modOp op.tag fun p => { p with accepted := true, committed := true }
  let s := match rail with
    | some m => s.modRail m fun r => { r with swapOp := some (op.tag, all), swapPage := r.staged }
    | none => s
  let s := cells.foldl (fun s n => s.modCell n fun c => { c with swapOp := some op.tag, swapPage := c.staged }) s
  let s := match nowRail with
    | some m => s.swapRailNow m
    | none => s
  nowCells.foldl (fun s n => if (s.cell n).swapOp = some op.tag then s.swapCellNow n else s) s

/-- A SWAP operation of one KIND (R335): BAD_DESC without a staged page, BUSY while a swap of a target waits or by R165. -/
def swapRun (o kind : Nat) (s : State) : State :=
  opRun s o 0x52 noBad noPre fun op s =>
    let i := op.u16 0xA
    let rail := if kind = 0 then none else some i
    let cells := match kind with | 0 => [i] | 1 => s.swapCells i | _ => []
    if op.accepted || op.u8 8 ≠ kind then s
    else if (rail.any fun m => (s.rail m).staged == []) || (cells.any fun n => (s.cell n).staged == []) then s.complete op stBadDesc
    else if (rail.any fun m => (s.rail m).swapOp.isSome || (s.rail m).swapBusy (s.rail m).staged) || (cells.any fun n => (s.cell n).swapOp.isSome) then s.complete op stBusy
    else s.orderSwap op rail cells

/-- SWAP_CELL (R335): the staged page of one cell. -/
def execSwapCell (o : Nat) (s : State) : Host.Outcome State Fault Refusal := .next (swapRun o 0 s)

/-- SWAP_RAIL_ALL (R335): the staged pages of a rail and of all its cells. -/
def execSwapRailAll (o : Nat) (s : State) : Host.Outcome State Fault Refusal := .next (swapRun o 1 s)

/-- SWAP_RAIL (R335): the staged page of one rail. -/
def execSwapRail (o : Nat) (s : State) : Host.Outcome State Fault Refusal := .next (swapRun o 2 s)

/-! ## Profiles (R62, R337) -/

/-- A profile block with the profiles of a mask replaced. -/
def profMerge (old new : List Byte) (mask : Nat) : List Byte :=
  if old = [] then new else (List.range 16).flatMap fun p => slice (if bitOf mask p then new else old) (16 * p) 16

/-- PROFILE_LOAD (R62, R337): BUSY for profile 0 unless the cell shows SAFE; the block becomes the lane's last loaded one and its profiles are sent. The operation keeps the block
it replaced. -/
def execProfileLoad (o : Nat) (s : State) : Host.Outcome State Fault Refusal :=
  .next <| opRun s o 0x53 noBad noPre fun op s =>
    let n := op.u16 8
    let l := s.lane n
    let mask := op.u16 0xC
    if op.accepted || op.data.isNone then s
    else if (bitOf mask 0 && !l.status.getLsbD 10) || l.profOp.isSome then s.complete op stBusy
    else
      let s := s.putOp { op with accepted := true, data := some l.profBlock }
      (s.modLane n fun l => { l with profOp := some op.tag, profBlock := profMerge l.profBlock op.bytes mask }).profSend n

/-- PROFILE_LOAD_TIMEOUT (R337): 1 ms after its first commit PROF_CRC does not match. -/
def execProfileLoadTimeout (o : Nat) (s : State) : Host.Outcome State Fault Refusal :=
  .next <| withOp s o 0x53 fun op s =>
    if op.committed && s.reached (op.since + 16000000) then (s.modLane (op.u16 8) fun l => { l with profOp := none }).complete op stTimeout else s

end Sys2Proof.Machine
end

