-- ==== Sys2Proof/Machine/Images.lean ====
section
/-! DEFINITION. Keys (R523, R524), images and their staging buffer (R525 to R528), what images are loaded for: pattern memory, a cell engine, a relief engine's takeover (R151 to
R156), the firmware banks. -/

namespace Sys2Proof.Machine

/-- Change the security unit. -/
def State.modSec (s : State) (f : Sec → Sec) : State := { s with sec := f s.sec }

/-- Change the NVM unit. -/
def State.modNvm (s : State) (f : Nvm → Nvm) : State := { s with nvm := f s.nvm }

/-! ## Keys -/

/-- The state in force is SEALED, RETURN or VOID. -/
def State.sealForce (s : State) : Bool := s.nvm.lc == .sealed || s.nvm.lc == .ret || s.nvm.lc == .void

/-- The key hash in force (R524): OTP rows 0x014 to 0x017, or the staged words before the seal. -/
def State.keyHash (s : State) : List Word :=
  if s.sealForce then (List.range 8).map fun i => let w := (s.otpRead (0x14 + i / 2)).toNat; wordN (if i % 2 = 0 then w else w / 2 ^ 32)
  else (List.range 8).map fun i => s.reg (Reg.secKeyHash + 4 * i)

/-- The integrator key, when its hash is the key hash and there is one (R523, R524). -/
def State.integratorKey (s : State) : Option (List Byte) :=
  let k := s.nvmBytes 0 64
  if (s.keyHash.all (· == 0)) || sha256 k != s.keyHash.flatMap (fun w => toLe 4 w.toNat) then none else some k

/-! ## Images (R525, R526) -/

/-- LENGTH of an image. -/
def imageLen (b : List Byte) : Nat := leAt b 4 4

/-- The body of an image. -/
def imageBody (b : List Byte) : List Byte := (b.drop 128).take (imageLen b)

/-- The most body bytes of a KIND (R525). -/
def imageMax : Nat → Nat
  | 1 => 261760 | 2 => 1024 | _ => 65536

/-- The header of an image breaks R525, or its KIND is not the operation's (R527). -/
def imageHeaderBad (b : List Byte) (kind : Nat) : Bool :=
  byteAt b 0 != 1 || byteAt b 1 != kind || !zerosAt b 2 2 || imageLen b == 0 || imageLen b % 4 != 0 || !zerosAt b 0xC 52

/-- The signature verifies over the header's first 64 bytes and the body. -/
def imageSigned (key b : List Byte) : Bool := ecdsaVerify key (b.take 64 ++ imageBody b) (slice b 0x40 64)

/-- What an image of a KIND fails with (R523 to R527), if anything. -/
def State.imageStatus (s : State) (b : List Byte) (kind : Nat) : Option Nat :=
  let key := if kind = 1 then some Config.heastolKey else s.integratorKey
  if imageHeaderBad b kind then some stBadDesc
  else match key with
    | none => some stDenied
    | some k => if imageMax kind < imageLen b then some stTooLarge else if imageSigned k b then none else some stDenied

/-- The instructions of a body. -/
def imageWords (b : List Byte) : List Word := (List.range (imageLen b / 4)).map fun i => wordN (leAt (imageBody b) (4 * i) 4)

/-- An image operation is accepted and waits for the staging buffer (R527). -/
def State.imageWait (s : State) (op : Op) : State :=
  (s.acceptOp op.tag).modSec fun c => { c with staging := c.staging ++ [op.tag] }

/-- An image operation leaves the staging buffer, or its queue. -/
def State.imageLeave (s : State) (tag : Nat) : State :=
  s.modSec fun c => { c with staging := c.staging.filter (· != tag), staged := if c.staged.any (fun e => e.1 == tag) then none else c.staged }

/-- An image operation ends. -/
def State.imageEnd (s : State) (op : Op) (status : Nat) (result : Nat := 0) : State := (s.imageLeave op.tag).complete op status 0 result

/-! ## Relief (R151 to R156) -/

/-- The cell engine of lane n is inside its selvedge by relief (R154). -/
def State.engineAway (s : State) (n : Nat) : Bool :=
  match (s.cell n).relief with | .relieved => true | .starting _ back _ _ => back | _ => false

/-- Why a RELIEVE of lane n may not start (R151, R154, R483), by R356. -/
def State.relieveStatus (s : State) (n : Nat) : Option Nat :=
  let k := s.eng (1024 + n / 16)
  if (s.lane n).st != .run then some stBadDesc
  else if s.enclosed n || s.engineAway n then some stIsolated
  else if k.carries.isSome || (s.cell n).relief != .own then some stBusy
  else none

/-- A program ready to run in an engine for a page (R136, R598). -/
def Engine.readyFor (g : Engine) (page : List Byte) : Engine :=
  let d := cpDtInit page
  { g with regs := [], loc := [], out := initOutputs page, stage := initOutputs page, running := false, ended := false, pc := 0, ppFault := false, overrun := false,
           missEnd := 0, dtHL := d, dtLH := d, dtHLb := d, dtLHb := d, acc := {} }

/-- A RELIEVE begins (R152): RE k loads the cell's page and an image, and the lane's samples fan out to it. -/
def State.relieveStart (s : State) (op : Op) (image : Option (List Word)) : State :=
  let n := op.u16 8
  let g := s.eng n
  let r : Engine := { st := .loaded, carries := some n, image := image.getD g.image, bound := g.bound, pindex := g.pindex, busEst := g.busEst }
  let s := s.setEng (1024 + n / 16) (r.readyFor (s.cell n).active)
  let s := s.acceptOp op.tag
  s.modCell n fun c => { c with relief := .starting op.tag false 1 false }

/-- RELIEVE (R151 to R155): with an image it first waits for the staging buffer, and what forbids it is reported with what is wrong in the image (R356). -/
def execRelieve (o : Nat) (s : State) : Host.Outcome State Fault Refusal :=
  .next <| opRun s o 0x82 noBad noPre fun op s =>
    if op.accepted then s
    else match s.relieveStatus (op.u16 8) with
      | some st => if op.u64 0x10 = 0 || st = stBadDesc then s.complete op st else s.imageWait op
      | none => if op.u64 0x10 = 0 then s.relieveStart op none else s.imageWait op

/-- HANDBACK (R156): the sequence with the roles exchanged, into the cell engine with the image it holds. A cell that no relief engine carries is not ready for it. -/
def execHandback (o : Nat) (s : State) : Host.Outcome State Fault Refusal :=
  let own := fun (op : Op) (s : State) => if (s.cell (op.u16 8)).relief == .own then some stNotReady else none
  .next <| opRun s o 0x83 noBad own fun op s =>
    let n := op.u16 8
    if op.accepted then s
    else if s.enclosed n then s.complete op stIsolated
    else match (s.cell n).relief with
      | .relieved | .cold =>
        let s := s.acceptOp op.tag
        let s := s.modEng n fun g => { (g.readyFor (s.cell n).active) with st := .relieved, bound := (s.eng (1024 + n / 16)).bound }
        s.modCell n fun c => { c with relief := .starting op.tag true 1 false }
      | _ => s.complete op stBusy

/-- A relief sequence is given up: the cell stays with the engine that served it (R337, R350). -/
def State.reliefUndo (s : State) (op : Op) : State :=
  let n := op.u16 8
  match (s.cell n).relief with
  | .starting t back _ _ =>
    if t ≠ op.tag then s
    else if back then s.modCell n fun c => { c with relief := .relieved }
    else (s.setEng (1024 + n / 16) {}).modCell n fun c => { c with relief := .own }
  | _ => s

/-- RELIEF_TIMEOUT (R337): 10 ms after its acceptance a RELIEVE or HANDBACK has had no takeover boundary. -/
def execReliefTimeout (o : Nat) (s : State) : Host.Outcome State Fault Refusal :=
  .next <| match s.findOp o with
    | some op => if (op.code == 0x82 || op.code == 0x83) && op.accepted && !op.done && s.reached (op.since + 160000000) then ((s.reliefUndo op).imageLeave o).complete op stTimeout else s
    | none => s

/-! ## Loading (R333, R337, R526 to R528) -/

/-- A cell engine that takes no image now (R337). -/
def State.engineBusy (s : State) (n : Nat) : Bool := !((s.eng n).st == .off || (s.eng n).st == .loaded || (s.eng n).st == .relieved)

/-- PAT_LOAD (R526): the image waits for the staging buffer. -/
def execPatLoad (o : Nat) (s : State) : Host.Outcome State Fault Refusal :=
  .next <| opRun s o 0x30 noBad noPre fun op s => if op.accepted then s else s.imageWait op

/-- IMAGE_LOAD_ENGINE (R154, R337, R483): the image waits for the staging buffer; what the engine's state forbids is reported once the image has been checked (R356). -/
def execImageLoadEngine (o : Nat) (s : State) : Host.Outcome State Fault Refusal :=
  .next <| opRun s o 0x84 noBad noPre fun op s => if op.accepted || op.u8 8 ≠ 0 then s else s.imageWait op

/-- IMAGE_LOAD_FIRMWARE (R528): the image waits for the staging buffer. -/
def execImageLoadFirmware (o : Nat) (s : State) : Host.Outcome State Fault Refusal :=
  .next <| opRun s o 0x84 noBad noPre fun op s => if op.accepted || op.u8 8 ≠ 1 then s else s.imageWait op

/-- Write an image into pattern memory from its first word, between two instructions of every thread (R333). -/
def State.patInstall (s : State) (op : Op) (b : List Byte) : State :=
  let ws := imageWords b
  let s := { (s.commit op) with patMem := ws.zipIdx.foldl (fun m (w, i) => tabSet (fun _ => 0) m i w) s.patMem }
  s.imageEnd op stOk ws.length

/-- Install an image into a cell engine (R136, R337, R598). -/
def State.engineInstall (s : State) (op : Op) (b : List Byte) : State :=
  let n := op.u16 0xA
  let page := (s.cell n).active
  let s := (s.commit op).modEng n fun g => if cpProg page = 0xFF && page != [] then { (g.loadProgram page) with image := imageWords b } else { g with image := imageWords b }
  (s.refreshEng n).imageEnd op stOk

/-- The image KIND of an operation (R525, R527). -/
def imageKind (op : Op) : Nat := match op.code with | 0x30 => 3 | 0x82 => 2 | _ => if op.u8 8 = 1 then 1 else 2

/-- What forbids the target of an image operation (R151, R154, R337, R483): ISOLATED inside a quarantine, BUSY unless a cell engine is OFF, LOADED or RELIEVED. -/
def State.imageTarget (s : State) (op : Op) : Option Nat :=
  match op.code with
  | 0x82 => s.relieveStatus (op.u16 8)
  | 0x84 => if op.u8 8 = 1 then none else if s.enclosed (op.u16 0xA) then some stIsolated else if s.engineBusy (op.u16 0xA) then some stBusy else none
  | _ => none

/-- IMAGE_STAGED (R526, R527): the image of the operation that holds the staging buffer has been read; it is checked on that copy and installed from it. -/
def execImageStaged (o : Nat) (d : HostRead) (s : State) : Host.Outcome State Fault Refusal :=
  .next <| match s.findOp o with
    | none => s
    | some op =>
      if s.sec.staging.head? ≠ some o || s.sec.staged.isSome || op.done then s
      else match d with
        | .failed => s.imageEnd op stMediaError
        | .data b =>
          match firstStatus [s.imageStatus b (imageKind op), s.imageTarget op] with
          | some st => s.imageEnd op st
          | none =>
            match op.code with
            | 0x30 => s.patInstall op b
            | 0x82 => (s.imageLeave o).relieveStart op (some (imageWords b))
            | _ =>
              if op.u8 8 = 1 then
                ((s.modSec fun c => { c with staged := some (o, b) }).modNvm fun n => { n with waitHost := n.waitHost ++ [o] }).nvmServe
              else s.engineInstall op b

/-! ## Firmware banks (R528, R529) -/

/-- First page of a bank. -/
def bankBase (b : Bool) : Nat := if b then 0xC00 else 0x800

/-- GEN of a bank's record when it is valid (R528). -/
def State.bankGen (s : State) (b : Bool) : Option Nat :=
  let r := s.nvmBytes (256 * (bankBase b + 0x3FF)) 256
  if crcBytes (r.take 254) = leAt r 254 2 && r.take 256 != List.replicate 256 0 then some (leAt r 0 4) else none

end Sys2Proof.Machine
end

