-- ==== Sys2Proof/Machine/Abort.lean ====
section
/-! DEFINITION. ABORT and what it undoes (R348 to R350). The tag table of R348 is the order of the commands: an ABORT finds the commit points that commands before it have
recorded. -/

namespace Sys2Proof.Machine

/-- Threads leave FROZEN in the states they held (R306). -/
def State.thaw (s : State) : State :=
  (List.range 16).foldl (fun s t => if (s.thr t).st == .frozen then s.thrTo t (s.thr t).frozenFrom else s) s

/-- Undo what an operation has prepared before its commit point (R350). -/
def State.opUndo (s : State) (op : Op) : State :=
  let tag := op.tag
  match op.code with
  | 0x03 => if op.accepted then s.thaw else s
  | 0x10 | 0x11 | 0x12 | 0x13 | 0x14 | 0x15 =>
    let s := s.marksCancel fun w => match w with | .setpoint t => t == tag | _ => false
    let s := s.modRail (op.u8 8) fun r => { r with reqs := r.reqs.filter (· != tag) }
    s.modTwin fun t => { t with applyQ := t.applyQ.filter fun (e : DWord × Apply) => e.2 != Apply.op tag }
  | 0x20 => { s with plan := { s.plan with reqs := s.plan.reqs.filter fun g => !(g.tag == tag && g.thread.isNone) } }
  | 0x21 => { s with plan := { s.plan with releases := s.plan.releases.filter fun e => e.2 != some tag } }
  | 0x42 => if (s.bob (op.u8 8)).trigOp = some tag then s.modBob (op.u8 8) fun b => { b with trigOp := none, hits := b.hits.filter fun h => h.1 != 4 } else s
  | 0x53 =>
    if (s.lane (op.u16 8)).profOp = some tag then
      s.modLane (op.u16 8) fun l => { l with profOp := none, profBlock := op.bytes, dnq := l.dnq.filter fun d => match d with | .profileWrite .. => false | _ => true }
    else s
  | 0x30 | 0x84 => (s.imageLeave tag).modNvm fun n => { n with waitHost := n.waitHost.filter (· != tag) }
  | 0x61 | 0x62 => s.modNvm fun n => { n with waitHost := n.waitHost.filter (· != tag) }
  | 0x73 => s.modNvm fun n => if n.lcJob.any (fun e => e.1 == tag) then { n with lcJob := none } else n
  | 0x80 => s.modPwr fun p => { p with selv := p.selv.filter fun v => v.closed || v.op != tag }
  | 0x82 | 0x83 => (s.imageLeave tag).reliefUndo op
  | _ => s

/-- The request of a tag is in the pass that runs now. -/
def State.inPass (s : State) (tag : Nat) : Bool :=
  match s.plan.pass with
  | some p => p.requests.any fun g => g.tag == tag && g.thread.isNone
  | none => false

/-- ABORT of a request in its pass (R350): it is marked, and both operations end at the pass's end. -/
def State.abortInPass (s : State) (op : Op) (target : Nat) : State :=
  let s := s.modOp op.tag fun p => { p with accepted := true, committed := true }
  let s := s.modOp target fun p => { p with value := op.tag + 1 }
  match s.plan.pass with
  | some p => { s with plan := { s.plan with pass := some { p with requests := p.requests.map fun (g : Grant) => if g.tag = target ∧ g.thread.isNone then { g with aborted := true } else g } } }
  | none => s

/-- ABORT (R349): an ABORT or its own tag is BAD_DESC; a target that is not in flight or whose commit point is recorded is too late; else the target ends ABORTED first. -/
def execAbort (o : Nat) (s : State) : Host.Outcome State Fault Refusal :=
  let bad := fun (op : Op) (s : State) => op.u16 8 == op.tag || (s.findOp (op.u16 8)).any fun p => p.code == 0x01
  .next <| opRun s o 0x01 bad noPre fun op s =>
    if op.accepted then s
    else match s.findOp (op.u16 8) with
      | none => s.complete op stAbortTooLate
      | some p =>
        if p.done || p.committed || (s.inPass p.tag && p.value ≠ 0) then s.complete op stAbortTooLate
        else if s.inPass p.tag then s.abortInPass op p.tag
        else ((s.opUndo p).complete p stAborted).complete op stOk

end Sys2Proof.Machine
end

