-- ==== Sys2Proof/Machine/Isolate.lean ====
section
/-! DEFINITION. Quarantine and the selvedge (R338, R378, R483 to R488): accepting, closing and opening, and the supply of the two-wire island. Blocks by KIND: 0 the cell engine of a lane, 1
a drawer, 2 a bobbin, 3 the two-wire block. -/

namespace Sys2Proof.Machine

/-- An operation names a block (R333, R483): relief, hand-back and image loads an engine or its drawer, capture operations a bobbin. -/
def Op.names (op : Op) (kind index : Nat) : Bool :=
  let lane := match op.code with
    | 0x82 | 0x83 => some (op.u16 8)
    | 0x84 => if op.u8 8 = 0 then some (op.u16 0xA) else none
    | _ => none
  match kind with
  | 0 => lane == some index
  | 1 => lane.any fun n => n / 16 == index
  | 2 => match op.code with
    | 0x40 | 0x41 | 0x42 | 0x43 | 0x44 => op.u8 8 == index
    | 0x45 => bitOf (op.u8 9) index
    | 0x47 => op.u8 0xB % 8 == index
    | _ => false
  | _ => false

/-- Lanes of a block. -/
def blockLanes (kind index : Nat) : List Nat :=
  match kind with
  | 0 => [index]
  | 1 => (List.range 16).map (16 * index + ·)
  | _ => []

/-- The engine that serves lane n belongs to a block of KIND 0 or 1 and is in RUN. -/
def State.engRuns (s : State) (kind n : Nat) : Bool := (s.eng (s.serving n)).st == .run && (s.lane n).st == .run && (kind == 1 || s.serving n == n)

/-- The precondition of a QUARANTINE without FORCE (R338, R378, R485). -/
def State.quarantineOk (s : State) (kind index : Nat) : Bool :=
  match kind with
  | 0 => !s.engRuns 0 index
  | 1 => !((blockLanes 1 index).any fun n => (s.lane n).st == .run)
  | 2 => (s.bob index).objects.isEmpty
  | _ => true

/-- QUARANTINE (R483, R485): ISOLATED when the selvedge is closed already, BUSY without its precondition or while another closing waits, else it waits for its instant. -/
def execQuarantine (o : Nat) (s : State) : Host.Outcome State Fault Refusal :=
  .next <| opRun s o 0x80 noBad noPre fun op s =>
    let kind := op.u8 8
    let index := op.u16 0xA
    let force := op.u8 0xC == 1
    if op.accepted then s
    else if s.selvClosed kind index then s.complete op stIsolated
    else if (!force && !s.quarantineOk kind index) || (s.pwr.selv.any fun v => v.kind == kind && v.index == index) then s.complete op stBusy
    else
      (s.acceptOp op.tag).modPwr fun p => { p with selv := p.selv ++ [{ kind := kind, index := index, force := force, op := op.tag, closed := false }] }

/-- No operation on the block is past its commit point and still running (R483); a pending two-wire NVM write ends before the two-wire block closes (R485). -/
def State.selvReady (s : State) (kind index : Nat) : Bool :=
  !(s.ops.any fun p => p.names kind index && p.committed && !p.done)
    && (kind != 3 || !(s.nvm.job.any fun j => j.owner == .twowire))

/-- Silence a lane as LINK.LANE_CTL.EN = 0 does (R486). -/
def State.silence (s : State) (n : Nat) : State := (s.modLane n fun l => { l with silenced := true }).laneOff n

/-- A lane of a block that closes (R485, R486): with FORCE it is silenced when its engine runs; its engine's sequencer stops. -/
def State.closeLane (s : State) (kind n : Nat) (force : Bool) : State :=
  let s := if force && s.engRuns kind n then s.silence n else s
  if kind = 0 then s.modEng n fun g => { g with running := false }
  else (s.enginesOf n).foldl (fun s e => s.modEng e fun g => { g with running := false }) s

/-- A bobbin closes (R378, R485): it holds no object, or with FORCE its objects are discarded, each with its event; recording and draining stop. -/
def State.closeBobbin (s : State) (b : Nat) : State :=
  let s := (s.drainAbandon b).marksCancel fun w => match w with | .trigger c _ => c == b | _ => false
  let s := (s.bob b).objects.foldl (fun s o => (s.dropObject b o.seq.toNat).capEvent b 4 o.flags.toNat o.seq.toNat o.stTrig.toNat) s
  let x := s.bob b
  let s := s.setBob b { cfg := x.cfg, st := .isolated, bound := x.bound, seq := x.seq, missed := x.missed }
  s.drainAllAqs

/-- The effects of a closing (R485). -/
def State.closeBlock (s : State) (v : Selvedge) : State :=
  match v.kind with
  | 0 | 1 => (blockLanes v.kind v.index).foldl (fun s n => s.closeLane v.kind n v.force) s
  | 2 => s.closeBobbin v.index
  | _ => s

/-- The selvedge of an operation closes now (R483, R484): transfers into the block that wait end ISOLATED. -/
def State.selvClose (s : State) (op : Op) (v : Selvedge) : State :=
  let s := s.modPwr fun p => { p with selv := p.selv.map fun (x : Selvedge) => if x.op = op.tag ∧ !x.closed then { x with closed := true } else x }
  let s := (s.ops.filter fun p => p.names v.kind v.index && p.accepted && !p.done).foldl (fun s p => (s.opUndo p).complete p stIsolated) (s.commit op)
  (s.closeBlock v).complete op stOk

/-- SELVEDGE_CLOSE (R483). -/
def execSelvedgeClose (o : Nat) (s : State) : Host.Outcome State Fault Refusal :=
  .next <| match s.findOp o, s.pwr.selv.find? (fun v => v.op == o && !v.closed) with
    | some op, some v => if s.selvReady v.kind v.index && !op.done then s.selvClose op v else s
    | _, _ => s

/-- QUARANTINE_TIMEOUT (R483): 10 ms after its acceptance the selvedge has not closed, and nothing closes. -/
def execQuarantineTimeout (o : Nat) (s : State) : Host.Outcome State Fault Refusal :=
  .next <| match s.findOp o, s.pwr.selv.find? (fun v => v.op == o && !v.closed) with
    | some op, some _ =>
      if s.reached (op.since + 160000000) then (s.modPwr fun p => { p with selv := p.selv.filter fun v => v.closed || v.op != o }).complete op stTimeout else s
    | _, _ => s

/-- A lane of a block that opens (R487): the guard latch clears; an engine that the relief engine carries becomes LOADED; a silenced lane retrains, with registers and local data
cleared for a cold start. -/
def State.openLane (s : State) (n : Nat) : State :=
  let carried := s.serving n != n
  let s := s.modLane n fun l => { l with latched := false, intervN := 0, interv := false }
  let s := s.modEng n fun g => { g with st := if carried then .loaded else if g.st == .guardLatched then .off else g.st, running := false }
  let s := if carried then s else s.refreshEng n
  if (s.lane n).silenced && wbit (s.reg Reg.linkLaneCtl n) 0 then
    let s := (s.enginesOf n).foldl (fun s e => s.modEng e fun g => { g with regs := [], loc := [] }) s
    (s.modLane n fun l => { l with silenced := false }).laneTrain n
  else s

/-- The effects of an opening (R487). -/
def State.openBlock (s : State) (kind index : Nat) : State :=
  match kind with
  | 0 | 1 => (blockLanes kind index).foldl State.openLane s
  | 2 => s.modBob index fun x => { x with st := if x.cfg = [] then .unconfigured else .idle }
  | _ => s

/-- QUARANTINE_END (R487): the selvedge opens. One that is not closed cannot be opened in the state in force, and one that relief closed is ISOLATED for every operation but image load and HANDBACK
(R154). -/
def execQuarantineEnd (o : Nat) (s : State) : Host.Outcome State Fault Refusal :=
  let shut := fun (op : Op) (s : State) =>
    if s.selvClosed (op.u8 8) (op.u16 0xA) then none else if op.u8 8 = 0 ∧ s.engineAway (op.u16 0xA) = true then some stIsolated else some stNotReady
  .next <| opRun s o 0x81 noBad shut fun op s =>
    let kind := op.u8 8
    let index := op.u16 0xA
    if kind = 3 && s.pwr.islandOp.isSome then s.complete op stBusy
    else
      let s := (s.commit op).modPwr fun p => { p with selv := p.selv.filter fun v => !(v.kind == kind && v.index == index) }
      (s.openBlock kind index).complete op stOk

/-- TWOWIRE_CYCLE (R488): BUSY unless the two-wire block is inside its selvedge; the island's supply is removed. -/
def execTwowireCycle (o : Nat) (s : State) : Host.Outcome State Fault Refusal :=
  .next <| opRun s o 0x85 noBad noPre fun op s =>
    if op.accepted then s
    else if !s.selvClosed 3 0 || s.pwr.islandOp.isSome then s.complete op stBusy
    else ((s.acceptOp op.tag).commit op).modPwr fun p => { p with island := false, islandOp := some op.tag }

/-- TWOWIRE_ISLAND_UP (R488, R548): 10 ms after its supply was removed the island is up and reset, which clears HANG; the operation completes OK. -/
def execTwowireIslandUp (s : State) : Host.Outcome State Fault Refusal :=
  .next <| match s.pwr.islandOp with
    | none => s
    | some tag =>
      if !((s.findOp tag).all fun p => s.reached (p.since + 160000000)) then s
      else
      let s := (s.modPwr fun p => { p with island := true, islandOp := none }).modSec fun c => { c with hang := false, twPtr := 0, twLatch := 0 }
      s.completeTag tag stOk

end Sys2Proof.Machine
end

