-- ==== Sys2Proof/Machine/ThreadOps.lean ====
section
/-! DEFINITION. The host's operations on the pattern engine: starting and halting a thread (R286, R317, R318, R333), raising and clearing an event (R298, R302, R333). -/

namespace Sys2Proof.Machine

/-- PATTERN.THR_CFG of thread t. -/
def State.thrCfg (s : State) (t : Nat) : Word := s.reg Reg.patternThrCfg t

/-- The waits and marks of thread t are withdrawn, and its selected interrupt with them (R234, R288). -/
def State.thrQuiet (s : State) (t : Nat) : State :=
  let s := s.modThr t fun x => { x with waits := [], sel := none }
  s.marksCancel fun w => match w with | .thread u _ => u == t | _ => false

/-- THREAD_START (R302, R310, R317, R333): the thread starts at its entry with the registers of both banks, ISTAT, NPC, FPC and NRD at 0 and with THR_CFG in force, whatever state it was in. A notice ring in
a read-only region or an entry off a word boundary is BAD_DESC. -/
def execThreadStart (o : Nat) (s : State) : Host.Outcome State Fault Refusal :=
  let bad := fun (op : Op) (s : State) => op.u16 0xC % 4 != 0 || decide (ledgerRo ≤ 256 * fld (s.thrCfg (op.u8 8)) 17 8)
  .next <| opRun s o 0x31 bad noPre fun op s =>
    let t := op.u8 8
    let cfg := s.thrCfg t
    let s := (s.commit op).thrQuiet t
    let s := s.modThr t fun x =>
      { x with pc := op.u16 0xC, p := [], f := [], nie := false, fie := false, inNormal := false, inFast := false, npc := 0, fpc := 0, ievN := 0, ievF := 0, nrd := 0,
               vbase := 0x800 * fld cfg 31 27, gev := fld cfg 26 18, nbase := 0x100 * fld cfg 17 8 }
    (((s.thrTo t .run).noticeFlush t).select t).complete op stOk

/-- THREAD_HALT (R333): the thread is HALTED, its result its PC. -/
def execThreadHalt (o : Nat) (s : State) : Host.Outcome State Fault Refusal :=
  .next <| opRun s o 0x32 noBad noPre fun op s =>
    let t := op.u8 8
    let s := ((s.commit op).thrQuiet t).thrTo t .halted
    s.complete op stOk 0 ((s.thr t).pc % 2 ^ 16)

/-- PAT_EVENT_RAISE (R298, R299, R333): OP 0 raises the event. -/
def execPatEventRaise (o : Nat) (s : State) : Host.Outcome State Fault Refusal :=
  .next <| opRun s o 0x33 noBad noPre fun op s => if op.u8 0xA ≠ 0 then s else ((s.commit op).raiseEv (op.u16 8)).complete op stOk

/-- PAT_EVENT_CLEAR (R302, R333): OP 1 clears the event's pending bits in the named threads. -/
def execPatEventClear (o : Nat) (s : State) : Host.Outcome State Fault Refusal :=
  .next <| opRun s o 0x33 noBad noPre fun op s =>
    if op.u8 0xA ≠ 1 then s else ((s.commit op).clearPend (op.u16 8) (BitVec.ofNat 16 (op.u16 0xC))).complete op stOk

end Sys2Proof.Machine
end

