-- ==== Sys2Proof/Machine/Power.lean ====
section
/-! DEFINITION. Power states (R476 to R480): POWER to RUN, TRIM, PARK and SLEEP, what SLEEP keeps and loses, and the wake. -/

namespace Sys2Proof.Machine

/-! ## RUN, TRIM and PARK (R477, R478) -/

/-- RUN and TRIM, whose time the failed-start count waits for (R473). -/
def PwrState.runs (st : PwrState) : Bool := st == .run || st == .trim

/-- The device enters a power state; the time in RUN and TRIM counts from the first of them (R473). -/
def State.enterPwr (s : State) (st : PwrState) : State := s.modPwr fun p => { p with st := st, runAt := if st.runs && !p.st.runs then s.cycles else p.runAt }

/-- The power state takes effect on the throttle classes (R388, R442). -/
def State.pwrTo (s : State) (st : PwrState) : State := ((s.enterPwr st).bulkGate).traceGate

/-- Lanes READY or in RUN become PARKED (R97, R476). -/
def State.parkLanes (s : State) : State :=
  s.lanes.foldl (fun s (n, l) => if l.st == .ready || l.st == .run then s.laneTo n .parked else s) s

/-- PARKED lanes return to READY without retraining (R97), the others with EN = 1 that a join had put OFF train again. -/
def State.unparkLanes (s : State) : State :=
  s.lanes.foldl (fun s (n, l) =>
    if l.st == .parked then s.laneTo n .ready
    else if l.st == .off && !l.silenced && wbit (s.reg Reg.linkLaneCtl n) 0 then s.laneTrain n else s) s

/-- Enter PARK (R476, R478): lanes PARKED, twin state OFF, operations held for a bid TWIN_ROLE (R407), a PARK tack (R388). -/
def State.enterPark (s : State) : State :=
  let s := (s.tack 3).parkLanes
  let held := s.ops.filter fun o => o.held && !o.done
  let s := s.twinEnter .off
  let s := (s.modTwin fun t => { t with waiting := false, joinStep := 0, joinIn := none, applyQ := [] }).pwrTo .park
  held.foldl (fun s o => s.completeTag o.tag stTwinRole) s

/-- Leave PARK for RUN or TRIM (R477): an UNPARK tack, the lanes return, and the twin logic runs as at start (R415). -/
def State.leavePark (s : State) (st : PwrState) : State := (((s.tack 4).pwrTo st).unparkLanes).twinWait

/-- A rail is ARMED, in RUN or in ENV_TRIP on a device that leads or bids (R478). -/
def State.railsBusy (s : State) : Bool :=
  (s.roleActs || s.twin.st == .taking) && s.rails.any fun e => e.2.st == .armed || e.2.st == .run || e.2.st == .envTrip

/-- The device runs in RUN, TRIM or PARK, where POWER may change its state (R477). -/
def State.mayPower (s : State) : Bool := s.pwr.st == .run || s.pwr.st == .trim || s.pwr.st == .park

/-- POWER to RUN or TRIM (R477). -/
def State.powerUp (s : State) (op : Op) (st : PwrState) : State :=
  let s := s.commit op
  let s := if s.pwr.st = st then s else if s.pwr.st == .park then s.leavePark st else s.pwrTo st
  s.complete op stOk

/-- POWER names a state: run f when it names this one. -/
def powerRun (s : State) (tag st : Nat) (f : Op → State → State) : State :=
  let pre := fun (op : Op) (s : State) => if op.u8 8 = st ∧ !s.mayPower then some stNotReady else none
  opRun s tag 0x03 noBad pre fun op s => if op.u8 8 = st then f op s else s

/-- POWER_RUN (R477). -/
def execPowerRun (o : Nat) (s : State) : Host.Outcome State Fault Refusal := .next (powerRun s o 0 fun op s => s.powerUp op .run)

/-- POWER_TRIM (R442, R477): both throttle classes are enforced. -/
def execPowerTrim (o : Nat) (s : State) : Host.Outcome State Fault Refusal := .next (powerRun s o 1 fun op s => s.powerUp op .trim)

/-- POWER_PARK (R477, R478). -/
def execPowerPark (o : Nat) (s : State) : Host.Outcome State Fault Refusal :=
  .next <| powerRun s o 2 fun op s =>
    if s.pwr.st == .park then (s.commit op).complete op stOk
    else if s.railsBusy then s.complete op stBusy
    else ((s.commit op).enterPark).complete op stOk

/-! ## SLEEP (R479, R480) -/

/-- The blocks whose set-up registers SLEEP keeps: HOST (R360), TIME (R208, R224), PATTERN (R306), SUP, NVM and SEC on the supervisor die, and LINK.LANE_CTL
(R480; log entry 40). -/
def keptReg (key : Nat) : Bool :=
  let off := key / 2048
  off == Reg.linkLaneCtl || [1, 5, 7, 10, 11, 12].contains (off / 65536) || decide (0x100000 ≤ off)

/-- An engine after SLEEP: its loaded image, and the stock program of its page from the start. -/
def sleepEngine (s : State) (e : Nat) (g : Engine) : Option (Nat × Engine) :=
  let page := if e < 1024 then (s.cell e).active else []
  let x : Engine := { image := g.image }
  if page = [] then (if g.image = [] then none else some (e, x)) else some (e, x.newPage [] page)

/-- A rail after SLEEP: its pages and its state, OFF, STOPPED or STANDBY. -/
def sleepRail (r : Rail) : Rail :=
  let st : RailState := match r.st with | .off => .off | .standby => .standby | _ => .stopped
  { active := r.active, staged := r.staged, st := st }

/-- A cell after SLEEP: its pages. -/
def sleepCell (c : Cell) : Cell := { active := c.active, staged := c.staged }

/-- The HOST block in SLEEP (R360, R479): all but READY. -/
def sleepHost (h : HostIf) : HostIf := { h with ready := false }

/-- What SLEEP keeps (R208, R306, R360, R389, R480); everything else is lost. -/
def State.retain (s : State) : State :=
  { pending := s.pending, out := s.out, free := s.free, cycles := s.cycles, grade := s.grade,
    regs := s.regs.filter fun (e : Nat × Word) => keptReg e.1,
    lanes := s.lanes.filterMap fun (e : Nat × Lane) => if e.2.silenced then some (e.1, { silenced := true }) else none,
    cells := (s.cells.map fun (e : Nat × Cell) => (e.1, sleepCell e.2)).filter fun (e : Nat × Cell) => e.2 != {},
    engines := s.engines.filterMap fun (e : Nat × Engine) => sleepEngine s e.1 e.2,
    guardSram := s.guardSram, guardOtp := s.guardOtp, guardUe := s.guardUe,
    ledger := s.ledger.filter fun (e : Nat × Byte) => decide (e.1 < 0x3C000),
    patMem := s.patMem,
    rails := (s.rails.map fun (e : Nat × Rail) => (e.1, sleepRail e.2)).filter fun (e : Nat × Rail) => e.2 != {},
    time := s.time, encs := s.encs, cycs := s.cycs, marks := s.marks,
    plan := { slotNow := s.plan.slotNow, slotStart := s.plan.slotStart, slotLen := s.plan.slotLen, cfgLive := s.plan.cfgLive, reqs := s.plan.reqs, grants := s.plan.grants,
              level := s.plan.level, running := s.plan.running },
    threads := s.threads, evPend := s.evPend, deadlock := s.deadlock, foreign := s.foreign, broken := s.broken,
    rings := s.rings, ops := s.ops, cqWait := s.cqWait, eqHeld := s.eqHeld, eqLossy := s.eqLossy, host := sleepHost s.host, extents := s.extents,
    cap := { held := s.cap.held, traceCtl := s.cap.traceCtl, tackSeq := s.cap.tackSeq, lastAt := s.cap.lastAt, tackAt := s.cap.tackAt },
    twin := { term := s.twin.term, termAt := s.twin.termAt, aliveIn := s.twin.aliveIn, aliveOut := s.twin.aliveOut, reqIn := s.twin.reqIn },
    wcs := s.wcs, sup := s.sup, pwr := s.pwr, nvm := s.nvm, sec := { s.sec with rngReady := false, dbg := {}, fwWrites := [] } }

/-- A bobbin of the trace unit, TRACE.CTL BOBBIN. -/
def State.traceBob (s : State) : Nat := byteAt s.cap.traceCtl 3 % 8

/-- SLEEP has to wait (R339, R389, R478): another tag is in flight, an object has not drained, the trace has no archive queue, or rails are busy. -/
def State.sleepBusy (s : State) (tag : Nat) : Bool :=
  s.railsBusy || s.inFlight.any (· != tag) || s.bobs.any (fun e => e.2.objects != []) || (s.traceEn && (s.bob s.traceBob).bound.isNone)

/-- The state of a thread apart from a halt by the debug chain, which the sleep ends (R538). -/
def State.thrRealSt (s : State) (t : Nat) : ThrState :=
  let x := s.thr t
  match s.sec.dbg.threads.find? fun (e : Nat × ThrState) => e.1 == t with
  | some e => if x.st == .halted then e.2 else x.st
  | none => x.st

/-- Every thread drains its store buffer and enters FROZEN (R306). -/
def State.freeze (s : State) : State :=
  (List.range 16).foldl (fun s t =>
    let s := s.drainAll t
    (s.modThr t fun x => { x with frozenFrom := s.thrRealSt t }).thrTo t .frozen) s

/-- Drain what AQ a can drain now. -/
def drainNow : Nat → Nat → State → State
  | 0, _, s => s
  | n + 1, a, s =>
    match s.draining a with
    | none => s
    | some (b, q) =>
      let left := match s.objOf b q with | some o => s.unitsLeft b o | none => 0
      match s.aqExtents a with
      | e :: _ => drainNow n a (if left ≤ e.len - e.used then s.drainEnd a else s.extentDone a .ok)
      | [] => s

/-- The trace closes (R389): a SLEEP tack, and its chunk is committed and drained. -/
def State.traceClose (s : State) : State :=
  if !s.traceEn then s
  else
    let s := s.tack 5
    let b := s.traceBob
    if (s.bob b).cur = [] then s else s.commitChunk b

/-- Drain what the trace still has in its bobbin. -/
def State.traceDrain (s : State) : State :=
  match (s.bob s.traceBob).bound with
  | some a => drainNow ((s.aqExtents a).length + (s.bob s.traceBob).objects.length + 1) a s
  | none => s

/-- SUP.WAKE_ST (R480). -/
def State.wakeSt (s : State) : DWord := BitVec.ofNat 64 ((s.reg Reg.supWakeStHi).toNat * 2 ^ 32 + (s.reg Reg.supWakeStLo).toNat)

/-- The supplies of the sleeping device go down to VRET (R479), and an ST alarm that has already passed wakes it at once (SUP.WAKE_ST_HI). -/
def State.sleepNow (s : State) : State :=
  let s := (s.retain.modPwr fun p => { p with st := .sleep, wakeCause := 0, wakeUp := false }).fallTo 6
  if wbit (s.reg Reg.supWakeCfg) 0 && s.pwr.stAlarm && s.reached s.wakeSt then s.wake 5 else s

/-- SLEEP is entered when nothing undrained is left and the completion can be written and signalled at once (R479); until then the operation stays accepted. -/
def State.sleepTry (s : State) (op : Op) : State :=
  let s := s.traceDrain
  let q := 64 + s.cqOf op.sq
  if s.bobs.any (fun e => e.2.objects != []) || !(s.ring q).live || s.ringFree q = 0 then s
  else
    let s := (s.commit op).complete op stOk
    let s := if (s.ring q).unsig = 0 then s else s.msixSend q
    s.sleepNow

/-- POWER_SLEEP (R339, R389, R477 to R479): from PARK only. -/
def execPowerSleep (o : Nat) (s : State) : Host.Outcome State Fault Refusal :=
  let pre := fun (op : Op) (s : State) => if op.u8 8 = 3 ∧ s.pwr.st != .park then some stNotReady else none
  .next <| opRun s o 0x03 noBad pre fun op s =>
    if op.u8 8 ≠ 3 then s
    else if op.accepted then s.sleepTry op
    else if s.sleepBusy op.tag then s.complete op stBusy
    else
      let op := { op with accepted := true }
      ((s.putOp op).freeze.traceClose).sleepTry op

/-! ## The wake (R480) -/

/-- Every lane with EN = 1 trains (R480, R469). -/
def State.trainLanes (s : State) : State :=
  (List.range 1024).foldl (fun s n => if s.laneOk n && wbit (s.reg Reg.linkLaneCtl n) 0 && !(s.lane n).silenced then s.laneTrain n else s) s

/-- The dies are released when the supplies of a wake are complete: training starts (R480). -/
def State.wakeDies (s : State) : State :=
  if s.pwr.st == .sleep && s.pwr.wakeUp && s.sup.seq = 2 && s.lanes.all (fun e => e.2.st == .off) then s.trainLanes else s

/-- A lane is in bring-up. -/
def LaneState.training : LaneState → Bool
  | .locking | .measuring | .aligning | .configuring => true
  | _ => false

/-- Every sealed value is applied afresh (R570): GLOBAL.SEAL_STAT counts both parts. -/
def State.applyAll (s : State) : State :=
  let s := s.modPwr fun p => { p with appliedRows := 0, badRows := 0 }
  let s := (s.applySealed true).applySealed false
  s.modPwr fun p => { p with applied := decide (3 ≤ s.lcWords.1) }

/-- Slots that began during SLEEP are counted, so that the numbering stays in step with ST (R240, R480; log entry 40). -/
def State.slotCatch (s : State) : State :=
  let len := max 1 (s.unitsUnder s.plan.cfgLive)
  let k := (s.time.st - s.plan.slotStart).toNat / len
  { s with plan := { s.plan with slotNow := s.plan.slotNow + wordN k, slotStart := s.plan.slotStart + BitVec.ofNat 64 (k * len), lockPhase := none } }

/-- The time base restarts on the wake (R224): quadrature sources are RELATIVE, or VALID at 0, SSI sources in FAULT, with their armed marks FAULTED (R234); a bound cycle source is INVALID
until its line is measured again, its armed marks FAULTED too. -/
def State.wakeAngles (s : State) : State :=
  let s := (List.range 16).foldl (fun s k => s.encStart k) s
  ((List.range 4).foldl (fun s k => if (s.cyc k).st == .unbound then s else s.cycTo k { s.cyc k with st := .invalid, lowAt := none }) s).cycBind

/-- WAKE_COMPLETE (R224, R306, R389, R480, R570): sealed values are in place, the firmware serves the rings again, threads resume, and the device is in PARK. -/
def execWakeComplete (s : State) : Host.Outcome State Fault Refusal :=
  .next <|
    if s.pwr.st != .sleep || !s.pwr.wakeUp || s.sup.seq ≠ 2 || s.lanes.any (fun e => e.2.st.training) then s
    else
      let s := s.wakeDies
      if s.lanes.any (fun e => e.2.st.training) then s
      else
        let s := (s.modPwr fun p => { p with st := .park, wakeUp := false }).applyAll
        let s := (s.modHost fun h => { h with ready := true }).slotCatch
        let s := s.parkLanes.wakeAngles
        (s.tack 6).thaw.selectAll

end Sys2Proof.Machine
end

