-- ==== Sys2Proof/Machine/Supervisor.lean ====
section
/-! DEFINITION. The supervisor's supplies and monitors (R418 to R443): sequencing, window comparators, the brace, housekeeping and temperatures, throttling. -/

namespace Sys2Proof.Machine

/-- Change the supervisor. -/
def State.modSup (s : State) (f : Sup → Sup) : State := { s with sup := f s.sup }

/-- A SUPERVISOR event (R459); none goes out in a reset, in OFF or in BASTING, where no firmware runs. -/
def State.supEvent (s : State) (sub : Nat) (body : List Byte) : State :=
  match s.pwr.st with
  | .reset | .off | .basting => s
  | _ => s.event 0x11 sub body

/-! ## Sequencing (R420 to R423) -/

/-- RAIL_POWER_GOOD (R420): the rail being raised has PG high and its comparator IN. -/
def execRailPowerGood (s : State) : Host.Outcome State Fault Refusal :=
  let u := s.sup
  .next (if u.seq = 1 && !u.seqGood && (s.wc (u.seqRail - 1)).rd == .inside then s.modSup fun u => { u with seqGood := true, seqAt := s.cycles } else s)

/-- STEP_DELAY_EXPIRY (R420, R462): STEP_DELAY after the rail is good, the next one is enabled, or the sequence is complete. -/
def execStepDelayExpiry (s : State) : Host.Outcome State Fault Refusal :=
  .next (if s.sup.seq = 1 && s.sup.seqGood && s.passed s.sup.seqAt (1000 * fld (s.reg Reg.supSeqCfg) 7 0) then s.riseNext.wakeDies else s)

/-- SEQUENCE_FAULT (R422, R471): the rail being raised has missed PG_TIMEOUT; a log record, and what was brought up goes down again. -/
def execSequenceFault (s : State) : Host.Outcome State Fault Refusal :=
  let k := s.sup.seqRail
  .next <|
    if s.sup.seq ≠ 1 ∨ s.sup.seqGood ∨ s.passed s.sup.seqAt (msCycles * max 1 (fld (s.reg Reg.supSeqCfg) 15 8)) = false then s
    else
      let s := (s.modSup fun u => { u with firstFail := k }).supLog 2 k 0
      (s.modPwr fun p => { p with retry := true, stage := 1, seqFails := min 3 (p.seqFails + 1) }).fallTo (if s.pwr.st == .sleep then 6 else 1)

/-- RAIL_DOWN (R421): the rail being lowered reads BELOW, or 10 ms have passed. -/
def execRailDown (s : State) : Host.Outcome State Fault Refusal := 
  .next (if s.sup.seq = 3 && s.sup.seqRail ≠ 1 && ((s.wc (s.sup.seqRail - 1)).rd == .below || s.passed s.sup.seqAt (10 * msCycles)) then s.fallNext else s)

/-- The failed-start count that a start would find now (R471, R473). -/
def State.startFails (s : State) : Nat :=
  let (n, ok) :=
    if s.pwr.raised.contains .por then
      match s.newestRec 1 with
      | some b => (byteAt b 0, byteAt b 2 != 0)
      | none => (0, true)
    else (s.pwr.fails, s.pwr.prevReady)
  min 3 (n + b2n (!ok) + s.pwr.seqFails)

/-- The rail up to which a start brings the supplies (R419, R474). -/
def State.startTop (s : State) : Nat := if 3 ≤ s.startFails then 7 else 12

/-- SEQUENCE_FAULT_RETRY (R471): 1 s after the rails are down the next attempt begins. -/
def execSequenceFaultRetry (s : State) : Host.Outcome State Fault Refusal :=
  .next (if s.pwr.retry && s.sup.seq = 4 && s.passed s.sup.seqAt (1000 * msCycles) then (s.modPwr fun p => { p with retry := false }).riseTo (if s.pwr.st == .sleep then 12 else s.startTop) else s)

/-- BOR_HOLD_DOWN_EXPIRY (R462, R466): after 10 ms the supplies come up again, unless the episode leads into OFF. -/
def execBorHoldDownExpiry (s : State) : Host.Outcome State Fault Refusal :=
  .next <|
    if !s.pwr.borDown || s.sup.seq ≠ 3 || s.sup.seqRail ≠ 1 || !s.passed s.sup.seqAt (10 * msCycles) then s
    else
      let s := s.modPwr fun p => { p with borDown := false }
      if s.pwr.offNext then
        let s := s.modSup fun u => { u with seq := 0 }
        if s.sup.vinOk then s.releaseSrc .bor else s
      else s.riseTo s.startTop

/-! ## Window comparators (R431 to R433) -/

/-- WC_STAT.STATE of a reading. -/
def wcCode : WcRead → Nat
  | .inside => 0 | .below => 1 | .above => 2

/-- Rail k is supervised (R423): on, and not being raised or lowered. VSUP, whose window raises POR (R462), is not. -/
def State.supervised (s : State) (k : Nat) : Bool :=
  decide (2 ≤ k ∧ k ≤ 12) && s.sup.en.getLsbD (k - 1) && (s.sup.seq = 2 || (s.sup.seq = 1 && s.sup.seqRail ≠ k))

/-- COMPARATOR_CHANGE (R423, R424, R432): a new reading after the filter time; a comparator under test holds its reading (R433). -/
def execComparatorChange (i : Fin 16) (r : WcRead) (s : State) : Host.Outcome State Fault Refusal :=
  let w := s.wc i
  .next <|
    if w.rd = r || w.stres = 3 then s
    else
      let watched := s.supervised (i + 1)
      let s := s.setWc i { w with rd := r, capt := s.time.st.setWidth 32 }
      let cfg := s.reg Reg.supWcCfg i
      let s := if wbit cfg 0 then s.wake 2 else s
      let s := if wbit cfg 1 then s.supEvent 3 [BitVec.ofNat 8 i.val, BitVec.ofNat 8 (wcCode r), BitVec.ofNat 8 (wcCode w.rd)] else s
      if watched && r != .inside then ((s.modSup fun u => { u with firstFail := i + 1 }).supLog 1 (i + 1) 0).raiseBor else s

/-- The comparator that a path has selected (R567). -/
def State.wcSel (s : State) (p : Path) : Nat :=
  match p with
  | .bar0 => fld (s.reg Reg.supWcSel) 3 0
  | .twowire => s.sec.twWc.toNat
  | .firmware => s.sec.fwWc.toNat

/-- A write of SUP.WC_CFG on a path (R431, R433): HI and LO of WC0 to WC11 are sealed with the part; TEST 1 to 3 starts a self-test unless another comparator is under
test. -/
def State.wcCfgWrite (s : State) (p : Path) (v : Word) : State :=
  let i := s.wcSel p
  let mask : Word := if i < 12 && s.isSealed then 0x000000E3 else 0xFFFFFFE3
  let s := s.setReg Reg.supWcCfg i (mergeBits mask (s.reg Reg.supWcCfg i) v)
  let t := fld v 4 2
  if t = 0 || 3 < t then s
  else if s.wcs.any (fun e => e.1 != i && e.2.stres == 3) then s.setWc i { s.wc i with stbusy := true }
  else s.setWc i { s.wc i with stres := 3, test := t, testAt := s.cycles }

/-- WC_SELFTEST (R433). -/
def execWcSelftest (p : Path) (v : Word) (s : State) : Host.Outcome State Fault Refusal := .next (if s.pathUp p then s.wcCfgWrite p v else s)

/-- SELFTEST_DONE (R433): after the 10 us of the test, STRES and a SELFTEST event. -/
def execSelftestDone (pass : Bool) (s : State) : Host.Outcome State Fault Refusal :=
  .next <| match s.wcs.find? fun e => e.2.stres == 3 with
    | none => s
    | some (i, w) =>
      if !s.passed w.testAt (10 * usCycles) then s
      else (s.setWc i { w with stres := if pass then 1 else 2, test := 0 }).supEvent 4 [BitVec.ofNat 8 i, BitVec.ofNat 8 (b2n (!pass)), BitVec.ofNat 8 w.test]

/-! ## VIN and the brace (R425 to R427) -/

/-- VINS was seen at a value: the lowest since the last read and since the last record. -/
def State.vinSeen (s : State) (mv : Nat) : State :=
  s.modSup fun u => { u with vin := mv, vinMin := some (min mv (u.vinMin.getD mv)), vinMinRec := some (min mv (u.vinMinRec.getD mv)) }

/-- BRACE_START (R426): VINS has been below VIN_WARN for 2 us; within a brace, its 100 us start anew. Without both thresholds there is no brace. -/
def execBraceStart (mv : BitVec 12) (s : State) : Host.Outcome State Fault Refusal :=
  let cfg := s.reg Reg.supVinCfg
  .next <|
    if fld cfg 27 16 = 0 || fld cfg 11 0 ≤ mv.toNat then s
    else if s.sup.brace then (s.vinSeen mv.toNat).modSup fun u => { u with vinOk := false }
    else
      let s := s.vinSeen mv.toNat
      let s := s.modSup fun u => { u with brace := true, braceAt := s.cycles, vinOk := false, snap := BitVec.ofNat 12 s.inWin }
      s.supEvent 1 (toLe 2 mv.toNat)

/-- BRACE_END (R426): VINS has stayed at or above VIN_WARN for 100 us, of which VINS_ABOVE_VIN_WARN came after 2 (R425): a BRACE_END event, a DIP record unless VIN_RESET came in the same dip (R427), and the NVM resumes. -/
def execBraceEnd (s : State) : Host.Outcome State Fault Refusal :=
  .next <|
    if !s.sup.brace || !s.sup.vinOk || !s.passed s.sup.vinOkAt (98 * usCycles) then s
    else
      let us := (s.cycles - s.sup.braceAt) / usCycles
      let dip := !s.sup.dipOff
      let low := s.sup.vinMinRec.getD 0
      let s := s.modSup fun u => { u with brace := false, dipOff := false }
      let s := s.supEvent 2 (toLe 4 us ++ toLe 2 low)
      if dip then s.supLog 4 0 us else s.nvmServe

/-- VIN_RESET (R427): a running NVM program is abandoned, the event is logged, and BOR is raised. -/
def execVinReset (mv : BitVec 12) (s : State) : Host.Outcome State Fault Refusal :=
  let cfg := s.reg Reg.supVinCfg
  .next <|
    if fld cfg 27 16 ≤ mv.toNat then s
    else
      let s := (s.nvmAbandon.vinSeen mv.toNat).modSup fun u => { u with vinOk := false, dipOff := true }
      (s.supLog 3 0 0).raiseBor

/-- VINS_ABOVE_VIN_WARN (R425, R462): a BOR whose supply sequence is complete releases. -/
def execVinsAboveVinWarn (s : State) : Host.Outcome State Fault Refusal :=
  let s := s.modSup fun u => { u with vinOk := true, vinOkAt := if u.vinOk then u.vinOkAt else s.cycles, dipOff := u.dipOff && u.brace }
  .next (if s.sup.seq = 2 || (s.pwr.offNext && s.sup.seq = 0) then s.releaseSrc .bor else s)

/-! ## Housekeeping (R434 to R437) -/

/-- MODE of the housekeeping ADC: 0 off, 1 CONTINUOUS, 2 MARK, 3 BOUNDARY. -/
def State.hkMode (s : State) : Nat := fld (s.reg Reg.supHkCtl) 31 30

/-- ROUND, in cycles (R436, R437). -/
def State.hkPeriod (s : State) : Nat := let w := fld (s.reg Reg.supHkCtl) 15 0; usCycles * (if w = 0 then 1000 else w)

/-- A round starts now. -/
def State.hkStart (s : State) : State := s.modSup fun u => { u with hkBusy := true, hkLate := false, hkAt := s.cycles }

/-- HK_ROUND_START (R436, R437): in CONTINUOUS no sooner than ROUND after the previous start, else DELAY after the oldest trigger; a trigger in a temperature block starts its round when that ends, one in a
triggered round is dropped and counted. -/
def execHkRoundStart (s : State) : Host.Outcome State Fault Refusal :=
  .next <| match s.hkMode, s.sup.hkDue with
    | 0, _ => s
    | 1, _ => if s.sup.hkBusy || s.sup.hkTempDue || !s.passed s.sup.hkAt s.hkPeriod then s else s.hkStart
    | _, [] => s
    | _, t :: rest =>
      if !s.passed t 0 then s
      else
        let s := s.modSup fun u => { u with hkDue := rest }
        if s.sup.hkBusy then s.modSup fun u => { u with hkOverrun := satInc 0xFFFF u.hkOverrun }
        else if s.sup.hkTempDue then s.modSup fun u => { u with hkLate := true }
        else s.hkStart

/-- How long a round takes (R434, R435): the sampling time and 0.75 us for each entry of the sequence whose channel is not reserved, in cycles. -/
def State.hkLen (s : State) : Nat :=
  sumN ((List.range (fld (s.reg Reg.supHkCtl) 27 24 + 1)).map fun n =>
    let w := s.reg (Reg.supHkSeq + 4 * n)
    if 0x22 < fld w 13 8 then 0 else 25 * 2 ^ min 8 (fld w 3 0) + 75)

/-- HK_ROUND_END (R434, R435): each entry's result; a reserved channel is skipped. In CONTINUOUS a temperature block follows. -/
def execHkRoundEnd (codes : List (BitVec 12)) (s : State) : Host.Outcome State Fault Refusal :=
  .next <|
    if !s.sup.hkBusy || !s.passed s.sup.hkAt s.hkLen then s
    else
      let round := s.sup.hkRound + 1
      let top := fld (s.reg Reg.supHkCtl) 27 24
      let old := fun (n : Nat) => tabGet (fun _ => (0 : Word)) s.sup.hkRes n &&& 0x7FFFFFFF
      let res := fun (n : Nat) =>
        if top < n then old n
        else if 0x22 < fld (s.reg (Reg.supHkSeq + 4 * n)) 13 8 || codes.length ≤ n then old n
        else (wordN (2 ^ 31 + 2 ^ 30 * b2n s.sup.hkLate + 65536 * round.toNat + (codes.getD n 0).toNat))
      let t := (List.range 16).foldl (fun t n => tabSet (fun _ => (0 : Word)) t n (res n)) s.sup.hkRes
      s.modSup fun u => { u with hkBusy := false, hkLate := false, hkRound := round, hkRes := t, hkTempDue := u.hkTempDue || s.hkMode == 1 }

/-! ## Temperatures and throttling (R439 to R443) -/

/-- The temperature of channel k, 1/16 C, when it is valid. -/
def State.temp (s : State) (k : Nat) : Option Int :=
  let w := tabGet (fun _ => (0 : Word)) s.sup.temps k
  if wbit w 31 then some (asSigned 16 (w.toNat % 65536)) else none

/-- TS channel k is enabled (SUP.TS_CFGk.KIND). -/
def State.tsOn (s : State) (k : Nat) : Bool :=
  let kind := fld (s.reg (Reg.supTsCfg + 4 * k)) 31 30
  kind == 1 || kind == 2

/-- The readings that govern a class, each with its REQ and REQ - HYST in 1/16 C. -/
def State.governs (s : State) (c : ThrClass) : List (Int × Int × Int) :=
  match c with
  | .bulk => (List.range 4).filterMap fun k =>
      let w := s.reg (Reg.supTsCfg + 4 * k)
      if s.tsOn k then (s.temp k).map fun t => (t, 16 * (fld w 23 16 : Int), 16 * ((fld w 23 16 : Int) - (fld w 15 8 : Int))) else none
  | .analytics =>
      let w := s.reg Reg.supThrCfg
      ((s.temp 4).map fun t => (t, 16 * (fld w 31 24 : Int), 16 * ((fld w 31 24 : Int) - (fld w 23 16 : Int)))).toList

/-- The state of a class. -/
def State.thrt (s : State) (c : ThrClass) : ThrtState := match c with | .bulk => s.sup.bulk | .analytics => s.sup.ana

/-- A class changes state: a THROTTLE event with the highest governing temperature, hardware source 20 (R441, R460), and its effects (R388). -/
def State.thrtTo (s : State) (c : ThrClass) (st : ThrtState) : State :=
  let k := match c with | .bulk => 0 | .analytics => 1
  let code := match st with | .requested => 0 | .enforced => 1 | .normal => 2
  let t := (s.governs c).foldl (fun (a : Option Int) e => some (match a with | some b => max b e.1 | none => e.1)) none
  let s := s.modSup fun u => match c with | .bulk => { u with bulk := st, bulkAt := s.cycles } | .analytics => { u with ana := st, anaAt := s.cycles }
  let s := s.supEvent 5 ([BitVec.ofNat 8 k, BitVec.ofNat 8 code] ++ toLe 2 (toTwos 16 (t.getD 0)))
  ((s.source 20 (k + 256 * code)).bulkGate).traceGate

/-- Evaluate a class at a temperature block (R440, R441). -/
def State.throttle (s : State) (c : ThrClass) : State :=
  let g := s.governs c
  if g.any fun e => decide (e.2.1 ≤ e.1) then (if s.thrt c == .normal then s.thrtTo c .requested else s)
  else if s.thrt c != .normal && g.all (fun e => decide (e.1 < e.2.2)) then s.thrtTo c .normal
  else s

/-- A temperature block is due (R437): in CONTINUOUS at the end of each round, in MARK and BOUNDARY every ROUND. -/
def State.tempDue (s : State) : Bool :=
  match s.hkMode with
  | 0 => false
  | 1 => s.sup.hkTempDue
  | _ => s.sup.hkTempDue || s.passed s.sup.tempAt s.hkPeriod

/-- TEMP_BLOCK (R437, R439 to R441): readings and throttling; in a round it waits for the round's end, and a round that was triggered meanwhile starts after it. -/
def execTempBlock (temps : List (Option (BitVec 16))) (s : State) : Host.Outcome State Fault Refusal :=
  .next <|
    if !s.tempDue then s
    else if s.sup.hkBusy then s.modSup fun u => { u with hkTempDue := true }
    else
      let val := fun (k : Nat) => match temps.getD k none with
        | some t => if k = 4 || s.tsOn k then wordN (2 ^ 31 + t.toNat) else 0
        | none => 0
      let t := (List.range 5).foldl (fun t k => tabSet (fun _ => (0 : Word)) t k (val k)) s.sup.temps
      let s := s.modSup fun u => { u with temps := t, hkTempDue := false, tempAt := s.cycles, hkBusy := u.hkLate, hkAt := if u.hkLate then s.cycles else u.hkAt }
      let hot := sumN ((List.range 4).map fun k => 2 ^ k * b2n (s.tsOn k && (s.temp k).any fun t => decide (16 * (fld (s.reg (Reg.supTsCfg + 4 * k)) 23 16 : Int) ≤ t)))
      let s := s.modSup fun u => { u with hot := BitVec.ofNat 4 hot }
      (s.throttle .bulk).throttle .analytics

/-- When a class last changed state. -/
def State.thrtAt (s : State) (c : ThrClass) : Nat := match c with | .bulk => s.sup.bulkAt | .analytics => s.sup.anaAt

/-- THROTTLE_ENFORCE (R441): the grace time of a requested class ends. -/
def execThrottleEnforce (c : ThrClass) (s : State) : Host.Outcome State Fault Refusal :=
  .next (if s.thrt c == .requested && s.passed (s.thrtAt c) (msCycles * max 1 (fld (s.reg Reg.supThrCfg) 15 0)) then s.thrtTo c .enforced else s)

/-- THERM_TRIP (R443): the THERM reset source and a log record. -/
def execThermTrip (s : State) : Host.Outcome State Fault Refusal :=
  .next (if s.pwr.st == .off || s.pwr.held.contains .therm then s else (s.supLog 5 0 0).raiseRst .therm)

/-- THERM_CLEAR (R443). -/
def execThermClear (s : State) : Host.Outcome State Fault Refusal := .next (s.releaseSrc .therm)

end Sys2Proof.Machine
end

