-- ==== Sys2Proof/Machine/Clock.lean ====
section
/-! DEFINITION. The real-time clock (R444 to R447), the watchdog (R449 to R453), the push-button, manual reset and forcing the device off (R454 to R458, R490). -/

namespace Sys2Proof.Machine

/-! ## RTC -/

/-- Number that two BCD digits spell. -/
def bcdVal (b : Byte) : Nat := 10 * (b.toNat / 16) + b.toNat % 16
/-- BCD digits of a number below 100. -/
def bcdOf (n : Nat) : Byte := BitVec.ofNat 8 (16 * (n / 10) + n % 10)

/-- Byte i of the RTC's counters: SEC, MIN, HOUR, DAY, MONTH, YEAR. -/
def State.rtc (s : State) (i : Nat) : Byte := tabGet (fun _ => (0 : Byte)) s.sup.rtc i

/-- Put byte i of the counters. -/
def State.setRtc (s : State) (i : Nat) (v : Byte) : State := s.modSup fun u => { u with rtc := tabSet (fun _ => (0 : Byte)) u.rtc i v }

/-- A month's length by its number and the year (R446). -/
def monthLen (month year : Nat) : Nat :=
  match month with
  | 4 | 6 | 9 | 11 => 30
  | 2 => if year % 4 = 0 then 29 else 28
  | _ => 31

/-- The calendar one second later (R446), from SEC, MIN, HOUR, DAY, MONTH and YEAR as numbers. -/
def nextSecond (t : Nat × Nat × Nat × Nat × Nat × Nat) : Nat × Nat × Nat × Nat × Nat × Nat :=
  let (sec, min, hour, day, month, year) := t
  if sec + 1 < 60 then (sec + 1, min, hour, day, month, year)
  else if min + 1 < 60 then (0, min + 1, hour, day, month, year)
  else if hour + 1 < 24 then (0, 0, hour + 1, day, month, year)
  else if day + 1 ≤ monthLen month year then (0, 0, 0, day + 1, month, year)
  else if month + 1 ≤ 12 then (0, 0, 0, 1, month + 1, year)
  else (0, 0, 0, 1, 1, (year + 1) % 100)

/-- RTC_SECOND (R444, R446): a second of the crystal after the last one, or after the write of SEC that cleared the sub-second divider; the crystal may run 1,000 ppm fast (log entry 54). -/
def execRtcSecond (s : State) : Host.Outcome State Fault Refusal :=
  if !s.passed s.sup.rtcAt (999 * msCycles) then .next s
  else
  let s := s.modSup fun u => { u with rtcAt := s.cycles }
  let v := fun i => bcdVal (s.rtc i)
  let (sec, min, hour, day, month, year) := nextSecond (v 0, v 1, v 2, v 3, v 4, v 5)
  .next ((((((s.setRtc 0 (bcdOf sec)).setRtc 1 (bcdOf min)).setRtc 2 (bcdOf hour)).setRtc 3 (bcdOf day)).setRtc 4 (bcdOf month)).setRtc 5 (bcdOf year))

/-- A calendar write is accepted (R444): BCD digits, in the register's range. -/
def rtcOk (i : Nat) (v : Byte) : Bool :=
  let n := v.toNat
  decide (n % 16 ≤ 9 ∧ n / 16 ≤ 9) && (match i with
    | 0 | 1 => decide (n ≤ 0x59)
    | 2 => decide (n ≤ 0x23)
    | 3 => decide (1 ≤ n ∧ n ≤ 0x39)
    | 4 => decide (1 ≤ n ∧ n ≤ 0x19)
    | _ => true)

/-- A write of calendar register i (R444). -/
def State.rtcPut (s : State) (i : Nat) (v : Word) : State :=
  let b := v.setWidth 8
  if rtcOk i b then (if i = 0 then (s.setRtc i b).modSup fun u => { u with rtcAt := s.cycles } else s.setRtc i b) else s.modSup fun u => { u with rtcRej := true }

/-- RTC_WRITE (R444, R445): it goes to the counters. -/
def execRtcWrite (p : Path) (off : Nat) (v : Word) (s : State) : Host.Outcome State Fault Refusal := .next (if s.pathUp p then s.rtcPut ((off - Reg.supRtcSec) / 4) v else s)

/-- The shadows of a path (R445); the firmware has none. -/
def State.rtcShadow (s : State) (p : Path) : Option (List (Nat × Byte)) :=
  match p with
  | .bar0 => s.sup.shBar
  | .twowire => s.sup.shTw
  | .firmware => none

/-- Put a path's shadows. -/
def State.setShadow (s : State) (p : Path) (x : Option (List (Nat × Byte))) : State :=
  match p with
  | .bar0 => s.modSup fun u => { u with shBar := x }
  | .twowire => s.modSup fun u => { u with shTw := x }
  | .firmware => s

/-- A read of calendar register i on a path (R445): the first copies every counter into the shadows, and a read of YEAR releases them. -/
def State.rtcGet (s : State) (p : Path) (i : Nat) : Word × State :=
  let sh := (s.rtcShadow p).getD s.sup.rtc
  let v := (tabGet (fun _ => (0 : Byte)) sh i).setWidth 32
  let s := if (s.rtcShadow p).isSome then s else match p with
    | .bar0 => s.modSup fun u => { u with shBarAt := s.cycles }
    | .twowire => s.modSup fun u => { u with shTwAt := s.cycles }
    | .firmware => s
  (v, s.setShadow p (if i = 5 then none else some sh))

/-- What a read delivers on its path: BAR0's read data, or the two-wire port's latch (R544). -/
def State.deliver (s : State) (p : Path) (v : Word) : State :=
  match p with
  | .bar0 => s.modHost fun h => { h with rdata := v }
  | .twowire => s.modSec fun c => { c with twLatch := v }
  | .firmware => s

/-- RTC_READ (R445). -/
def execRtcRead (p : Path) (off : Nat) (s : State) : Host.Outcome State Fault Refusal :=
  .next <|
    if !s.pathUp p then s.deliver p 0
    else
      let (v, s) := s.rtcGet p ((off - Reg.supRtcSec) / 4)
      s.deliver p v

/-- When a path's shadows were taken. -/
def State.shadowAt (s : State) (p : Path) : Nat := match p with | .bar0 => s.sup.shBarAt | _ => s.sup.shTwAt

/-- RTC_SHADOW_EXPIRY (R445): 2 ms without a read of YEAR. -/
def execRtcShadowExpiry (p : Path) (s : State) : Host.Outcome State Fault Refusal :=
  .next (if s.passed (s.shadowAt p) (2 * msCycles) then s.setShadow p none else s)

/-- OSF sets (R447), with an RTC_OSF event when it was clear. -/
def State.osfSet (s : State) : State :=
  if s.sup.osf then s else (s.modSup fun u => { u with osf := true }).supEvent 0x0A []

/-- OSC_STOP (R447). -/
def execOscStop (s : State) : Host.Outcome State Fault Refusal := .next s.osfSet

/-- BACKUP_DOMAIN_POWER_UP (R447, R579): the backup domain starts from its power-up values; which calendar it shows is the model's choice (log entry 12). -/
def execBackupDomainPowerUp (s : State) : Host.Outcome State Fault Refusal :=
  let s := s.osfSet.setReg Reg.supRtcCtl 0 0
  .next (s.modSup fun u => { u with rtc := [(3, 1), (4, 1)], rtcAt := s.cycles, rtcRej := false, shBar := none, shTw := none })

/-! ## Watchdog (R449 to R453) -/

/-- TIMEOUT as it acts, ms. -/
def State.wdtTimeout (s : State) : Nat := max 1 (min 64000 (fld (s.reg Reg.supWdtCtl) 15 0))

/-- A write of SUP.WDT_CTL (R449, R450): WARN always, TIMEOUT while it does not run, EN = 1 starts it. -/
def State.wdtCtlWrite (s : State) (v : Word) : State :=
  let old := s.reg Reg.supWdtCtl
  let mask : Word := if s.sup.wdtRun then 0x30000000 else 0x3000FFFF
  let s := s.setReg Reg.supWdtCtl 0 (mergeBits mask old v ||| (v &&& 0x80000000))
  if wbit v 31 && !s.sup.wdtRun then (s.modSup fun u => { u with wdtRun := true }).wdtKick else s

/-- WDT_ENABLE (R449). -/
def execWdtEnable (v : Word) (s : State) : Host.Outcome State Fault Refusal := .next (s.wdtCtlWrite v)

/-- A write of SUP.WDT_KICK (R451): the two keys within 1 ms kick; any other value breaks the sequence and counts. -/
def State.wdtKeyWrite (s : State) (v : Word) : State :=
  let k := v.toNat % 65536
  let fresh := match s.sup.wdtKeyAt with
    | some a => decide (s.cycles ≤ a + msCycles)
    | none => false
  if k = 0xA5C3 then s.modSup fun u => { u with wdtKeyAt := some s.cycles }
  else
    let s := s.modSup fun u => { u with wdtKeyAt := none }
    if k = 0x3C5A && fresh then s.wdtKick else s.modSup fun u => { u with badKey := satInc 255 u.badKey }

/-- WDT_KICK_WRITE (R451). -/
def execWdtKickWrite (v : Word) (s : State) : Host.Outcome State Fault Refusal := .next (s.wdtKeyWrite v)

/-- ms that are left at the early warning (SUP.WDT_CTL.WARN). -/
def State.warnLeft (s : State) : Nat :=
  match fld (s.reg Reg.supWdtCtl) 29 28 with
  | 0 => s.wdtTimeout / 2
  | 1 => s.wdtTimeout / 4
  | _ => s.wdtTimeout / 8

/-- The fraction of TIMEOUT, in cycles, after which the early warning comes, at the RC's fastest rate (R449, R450). -/
def State.warnAt (s : State) : Nat :=
  let k := match fld (s.reg Reg.supWdtCtl) 29 28 with | 0 => 4 | 1 => 6 | _ => 7
  90000 * s.wdtTimeout * k / 8

/-- In BASTING the recovery loader kicks the watchdog in time (R452, R474), unless both lockstep pairs stand halted by the debug chain. -/
def State.loaderKicks (s : State) : Bool := s.pwr.st == .basting && s.sec.dbg.pairs != 3

/-- WDT_WARNING (R450, R452): once after each kick. -/
def execWdtWarning (s : State) : Host.Outcome State Fault Refusal :=
  .next <|
    if !s.sup.wdtRun || s.loaderKicks || fld (s.reg Reg.supWdtCtl) 29 28 = 3 || s.sup.wdtSaid || !s.passed s.sup.wdtSince s.warnAt then s
    else
      let s := s.modSup fun u => { u with warned := true, wdtSaid := true }
      ((s.wake 1).supEvent 6 (toLe 4 s.warnLeft)).source 24 0

/-- WDT_EXPIRY (R449, R453): TIMEOUT after the last kick, by an RC that may run 10 % fast, WDX_N goes low for 10 ms and the WDT source is raised; in OFF only the pulse, and one record in each OFF period. -/
def execWdtExpiry (s : State) : Host.Outcome State Fault Refusal :=
  .next <|
    if !s.sup.wdtRun || s.loaderKicks || !s.passed s.sup.wdtSince (90000 * s.wdtTimeout) then s
    else
      let s := (s.modSup fun u => { u with wdx := true, wdxAt := s.cycles }).wdtKick
      if s.pwr.st == .off then
        if s.sup.wdtOffLogged then s else (s.modSup fun u => { u with wdtOffLogged := true }).supLog 6 0 0
      else (s.supLog 6 0 0).raiseRst .wdt

/-- WDX_PULSE_END (R453, R462): 10 ms of the RC after the expiry. -/
def execWdxPulseEnd (s : State) : Host.Outcome State Fault Refusal :=
  .next (if !s.sup.wdx || !s.passed s.sup.wdxAt (9 * msCycles) then s else (s.modSup fun u => { u with wdx := false }).releaseSrc .wdt)

/-! ## Push-button and manual reset (R454 to R458) -/

/-- The device leaves operation for OFF (R421, R455): the other dies lose what a reset loses, the supervisor die goes on, and the rails go down to the OFF set. -/
def State.offHold (s : State) : State :=
  let h := s.takeHold.modPwr fun p => { p with episode := false, raised := [], held := [], retry := false, borDown := false }
  let h := { h with regs := s.regs.filter fun (e : Nat × Word) => [10, 11, 12].contains (e.1 / 2048 / 65536), wcs := s.wcs, sup := s.sup,
                    sec := { s.sec with rngReady := false, staging := [], staged := none, fwOp := none, dbg := {}, fwWrites := [] } }
  ({ h with nvm := { h.nvm with reopened := s.nvm.reopened, unlocked := s.nvm.unlocked, fails := s.nvm.fails } }).fallTo 1

/-- Force the device off (R455, R490): a PB_OFF record and event, a YIELD as R411 describes, then the descent. -/
def State.forceOff (s : State) : State :=
  if s.pwr.st == .off then s
  else
    let s := (s.supLog 7 0 0).supEvent 8 []
    let s := s.modPwr fun p => { p with offNext := true }
    if s.pwr.yielding then s
    else if !s.pwr.episode && s.alignedTwin then (s.emit .yieldMsg).modPwr fun p => { p with yielding := true, yieldAt := s.cycles, taken := false }
    else s.offHold

/-- Start from OFF (R457, R477): the supplies come up, in an episode without a source. -/
def State.startUp (s : State) : State :=
  let s := s.modPwr fun p => { p with st := .reset, episode := true, raised := [], held := [], taken := true, offNext := false, startTo := false, retry := false }
  (s.modSup fun u => { u with wdtOffLogged := false, forced := false }).riseTo s.startTop

/-- PB_SHORT_PRESS (R454, R457): in SLEEP it first wakes the device, in OFF it starts it. -/
def execPbShortPress (ms : Nat) (s : State) : Host.Outcome State Fault Refusal :=
  if ms < 50 ∨ 4000 ≤ ms then .next s
  else
  let s := s.modSup fun u => { u with short := true, pressed := false, pbHeld := min 0xFFFF (ms / 100) }
  let s := (s.wake 3).supEvent 7 (toLe 2 ms)
  .next (if s.pwr.st == .off then s.startUp else s)

/-- PB_FORCE_OFF (R455). -/
def execPbForceOff (s : State) : Host.Outcome State Fault Refusal :=
  let off := s.pwr.st == .off
  let s := s.modSup fun u => { u with pressed := true, pressAt := s.cycles, pbHeld := 40, forced := u.forced || !off }
  .next s.forceOff

/-- PB_LAYUP (R456, R457): at 12 s of a press, 8 s after its fourth, the lay-up source, a record, and BATSW_N low for 2 s; the release leads into OFF (R466). -/
def execPbLayup (s : State) : Host.Outcome State Fault Refusal :=
  let late := s.sup.pressed && !s.passed s.sup.pressAt (8000 * msCycles)
  let was := s
  let s := s.modSup fun u => { u with pressed := true, pbHeld := 120, batsw := true, batswAt := s.cycles }
  .next (if late then was else ((s.supLog 8 0 0).modPwr fun p => { p with offNext := true }).raiseRst .layup)

/-- BATSW_PULSE_END (R456): after 2 s; lay-up releases when PB_N is released too. -/
def execBatswPulseEnd (s : State) : Host.Outcome State Fault Refusal :=
  let t := s.modSup fun u => { u with batsw := false }
  .next (if !s.sup.batsw || !s.passed s.sup.batswAt (2000 * msCycles) then s else if s.sup.pressed then t else t.releaseSrc .layup)

/-- PB_N_RELEASE (R455 to R457): in OFF a press shorter than 12 s starts the device, but for the press that has forced it off. -/
def execPbNRelease (ms : Nat) (s : State) : Host.Outcome State Fault Refusal :=
  let forced := s.sup.forced
  let s := s.modSup fun u => { u with pressed := false, pbHeld := min 0xFFFF (ms / 100), forced := false }
  let s := if s.sup.batsw then s else s.releaseSrc .layup
  .next (if s.pwr.st == .off && !forced && decide (50 ≤ ms ∧ ms < 12000) then s.startUp else s)

/-- MR_ASSERT (R458, R482): the MR_N source, ignored in OFF. -/
def execMrAssert (s : State) : Host.Outcome State Fault Refusal := .next ((s.modSup fun u => { u with mr := true }).raiseRst .mrN)

/-- MR_RELEASE (R458). -/
def execMrRelease (s : State) : Host.Outcome State Fault Refusal := .next ((s.modSup fun u => { u with mr := false }).releaseSrc .mrN)

/-! ## SUP.PWR_CTL (R490) -/

/-- PWR_OFF_CMD (R490). -/
def execPwrOffCmd (key : Byte) (s : State) : Host.Outcome State Fault Refusal :=
  .next (if key ≠ 0x5A then s else if s.pwr.st == .off then s.modPwr fun p => { p with rej := true } else s.forceOff)

/-- The twin may be reset (R490). -/
def State.mayResetTwin (s : State) : Bool :=
  s.roleActs && s.twin.link && !(s.twin.peer == .active || s.twin.peer == .solo || s.twin.peer == .taking)

/-- PWR_TWIN_RESET (R490). -/
def execPwrTwinReset (key : Byte) (s : State) : Host.Outcome State Fault Refusal :=
  .next (if key ≠ 0x5A then s else if s.mayResetTwin then s.emit .resetReq else s.modPwr fun p => { p with rej := true })

end Sys2Proof.Machine
end

