-- ==== Sys2Proof/Machine/Nvm.lean ====
section
/-! DEFINITION. The NVM's operations and the ends of its programs (R491 to R506), the protected area (R507 to R509), OTP programming (R510 to R515) and life-cycle
transitions (R516 to R520). -/

namespace Sys2Proof.Machine

/-! ## Host operations (R492 to R502) -/

/-- The NVM answers no host operation now, or earlier ones wait for it (R501, R502). -/
def State.nvmBusy (s : State) : Bool := s.nvm.job.isSome || s.nvm.waitHost != []

/-- Bytes read before the page with the uncorrectable error, a free one of those read (R493). -/
def State.badPage (s : State) (off n : Nat) : Nat × State :=
  let (w, s) := s.freshWord
  let pages := (off + n + 255) / 256 - off / 256
  (min n (256 * (off / 256 + w.toNat % max 1 pages) - off), s)

/-- NVM_READ (R491 to R493): bytes past the end are not there. -/
def execNvmRead (o : Nat) (ecc : Ecc) (s : State) : Host.Outcome State Fault Refusal :=
  .next <| opRun s o 0x60 noBad noPre fun op s =>
    let off := op.u32 8
    let len := op.u32 0xC
    let n := min len (0x100000 - off)
    if s.nvmBusy then s
    else
      let s := s.commit op
      if ecc = .uncorrectable && n != 0 then
        let (k, s) := s.badPage off n
        let s := s.eccEvent 6 0xFFFF
        (s.emit (.hostWrite (op.u64 0x10) (s.nvmBytes off k))).complete op stMediaError 0 k
      else (s.emit (.hostWrite (op.u64 0x10) (s.nvmBytes off n))).complete op (if n < len then stPartial else stOk) 0 n

/-- NVM_WRITE may not program a page (R492, R507, R508). -/
def State.pageDenied (s : State) (p : Nat) : Bool :=
  if p < 0x10 then (if s.grade = 0 then s.fuse 1 else s.fuse 2 && !s.nvm.unlocked)
  else decide ((0x20 ≤ p ∧ p < 0x420) ∨ 0x800 ≤ p)

/-- A host program waits for the NVM (R502). -/
def State.nvmQueue (s : State) (op : Op) : State :=
  ((s.modOp op.tag fun p => { p with accepted := true }).modNvm fun n => { n with waitHost := n.waitHost ++ [op.tag] }).nvmServe

/-- NVM_WRITE (R492, R507, R508). -/
def execNvmWrite (o : Nat) (s : State) : Host.Outcome State Fault Refusal :=
  .next <| opRun s o 0x61 noBad (fun op s => if s.pageDenied (op.u16 8) then some stDenied else none) fun op s =>
    if op.accepted || op.data.isNone then s else s.nvmQueue op

/-- NVM_APPEND (R495, R497): rings 0 to 2 are reserved. -/
def execNvmAppend (o : Nat) (s : State) : Host.Outcome State Fault Refusal :=
  let bad := fun (op : Op) (_ : State) => !decide (1 ≤ op.u16 0xC ∧ op.u16 0xC ≤ 240)
  .next <| opRun s o 0x62 bad (fun op _ => if op.u8 8 < 3 then some stDenied else none) fun op s =>
    if op.accepted || op.data.isNone then s else s.nvmQueue op

/-- The slot that lies i appends before the newest, when the SEQs between are unbroken (R499). -/
def State.olderSlot (s : State) (r i : Nat) : Option Nat :=
  match s.newestSlot r with
  | none => none
  | some (n, q) =>
    let at_ := fun j => (n + 64 - j % 64) % 64
    if (List.range (i + 1)).all fun j => slotValid (s.slotBytes r (at_ j)) && leAt (s.slotBytes r (at_ j)) 0 4 == (q + 2 ^ 32 - j) % 2 ^ 32
    then some (at_ i) else none

/-- NVM_RING_READ (R499). -/
def execNvmRingRead (o : Nat) (ecc : Ecc) (s : State) : Host.Outcome State Fault Refusal :=
  .next <| opRun s o 0x63 noBad noPre fun op s =>
    let r := op.u8 8
    if s.nvmBusy then s
    else
      let s := s.commit op
      if ecc = .uncorrectable then (s.eccEvent 6 0xFFFF).complete op stMediaError
      else match s.olderSlot r (op.u16 0xC) with
        | some i => (s.emit (.hostWrite (op.u64 0x10) (s.slotBytes r i))).complete op stOk 0 256
        | none => s.complete op stPartial

/-! ## The end of a program (R494, R501, R502, R528, R540) -/

/-- A step of a firmware installation has ended: the next page waits ahead of other host work, or the image is in and the pairs restart (R528); the recovery loader's LOAD
ends with its RESULT (R540). -/
def State.imagePage (s : State) (tag k : Nat) (good : Bool) : State :=
  match s.sec.staged with
  | none => s
  | some (t, b) =>
    let live := t == tag && (tag == recTag || (s.findOp tag).any fun o => !o.done)
    let more := (s.imageStep b (k + 1)).isSome
    if !live then s
    else if tag = recTag then
      if !good || !more then s.modSec fun c => { c with recBusy := false, recResult := if good then 1 else 4, staged := none, recOp := [] }
      else (s.modSec fun c => { c with recOp := toLe 4 (k + 1) }).modNvm fun n => { n with waitHost := tag :: n.waitHost }
    else match s.findOp tag with
      | none => s
      | some o =>
        if !good then s.imageEnd o stMediaError
        else if more then (s.modOp tag fun p => { p with step := k + 1 }).modNvm fun n => { n with waitHost := tag :: n.waitHost }
        else (s.commit o).modSec fun c => { c with fwOp := some tag, fwPairs := 0 }

/-- A page's content after its program (R494): the data, or, when it failed, free bytes (log entry 4). -/
def State.pageEnd (s : State) (page : Nat) (data : List Byte) (good : Bool) : State :=
  if good then s.nvmPut (256 * page) data
  else
    let (f, s) := s.freshBytes 256
    s.nvmPut (256 * page) f

/-- NVM_PROGRAM_DONE (R494, R501, R502). -/
def execNvmProgramDone (good : Bool) (s : State) : Host.Outcome State Fault Refusal :=
  .next <| match s.nvm.job with
    | none => s
    | some j =>
      let s := (s.modNvm fun n => { n with job := none }).pageEnd j.page j.data good
      let s := match j.owner with
        | .host tag => match s.findOp tag with
          | some o => s.complete o (if good then stOk else stMediaError) 0 (if good then o.value else 0)
          | none => s
        | .twowire => s.modNvm fun n => { n with twBusy := false, twErr := n.twErr || !good }
        | .supervisor r => if r = 0 && good then s.modSup fun u => { u with newLogs := u.newLogs ++ [(byteAt j.data 0x16, j.page - ringPage 0 0)] } else s
        | .image tag k => s.imagePage tag k good
      s.nvmServe

/-! ## The two-wire port's access (R503 to R506) -/

/-- A host NVM operation is in progress (R503): started and without its completion record. -/
def State.nvmHost (s : State) : Bool :=
  s.ops.any fun o => (decide (0x60 ≤ o.code ∧ o.code ≤ 0x63) || (o.code == 0x84 && o.u8 8 == 1)) && (o.accepted || o.committed)

/-- The port NACKs (R503 to R505). -/
def State.nack (s : State) : State := (s.emit .nack).modSec fun c => { c with nacks := satInc 0xFFFF c.nacks }

/-- VSUP is up (R462, R543): POR holds the device with no sequence begun only while it is away. -/
def State.vsupUp (s : State) : Bool := !(s.pwr.held.contains .por && s.sup.seq == 0)

/-- The port recognises its address (R485, R488, R543): in every state in which VSUP is up. -/
def State.portUp (s : State) : Bool := s.vsupUp && !s.selvClosed 3 0 && s.pwr.island && !s.sec.hang

/-- The NVM has its supply, VNV (R419, R491). -/
def State.vnvUp (s : State) : Bool := s.railIn 2

/-- Pages that the port may program (R491, R506). -/
def twPage (p : Nat) : Bool := decide ((0x10 ≤ p ∧ p < 0x20) ∨ (0x420 ≤ p ∧ p < 0x800))

/-- The port reads a page (R491, R506, R509): the start plan, the rings and the user area. -/
def twReads (p : Nat) : Bool := decide (0x10 ≤ p ∧ p < 0x800)

/-- A two-wire write of SUP.NVMW_CTL (R503 to R506): PAGE, and READ or PROGRAM. While VNV is not in its window neither runs, and ERR sets (log entry 17). -/
def State.nvmwWrite (s : State) (v : Word) : State :=
  let page := fld v 11 0
  let cmd := fld v 31 30
  let put := fun (s : State) => (s.setReg Reg.supNvmwCtl 0 (v &&& 0xFFF)).modNvm fun n => { n with twErr := n.twErr && !wbit v 28 }
  if s.nvm.job.isSome then s.nack
  else if cmd = 2 then
    if s.nvmHost || s.sup.brace || wbit (s.reg Reg.nvmCtl) 0 then s.nack
    else
      let s := put s
      if !twPage page || !s.vnvUp then s.modNvm fun n => { n with twErr := true }
      else s.modNvm fun n => { n with twBusy := true, job := some { owner := .twowire, page := page, data := (List.range 256).map fun i => tabGet (fun _ => (0 : Byte)) n.twBuf i } }
  else if cmd = 1 then
    let s := put s
    if !twReads page || !s.vnvUp then s.modNvm fun n => { n with twErr := true }
    else s.modNvm fun n => { n with twBuf := (s.nvmBytes (256 * page) 256).zipIdx.foldl (fun t e => tabSet (fun _ => (0 : Byte)) t e.2 e.1) n.twBuf }
  else put s

/-- NVMW_READ (R506). -/
def execNvmwRead (v : Word) (s : State) : Host.Outcome State Fault Refusal := .next (if s.portUp then s.nvmwWrite v else s)

/-- NVMW_PROGRAM (R503 to R506). -/
def execNvmwProgram (v : Word) (s : State) : Host.Outcome State Fault Refusal := .next (if s.portUp then s.nvmwWrite v else s)

/-! ## OTP programming (R513 to R515) -/

/-- Redirect row r with its word to the lowest unused entry (R514); with none left OTP_FULL sets, and the row stays weak. -/
def State.otpRedirect (s : State) (r : Nat) (v : DWord) : State :=
  let e := s.nvm.redir.length
  if 32 ≤ e then s.modNvm fun n => { n with otpFull := true, weak := insertN n.weak r }
  else s.modNvm fun n => { n with redir := n.redir ++ [r], spares := tabSet (fun _ => 0) n.spares e v, weak := n.weak.filter (· != r) }

/-- Program bits into row r; a row that still fails the strict read is redirected (R513, R514). -/
def State.otpProgram (s : State) (r : Nat) (v : DWord) (strictOk : Bool) : State :=
  let w := s.otpRead r ||| v
  let s := s.otpPut r w
  if strictOk then s.modNvm fun n => { n with weak := n.weak.filter (· != r) } else s.otpRedirect r w

/-- The repair of the life-cycle words and option fuses at a start (R515): a weak row is pulsed again, with a free result, and redirected when it still fails. -/
def State.otpRepair (s : State) : State :=
  (s.nvm.weak.filter fun r => decide (2 ≤ r ∧ r ≤ 0xC)).foldl (fun s r =>
    let (good, s) := s.freshBool
    s.otpProgram r 0 good) s

/-- OTP_ROW_READ (R509, R510, R514): the row chosen by NVM.OTP_SEL; a weak row at strict margin reads some of its bits. -/
def State.otpSelect (s : State) (v : Word) : State :=
  let r := fld v 9 0
  let s := s.setReg Reg.nvmOtpSel 0 (v &&& 0x800003FF)
  let redirected := (redirOf s.nvm.redir r).isSome
  let w : DWord := if r = 0x10 ∨ r = 0x11 then 0 else s.otpRead r
  let part := wbit v 31 && s.nvm.weak.contains r && !redirected
  let w := if part then w &&& Config.freeDWord s.free else w
  let s := if part then { s with free := s.free + 1 } else s
  s.modNvm fun n => { n with otpLo := w.setWidth 32, otpHi := (w >>> 32).setWidth 32, otpRedir := redirected }

/-- OTP_ROW_READ (R510). -/
def execOtpRowRead (v : Word) (s : State) : Host.Outcome State Fault Refusal := .next (s.viaBar0 fun s => s.otpSelect v)

/-! ## NVM.CTL (R507, R508, R522) -/

/-- A command of NVM.CTL with its key; one that is not allowed sets REJ. -/
def nvmCmd (key : Byte) (s : State) (ok : Bool) (f : State → State) : State :=
  s.viaBar0 fun s => if key ≠ 0x5A then s else if ok then f s else s.modNvm fun n => { n with rej := true }

/-- OTP rows wait to be programmed. -/
def State.fuseAdd (s : State) (l : List (Nat × DWord)) : State := s.modNvm fun n => { n with fuseJob := n.fuseJob ++ l }

/-- Password word i as NVM.PWDn hold it. -/
def State.pwdWord (s : State) (i : Nat) : DWord :=
  BitVec.ofNat 64 ((tabGet (fun _ => (0 : Word)) s.nvm.pwd (2 * i)).toNat + 2 ^ 32 * (tabGet (fun _ => (0 : Word)) s.nvm.pwd (2 * i + 1)).toNat)

/-- SEAL_LOCK (R507, R522). -/
def execSealLock (key : Byte) (s : State) : Host.Outcome State Fault Refusal :=
  .next <| nvmCmd key s (s.grade == 0 && (s.nvm.lc == .integration || s.nvm.lc == .sealed)) fun s => s.fuseAdd [(0x0C, 2)]

/-- SET_PWD (R508, R522): the password rows, then PWD_SET. -/
def execSetPwd (key : Byte) (s : State) : Host.Outcome State Fault Refusal :=
  .next <| nvmCmd key s (s.grade != 0 && !s.fuse 2) fun s => s.fuseAdd [(0x10, s.pwdWord 0), (0x11, s.pwdWord 1), (0x0C, 4)]

/-- UNLOCK (R508, R522). -/
def execUnlock (key : Byte) (s : State) : Host.Outcome State Fault Refusal :=
  .next <| nvmCmd key s (s.grade != 0 && decide (s.nvm.fails < 8)) fun s =>
    if s.pwdWord 0 = s.otpRead 0x10 ∧ s.pwdWord 1 = s.otpRead 0x11 then s.modNvm fun n => { n with unlocked := true }
    else s.modNvm fun n => { n with fails := n.fails + 1 }

/-- RELOCK (R508, R522). -/
def execRelock (key : Byte) (s : State) : Host.Outcome State Fault Refusal :=
  .next <| nvmCmd key s (s.grade != 0) fun s => s.modNvm fun n => { n with unlocked := false }

/-! ## Life-cycle transitions (R511, R512, R516 to R520) -/

/-- Intent and state word of code c (R516). -/
def lcWord (c : Nat) : DWord := BitVec.ofNat 64 (c + 256 * (255 - c))

/-- The two words of an entry of the guard store as an OTP row. -/
def State.guardRow (s : State) (i : Nat) : DWord :=
  BitVec.ofNat 64 ((tabGet (fun _ => (0 : Word)) s.guardSram i).toNat + 2 ^ 32 * (tabGet (fun _ => (0 : Word)) s.guardSram (i + 1)).toNat)

/-- The envelope rows of rail m (R511): zeros without an active page. -/
def State.envelopeRows (s : State) (m : Nat) : List (Nat × DWord) :=
  let p := (s.rail m).active
  if p = [] then [(0xA0 + 2 * m, 0), (0xA1 + 2 * m, 0)]
  else [(0xA0 + 2 * m, BitVec.ofNat 64 (leAt p 0x18 4 + 2 ^ 32 * leAt p 0x1C 4)), (0xA1 + 2 * m, BitVec.ofNat 64 (rpRamp p + 2 ^ 32 * rpDwell p))]

/-- The registers with sealed-value rows (R569), in rising offset. -/
def sealOffsets : List Nat :=
  [Reg.planBolster, Reg.planShedCfg] ++ (List.range 16).map (fun i => Reg.planShedLo + 4 * i) ++ [Reg.patternKickEn, Reg.twinCfg, Reg.supSeqCfg, Reg.supVinCfg, Reg.supWcCfg]
    ++ (List.range 4).map (fun i => Reg.supTsCfg + 4 * i) ++ [Reg.supThrCfg, Reg.safetyMask]

/-- The sealed-value rows' words (R512, R569): each register, and window position, whose sealed fields differ from reset. -/
def State.sealWords (s : State) : List DWord :=
  sealOffsets.flatMap fun off =>
    match sealTable off with
    | none => []
    | some (n, mask) => (List.range n).filterMap fun sel =>
        let v := s.reg off sel
        let custom := fld (s.reg Reg.planShedCfg) 31 30 == 1 || !decide (Reg.planShedLo ≤ off ∧ off < Reg.planShedLo + 64)
        if v &&& mask ≠ regDefault (regKey off sel) &&& mask && custom then some (BitVec.ofNat 64 (off * 2 ^ 44 + sel * 2 ^ 32 + v.toNat)) else none

/-- The payload of a seal, in rising row order (R518). -/
def State.payload (s : State) : List (Nat × DWord) :=
  let hash := (List.range 4).map fun i =>
    (0x14 + i, BitVec.ofNat 64 ((s.reg (Reg.secKeyHash + 8 * i)).toNat + 2 ^ 32 * (s.reg (Reg.secKeyHash + 8 * i + 4)).toNat))
  let wdt := if wbit (s.reg Reg.nvmCtl) 8 then [(0x0C, s.otpRead 0x0C ||| 1)] else if s.fuse 0 then [(0x0C, s.otpRead 0x0C &&& ~~~1)] else []
  let sets := (List.range 64).map fun k => (0x20 + k, s.guardRow (2 * k))
  let map_ := (List.range 64).map fun k => (0x60 + k, s.guardRow (128 + 2 * k))
  let env := (List.range 64).flatMap s.envelopeRows
  let words := s.sealWords
  let vals := (List.range 224).map fun i => (0x120 + i, words.getD i 0)
  (wdt ++ hash ++ sets ++ map_ ++ env ++ vals).filter fun e => e.2 != 0 || s.otpRead e.1 != 0

/-- The rows of a transition to code c, in order (R518): intent, payload, state word. -/
def State.lcRows (s : State) (c : Nat) : List (Nat × DWord) :=
  [(2 * c, lcWord c)] ++ (if c = 3 then s.payload else []) ++ [(2 * c + 1, lcWord c)]

/-- Why a transition to code c is not accepted (R517): DENIED. -/
def State.lcDenied (s : State) (c : Nat) : Bool :=
  match s.nvm.lc, c with
  | .integration, 3 | .integration, 5 => false
  | .sealed, 4 | .sealed, 5 | .ret, 5 => !s.nvm.reopened
  | _, _ => true

/-- Every guard set named in the map passes its CRC (R113, R517). -/
def State.guardsGood (s : State) : Bool := (List.range 1024).all fun n => !s.laneOk n || (s.guardFor n).crcOk

/-- LC_TRANSITION (R517, R518). -/
def execLcTransition (o : Nat) (s : State) : Host.Outcome State Fault Refusal :=
  let bad := fun (op : Op) (s : State) =>
    decide (5 < op.u8 8) || (op.u8 8 == 3 && s.nvm.lc == .integration && ((s.keyHash.all (· == 0)) || !s.guardsGood))
  .next <| opRun s o 0x73 bad (fun op s => if s.lcDenied (op.u8 8) then some stDenied else none) fun op s =>
    let c := op.u8 8
    if op.accepted then s
    else if s.nvm.lcJob.isSome || (c = 3 && s.lanes.any fun e => e.2.st == .run) then s.complete op stBusy
    else (s.modOp op.tag fun p => { p with accepted := true }).modNvm fun n => { n with lcJob := some (op.tag, s.lcRows c) }

/-- A row of a transition has been programmed (R518, R520). -/
def State.lcRow (s : State) (tag r : Nat) (v : DWord) (rest : List (Nat × DWord)) (strictOk : Bool) : State :=
  let stop := fun (s : State) (st : Nat) => (s.modNvm fun n => { n with lcJob := none }).completeTag tag st
  if s.otpRead r &&& ~~~v ≠ 0 then stop s stDenied
  else
    let s := s.otpProgram r v strictOk
    let s := s.modOp tag fun p => { p with committed := true }
    if !strictOk && s.nvm.weak.contains r then stop s stMediaError
    else if rest = [] then (stop s stOk).modNvm fun n => { n with pendingSeal := true, sealedNow := true }
    else s.modNvm fun n => { n with lcJob := some (tag, rest) }

/-- OTP_ROW_PROGRAMMED (R513, R514, R518): fuses of NVM.CTL first, then the transition's next row. -/
def execOtpRowProgrammed (strictOk : Bool) (s : State) : Host.Outcome State Fault Refusal :=
  .next <| match s.nvm.fuseJob, s.nvm.lcJob with
    | (r, v) :: t, _ => (s.modNvm fun n => { n with fuseJob := t }).otpProgram r v strictOk
    | [], some (tag, (r, v) :: t) => s.lcRow tag r v t strictOk
    | [], _ => s

end Sys2Proof.Machine
end

