-- ==== Sys2Proof/Machine/Reset.lean ====
section
/-! DEFINITION. Reset episodes and starts (R461 to R475), and the ends of the reset sources that arise outside the supervisor. -/

namespace Sys2Proof.Machine

/-! ## Sources (R20, R462 to R464) -/

/-- What the supervisor knows after VSUP has gone (R461, R464): every outward action ends; the backup domain goes on. What it derives from the NVM stays. -/
def State.supLost (s : State) : State :=
  let again := fun (s : State) => if s.sup.mr then [RstSrc.por, RstSrc.mrN] else [RstSrc.por]
  { s with sup := { rtc := s.sup.rtc, rtcAt := s.sup.rtcAt, osf := s.sup.osf, rtcRej := s.sup.rtcRej, mr := s.sup.mr, newLogs := s.sup.newLogs },
           wcs := [],
           time := {},
           pwr := { prevReady := s.pwr.prevReady, raised := again s, held := again s, raisedAt := (again s).map fun r => (r, s.cycles) },
           sec := { adr := s.sec.adr } }

/-- POR (R462 to R464): VSUP leaves WC0's window, which ends everything at once, or enters it, and the supplies come up. -/
def execPor (enters : Bool) (s : State) : Host.Outcome State Fault Refusal :=
  .next <|
    if enters then (if s.pwr.held.contains .por && s.sup.seq = 0 then s.riseTo s.startTop else s)
    else (s.nvmAbandon.takeHold).supLost

/-- The management cores run, so that they can fail (R462). -/
def State.coresRun (s : State) : Bool := !(s.pwr.st == .reset || s.pwr.st == .off || s.pwr.st == .sleep)

/-- LOCKSTEP_MISMATCH (R462). -/
def execLockstepMismatch (s : State) : Host.Outcome State Fault Refusal := .next (if s.coresRun then s.raiseRst .safety else s)

/-- DIE_LINK_FAULT (R20, R462): a fabric fault, recorded as the SAFETY source. -/
def execDieLinkFault (s : State) : Host.Outcome State Fault Refusal := .next (if s.coresRun && s.pwr.st != .basting then s.raiseRst .safety else s)

/-- RESET_TAKE_HOLD (R411, R455, R463): 4 us after the YIELD. -/
def execResetTakeHold (s : State) : Host.Outcome State Fault Refusal :=
  .next <|
    if !s.pwr.yielding || !s.passed s.pwr.yieldAt (4 * usCycles) then s
    else if s.pwr.offNext && !s.pwr.raised.contains .layup then s.offHold
    else s.takeHold

/-- RESET_SOURCE_HOLD_END (R462): the 1 us of TWIN, HOST and SAFETY. -/
def execResetSourceHoldEnd (src : RstSrc) (s : State) : Host.Outcome State Fault Refusal :=
  let due := s.pwr.raisedAt.all fun (e : RstSrc × Nat) => e.1 != src || s.passed e.2 usCycles
  .next (if (src == .twin || src == .host || src == .safety) && due then s.releaseSrc src else s)

/-! ## The release (R465 to R469) -/

/-- Number of a reset source (R489). -/
def rstCode : RstSrc → Nat
  | .por => 0 | .bor => 1 | .mrN => 2 | .layup => 3 | .wdt => 4 | .twin => 5 | .host => 6 | .safety => 7 | .therm => 8

/-- An append to ring r was abandoned (R498): the slot after the newest is invalid and not wholly 0xFF. -/
def State.abandoned (s : State) (r : Nat) : Bool :=
  let b := s.slotBytes r (s.nextSlot r).1
  !slotValid b && b != List.replicate 256 0xFF

/-- SUP.RST_CAUSE of the episode that ends (R467). -/
def Pwr.record (p : Pwr) : Pwr :=
  { p with causeFirst := BitVec.ofNat 4 ((p.raised.map rstCode).headD 0), causeSrc := BitVec.ofNat 9 (sumN (p.raised.map fun r => 2 ^ rstCode r)), causeTo := p.startTo }

/-- STAGE of the failure that the last start ended with (R471): SEQUENCE, the step it did not complete, or RESET; none after a start that reached RUN-ready. -/
def State.lastStage (s : State) : Nat :=
  let ready := if s.pwr.raised.contains .por then (match s.newestRec 1 with | some b => byteAt b 2 != 0 | none => true) else s.pwr.prevReady
  if s.pwr.seqFails ≠ 0 then 1 else if ready then 0 else if s.pwr.startTo then s.pwr.stage else 6

/-- The count of starts so far (R430), from the newest start record after a POR. -/
def State.bootCount (s : State) : Word :=
  if s.pwr.raised.contains .por then (match s.newestRec 1 with | some b => BitVec.ofNat 32 (leAt b 8 4) | none => 0) else s.sup.boot

/-- The release into OFF (R466): the rails, if any is up still, go down to the OFF set. -/
def State.releaseOff (s : State) : State :=
  let s := s.modPwr fun p => { p.record with episode := false, raised := [], held := [], taken := false, startTo := false, seqFails := 0 }
  if s.sup.top = 1 then s.modPwr fun p => { p with st := .off } else s.fallTo 1

/-- Supplies that a start needs and does not have come up; those it must not have go down (R419, R474). -/
def State.startSupplies (s : State) (top : Nat) : State :=
  if top < s.sup.top then s.fallTo top else if s.sup.top < top then s.riseTo top else s

/-- A start begins (R6, R206, R449, R467, R469, R473, R474, R498, R515, R519): steps 1 and 2, or BASTING. -/
def State.releaseStart (s : State) : State :=
  let fails := s.startFails
  let stage := s.lastStage
  let boot := s.bootCount + 1
  let lost := s.abandoned 0 || s.abandoned 1 || s.abandoned 2
  let s := s.lcEval.otpRepair.lcEval
  let void := s.nvm.lc == .void
  let baste := decide (3 ≤ fails) || void || s.grade == 3
  let s := s.modPwr fun p =>
    { p.record with st := if baste then .basting else .starting, episode := false, raised := [], held := [], taken := false, startTo := false, fails := fails, stage := stage, seqFails := 0, startAt := s.cycles,
                    ready := false, step := 0, prevReady := false, appliedRows := 0, badRows := 0, applied := false }
  let s := { s with time := {} }
  let s := s.modSup fun u => { u with boot := boot, logLost := u.logLost || lost }
  let s := s.applySealed true
  let s := if s.fuse 0 && !s.sup.wdtRun then (s.modSup fun u => { u with wdtRun := true }).wdtKick else s
  (s.putStart).startSupplies (if baste then 7 else 12)

/-- RESET_RELEASE (R465, R466): 1 ms after the last held source of the episode, with the supplies up. -/
def execResetRelease (s : State) : Host.Outcome State Fault Refusal :=
  .next <|
    if !s.pwr.episode || !s.pwr.taken || s.pwr.held != [] || !s.passed s.pwr.relAt msCycles then s
    else if s.pwr.offNext then s.releaseOff
    else if s.sup.seq ≠ 2 then s
    else s.releaseStart

/-! ## Start-up (R469 to R473) -/

/-- A start fails (R471): its STAGE, and SAFETY with START_TO. -/
def State.startFail (s : State) (stage : Nat) : State := (s.modPwr fun p => { p with stage := stage }).raiseRst .safety true

/-- The bank holds an image that verifies (R525, R529). -/
def State.bankRuns (s : State) (b : Bool) : Bool := (s.imageStatus (s.nvmBytes (256 * bankBase b) (256 * 0x3FF)) 1).isNone

/-- The banks in the order in which the loader tries them (R529): those with a valid record, the later GEN first. -/
def State.bankOrder (s : State) : List Bool :=
  match s.bankGen false, s.bankGen true with
  | some a, some b => if slotAfter b a then [true, false] else [false, true]
  | some _, none => [false]
  | none, some _ => [true]
  | none, none => []

/-- The supervisor still writes a record, the start record of this start among them (R430, R469). -/
def State.supWrites (s : State) : Bool :=
  s.nvm.waitSup != [] || (match s.nvm.job with | some j => (match j.owner with | .supervisor _ => true | _ => false) | none => false)

/-- FIRMWARE_LOAD_DONE (R469, R529, R570): the loader runs the first bank that verifies; sealed values are applied, and the rings may be set up. -/
def execFirmwareLoadDone (s : State) : Host.Outcome State Fault Refusal :=
  .next <|
    if s.pwr.st != .starting || s.host.ready || s.sup.seq ≠ 2 || s.supWrites then s
    else match s.bankOrder.find? s.bankRuns with
      | none => s.startFail 2
      | some b =>
        let s := s.modSec fun c => { c with bank := b, gen := wordN ((s.bankGen b).getD 0), otherValid := (s.bankGen (!b)).isSome }
        let s := (s.applySealed false).modPwr fun p => { p with applied := decide (3 ≤ s.lcWords.1) }
        s.modHost fun h => { h with ready := true }

/-- START_STEP_DONE (R115, R469): die links and guard sets, HBM, engines; then every lane with EN = 1 trains. -/
def execStartStepDone (good : Bool) (s : State) : Host.Outcome State Fault Refusal :=
  let k := s.pwr.step
  .next <|
    if s.pwr.st != .starting || !s.host.ready || 3 ≤ k then s
    else if !good then s.startFail (3 + k)
    else
      let s := s.modPwr fun p => { p with step := k + 1 }
      if k = 0 then s.guardFromOtp else if k = 2 then s.trainLanes else s

/-- RUN_READY (R415, R459, R469, R470, R563): every lane with EN = 1 is READY or FAULT. -/
def execRunReady (s : State) : Host.Outcome State Fault Refusal :=
  .next <|
    if s.pwr.st != .starting || s.pwr.step ≠ 3 || s.lanes.any (fun e => e.2.st.training) then s
    else
      let s := ((s.enterPwr .run).modPwr fun p => { p with ready := true }).putStart
      let prior := s.pwr.causeSrc.getLsbD 4 || s.pwr.causeSrc.getLsbD 7 || s.pwr.causeSrc.getLsbD 8
      let s := if prior then s.event 0x12 0x05 (toLe 4 s.pwr.cause) else s
      let s := s.sup.newLogs.foldl (fun (s : State) (e : Nat × Nat) => s.supEvent 9 [BitVec.ofNat 8 e.1, BitVec.ofNat 8 e.2]) s
      (s.modSup fun u => { u with newLogs := [] }).twinWait

/-- START_TIMEOUT (R471): 5 s after the release. -/
def execStartTimeout (s : State) : Host.Outcome State Fault Refusal :=
  .next (if s.pwr.st != .starting || !s.passed s.pwr.startAt (5000 * msCycles) then s else s.startFail (if !s.host.ready then 2 else min 5 (3 + s.pwr.step)))

/-- FAILED_START_CLEAR (R469, R473): 60 s in RUN or TRIM. -/
def execFailedStartClear (s : State) : Host.Outcome State Fault Refusal :=
  .next (if s.pwr.st.runs && s.passed s.pwr.runAt (60000 * msCycles) then (s.modPwr fun p => { p with fails := 0 }).putStart else s)

/-- ST_ALARM (R480): an armed alarm that ST has reached and SUP.WAKE_CFG.ST allows wakes a sleeping device. -/
def execStAlarm (s : State) : Host.Outcome State Fault Refusal :=
  .next (if s.pwr.st == .sleep && s.pwr.stAlarm && wbit (s.reg Reg.supWakeCfg) 0 && s.reached s.wakeSt then (s.modPwr fun p => { p with stAlarm := false }).wake 5 else s)

end Sys2Proof.Machine
end

