-- ==== Sys2Proof/Machine/Security.lean ====
section
/-! DEFINITION. Reopening a sealed device (R530 to R533), the TRNG (R541, R542), JTAG and the debug levels (R534 to R538), and the recovery loader's
commands (R539, R540). -/

namespace Sys2Proof.Machine

/-! ## Challenge and response (R530 to R533) -/

/-- The life-cycle state in force may be challenged (R530). -/
def State.mayChallenge (s : State) : Bool := s.nvm.lc == .sealed || s.nvm.lc == .ret

/-- Why a CHALLENGE does not draw (R530, R532, R541). -/
def State.challengeStatus (s : State) : Option Nat :=
  if !s.mayChallenge || decide (8 ≤ s.sec.respFails) then some stDenied
  else if !s.sec.rngReady then some stNotReady
  else none

/-- The 32 challenge bytes on a nonce (R530). -/
def State.challengeBytes (s : State) (nonce : List Byte) : List Byte :=
  nonce ++ toLe 8 (s.otpRead 0).toNat ++ [BitVec.ofNat 8 (lcCode s.nvm.lc), BitVec.ofNat 8 s.sec.respFails] ++ List.replicate 6 0

/-- CHALLENGE (R530, R531): it draws the live challenge and replaces an earlier one; a RESPONSE that has started and is not decided will complete DENIED. -/
def execChallenge (o : Nat) (s : State) : Host.Outcome State Fault Refusal :=
  .next <| opRun s o 0x70 noBad (fun _ s => s.challengeStatus) fun op s =>
    let (nonce, s) := s.freshBytes 16
    let c := s.challengeBytes nonce
    let s := s.modSec fun x => { x with chal := some c, chalAt := s.cycles }
    let s := { s with ops := s.ops.map fun (p : Op) => if p.code == 0x71 && p.accepted && !p.done then { p with applied := true } else p }
    ((s.emit (.hostWrite (op.u64 8) c)).commit op).complete op stOk

/-- The live challenge (R531): it ends 60 s after it was drawn. -/
def State.liveChal (s : State) : Option (List Byte) := if s.passed s.sec.chalAt (60000 * msCycles) then none else s.sec.chal

/-- A signature over the live challenge verifies under the integrator key (R523, R531). -/
def State.responseGood (s : State) (sig : List Byte) : Bool :=
  match s.liveChal, s.integratorKey with
  | some c, some k => ecdsaVerify k c sig
  | _, _ => false

/-- RESPONSE (R531, R533): it starts, and is decided once its signature has been read. The challenge it used ends with it; one that a CHALLENGE has
overtaken is DENIED and leaves the new challenge live. -/
def execResponse (o : Nat) (s : State) : Host.Outcome State Fault Refusal :=
  .next <| opRun s o 0x71 noBad noPre fun op s =>
    match op.data with
    | none => s.modOp op.tag fun p => { p with accepted := true }
    | some sig =>
      let s := s.commit op
      let fail := fun (s : State) => (s.modSec fun x => { x with respFails := satInc 15 x.respFails }).complete op stDenied
      if op.applied then fail s
      else
        let good := s.responseGood sig
        let s := s.modSec fun x => { x with chal := none }
        if good then (s.modNvm fun n => { n with reopened := true }).complete op stOk else fail s

/-- CHALLENGE_EXPIRY (R531): 60 s after it was drawn. -/
def execChallengeExpiry (s : State) : Host.Outcome State Fault Refusal := .next (if s.passed s.sec.chalAt (60000 * msCycles) then s.modSec fun x => { x with chal := none } else s)

/-! ## TRNG (R541, R542) -/

/-- RNG_READ (R541, R542): `n` more bytes are drawn and written; the operation ends once LEN bytes have been, or, PARTIAL, at a health failure. -/
def execRngRead (o : Nat) (n : Nat) (s : State) : Host.Outcome State Fault Refusal :=
  let bad := fun (op : Op) (_ : State) => !decide (1 ≤ op.u16 8 ∧ op.u16 8 ≤ 4096)
  .next <| opRun s o 0x72 bad (fun _ s => if s.sec.rngReady then none else some stNotReady) fun op s =>
    let k := op.step
    let m := min n (op.u16 8 - k)
    let (b, s) := s.freshBytes m
    let s := (((s.emit (.hostWrite (op.u64 0x10 + k) b)).commit op).acceptOp op.tag).modOp op.tag fun p => { p with step := k + m }
    if k + m < op.u16 8 then s else s.complete op stOk 0 (k + m)

/-- The TRNG runs: not in SLEEP, not in OFF (R542). -/
def State.rngRuns (s : State) : Bool := !(s.pwr.st == .sleep || s.pwr.st == .off)

/-- TRNG_READY (R541). -/
def execTrngReady (s : State) : Host.Outcome State Fault Refusal := .next (if s.rngRuns then s.modSec fun x => { x with rngReady := true } else s)

/-- TRNG_HEALTH_FAIL (R542): an RNG_READ that is running ends PARTIAL, with the bytes drawn before. -/
def execTrngHealthFail (s : State) : Host.Outcome State Fault Refusal :=
  .next <|
    if !s.rngRuns then s
    else
      let s := s.modSec fun x => { x with rngReady := false, rngFails := satInc 0xFFFF x.rngFails }
      (s.ops.filter fun (o : Op) => o.code == 0x72 && o.accepted && !o.done).foldl (fun (s : State) (o : Op) => s.complete o stPartial 0 o.step) s

/-! ## JTAG (R534 to R538) -/

/-- The TAP works while VIO18 is up (R534). -/
def State.tapUp (s : State) : Bool := s.railIn 4

/-- The debug level in force (R536): 0 CLOSED, 1 SCAN, 2 OPEN. -/
def State.dbgLevel (s : State) : Nat :=
  match s.nvm.lc with
  | .blank | .vendor | .integration => 2
  | .sealed => if s.nvm.reopened then 2 else if s.pwr.st == .basting then 1 else 0
  | .ret => if s.nvm.reopened then 2 else 1
  | .void => 1

/-- SEC.DBG_CTL.SCAN_EN. -/
def State.scanEn (s : State) : Bool := wbit (s.reg Reg.secDbgCtl) 0

/-- The instruction that a code acts as (R535, R537): one that the level or SCAN_EN does not allow, and a reserved one, acts as BYPASS. -/
def State.tapActs (s : State) (ir : Byte) : Byte :=
  let lvl := s.dbgLevel
  match ir.toNat with
  | 0x01 => 0x01
  | 0x02 => if 1 ≤ lvl then 0x02 else 0xFF
  | 0x03 => if 1 ≤ lvl && s.scanEn then 0x03 else 0xFF
  | 0x04 => if 1 ≤ lvl && s.scanEn then 0x04 else 0xFF
  | 0x05 => if 1 ≤ lvl && s.scanEn then 0x05 else 0xFF
  | 0x10 => if lvl = 2 then 0x10 else 0xFF
  | _ => 0xFF

/-- PART of GLOBAL.ID and IDCODE (R535). -/
def State.part (s : State) : Nat := 0x5A10 + s.grade.toNat

/-- IDCODE (R535, R568). -/
def State.idcode (s : State) : Word := putf 28 4 1 ||| putf 12 16 s.part ||| putf 1 11 0x2D7 ||| 1

/-- An instruction is loaded and a register is scanned: what TDO shows is the captured register (R534, R535). Without its supply the TAP does nothing (R536). -/
def State.tapLoad (s : State) (ir : Byte) (capture : DWord) : State :=
  if !s.tapUp then s
  else
    let a := s.tapActs ir
    (s.modSec fun c => { c with tapIr := ir }).emit (.jtag a (if a = 0xFF then 0 else capture))

/-- JTAG_IDCODE (R535). -/
def execJtagIdcode (s : State) : Host.Outcome State Fault Refusal := .next (s.tapLoad 0x01 (s.idcode.setWidth 64))

/-- JTAG_SAMPLE_PRELOAD (R535, R537): the pins are captured, and the boundary-scan register takes what is shifted in. -/
def execJtagSamplePreload (pins preload : DWord) (s : State) : Host.Outcome State Fault Refusal :=
  let t := s.tapLoad 0x02 pins
  .next (if s.tapUp && s.tapActs 0x02 = 0x02 then t.modSec fun c => { c with bsr := preload } else t)

/-- JTAG_EXTEST (R535, R537): the pins are driven from the boundary-scan register. -/
def execJtagExtest (s : State) : Host.Outcome State Fault Refusal := .next (s.tapLoad 0x03 s.sec.bsr)

/-- JTAG_CLAMP (R535, R537): the pins stay as the boundary-scan register holds them; the bypass register is scanned. -/
def execJtagClamp (s : State) : Host.Outcome State Fault Refusal := .next (s.tapLoad 0x04 0)

/-- JTAG_HIGHZ (R535, R537). -/
def execJtagHighz (s : State) : Host.Outcome State Fault Refusal := .next (s.tapLoad 0x05 0)

/-- JTAG_BYPASS (R535): BYPASS, or any code that acts as it. -/
def execJtagBypass (ir : Byte) (s : State) : Host.Outcome State Fault Refusal := .next (s.tapLoad ir 0)

/-- TAP_RESET (R534): Test-Logic-Reset selects IDCODE. -/
def execTapReset (s : State) : Host.Outcome State Fault Refusal := .next (s.modSec fun c => { c with tapIr := 0x01 })

/-- SCAN_EN may be set (R537). -/
def State.mayScan (s : State) : Bool := s.pwr.st == .basting || (s.twin.st == .off && s.lanes.all fun e => e.2.st == .off)

/-- A write of SEC.DBG_CTL (R537): a 1 is ignored unless SCAN_EN may be set. -/
def State.dbgCtlWrite (s : State) (v : Word) : State :=
  if wbit v 0 && !s.mayScan then s else s.setReg Reg.secDbgCtl 0 (v &&& 1)

/-- SCAN_EN_WRITE (R537). -/
def execScanEnWrite (v : Word) (s : State) : Host.Outcome State Fault Refusal := .next (s.dbgCtlWrite v)

/-! ## Recovery loader (R539, R540) -/

/-- A command of REC.CTL acts in BASTING with its key, while none runs (R539, R540). -/
def recCmd (key : Byte) (s : State) (f : State → State) : State :=
  if key ≠ 0x5A || s.pwr.st != .basting || s.sec.recBusy then s else f s

/-- The recovery command has ended with a RESULT. -/
def State.recEnd (s : State) (r : Nat) : State := s.modSec fun c => { c with recResult := r }

/-- The bank that LOAD installs into (R540): one without a valid record, or the one with the earlier GEN. -/
def State.recTarget (s : State) : Bool :=
  match s.bankGen false, s.bankGen true with
  | some a, some b => slotAfter a b
  | some _, none => true
  | none, _ => false

/-- Start the installation of a checked image (R528, R540): the other bank counts as the running one, whose GEN the new record follows. -/
def State.recInstall (s : State) (b : List Byte) : State :=
  let t := s.recTarget
  let s := s.modSec fun c => { c with bank := !t, gen := wordN ((s.bankGen (!t)).getD 0), recBusy := true, recResult := 0, staged := some (recTag, b), recOp := [] }
  (s.modNvm fun n => { n with waitHost := n.waitHost ++ [recTag] }).nvmServe

/-- REC_LOAD (R540): the image is read and checked under R526, and installed. -/
def execRecLoad (key : Byte) (d : HostRead) (s : State) : Host.Outcome State Fault Refusal :=
  .next <| recCmd key s fun s =>
    if s.nvm.lc == .void then s.recEnd 2
    else match d with
      | .failed => s.recEnd 4
      | .data b =>
        match s.imageStatus b 1 with
        | some st => s.recEnd (if st = stDenied then 2 else 3)
        | none => s.recInstall b

/-- REC_CLEAR (R475, R540): a failed-start count of 0 is written to the start record. -/
def execRecClear (key : Byte) (s : State) : Host.Outcome State Fault Refusal :=
  .next <| recCmd key s fun s => ((s.modPwr fun p => { p with fails := 0 }).putStart).recEnd 1

/-- REC_RESET (R540): the HOST reset source. -/
def execRecReset (key : Byte) (s : State) : Host.Outcome State Fault Refusal := .next (recCmd key s fun s => s.raiseRst .host)

end Sys2Proof.Machine
end

