-- ==== Sys2Proof/Machine/Regs.lean ====
section
/-! DEFINITION. What the set-up registers read (R564 to R568 and every register description): the fields that the device maintains, per block, and the word
composed of them and of what software has written. The model numbers BAR2 from 0x10_0000 and the recovery registers from 0x20_0000. -/

namespace Sys2Proof.Machine

/-! ## State codes -/

/-- LINK.LANE_STAT.STATE (R100). -/
def laneCode : LaneState → Nat
  | .off => 0 | .locking => 1 | .measuring => 2 | .aligning => 3 | .configuring => 4 | .ready => 5 | .run => 6 | .parked => 7 | .fault => 8

/-- ENG_STATE (R150). -/
def engCode : EngState → Nat
  | .off => 0 | .loaded => 1 | .run => 2 | .relieved => 3 | .stalled => 4 | .guardLatched => 5

/-- RAIL.RAIL_STAT.STATE (R168). -/
def railCode : RailState → Nat
  | .off => 0 | .stopped => 1 | .armed => 2 | .run => 3 | .envTrip => 4 | .standby => 5

/-- TIME.DISC_STAT.STATE (R215). -/
def discCode : DiscState → Nat
  | .free => 0 | .acquiring => 1 | .tracking => 2 | .holdover => 3

/-- TIME.ENC_STAT.STATE (R223). -/
def encCode : EncState → Nat
  | .off => 0 | .relative => 1 | .valid => 2 | .fault => 3

/-- TIME.CYC_STAT.STATEk (R227). -/
def cycCode : CycState → Nat
  | .unbound => 0 | .invalid => 1 | .acquiring => 2 | .tracking => 3 | .holdover => 4

/-- CAPTURE.BOB_STAT.STATE (R373). -/
def bobCode : BobState → Nat
  | .unconfigured => 0 | .idle => 1 | .armed => 2 | .post => 3 | .locked => 4 | .draining => 5 | .stalled => 6 | .gap => 7 | .isolated => 8

/-- TWIN.STAT.STATE (R394). -/
def twinCode : TwinState → Nat
  | .off => 0 | .solo => 1 | .active => 2 | .joining => 3 | .shadow => 4 | .taking => 5 | .detached => 6

/-- SUP.PWR_STAT.STATE. -/
def pwrCode : PwrState → Nat
  | .reset => 0 | .starting => 1 | .run => 2 | .trim => 3 | .park => 4 | .sleep => 5 | .basting => 6 | .off => 7

/-- SUP.THR_STAT states. -/
def thrtCode : ThrtState → Nat
  | .normal => 0 | .requested => 1 | .enforced => 2

/-! ## Fields that the device maintains -/

/-- LINK (R99, R100). -/
def State.roLink (s : State) (off n : Nat) : Word :=
  let l := s.lane n
  if off = Reg.linkLaneStat then
    putf 28 4 (laneCode l.st) ||| putf 24 4 l.cause.toNat ||| putf 16 8 l.flight.toNat ||| putb 12 (l.status.getLsbD 9) ||| putf 0 12 l.status.toNat
  else 0

/-- ENGINE (R114, R115, R150). RELIEF shows who serves the cell; the other fields are of that engine. -/
def State.roEngine (s : State) (off n : Nat) : Word :=
  let l := s.lane n
  let e := s.eng (s.serving n)
  if off = Reg.engineCellStat then
    putf 28 4 (engCode (s.eng n).st) ||| putf 24 4 (s.gsetOf n) ||| putf 11 13 e.ppCycles ||| putb 7 (s.serving n != n) ||| putb 6 l.latched ||| putb 5 e.ppFault
      ||| putb 4 e.overrun ||| putf 0 4 l.hitsLast.toNat
  else if off = Reg.engineGuardCtl then putb 31 s.guardOtp ||| putb 0 s.guardRej
  else if off = Reg.engineGuardData then s.guardWord n
  else 0

/-- A rising edge of SYNC_IN came within the last ms (RAIL.SYNC_STAT.PRESENT). -/
def State.syncPresent (s : State) : Bool :=
  match s.sync.lastEdge with
  | some t => decide ((s.time.st - t).toNat ≤ 16000000)
  | none => false

/-- RAIL (R168, R187, R192, R196, R205). -/
def State.roRail (s : State) (off m : Nat) : Word :=
  let r := s.rail m
  if off = Reg.railRailStat then
    putf 28 4 (railCode r.st) ||| putf 24 4 (if r.isKind 0 || r.isKind 3 then r.sub else 0) ||| putf 16 8 r.flags
      ||| putf 0 16 (toTwos 16 (clampI (-32768) 32767 (roundDiv r.pMeas 10)))
  else if off = Reg.railChgEvt then (if r.isKind 3 then r.chgEvt.setWidth 32 else 0)
  else if off = Reg.railSyncStat then
    putf 8 24 s.sync.period.toNat ||| putb 2 s.sync.lost ||| putb 1 (s.rails.any fun e => e.2.acquired) ||| putb 0 s.syncPresent
  else 0

/-- TIME (R206 to R228). -/
def State.roTime (s : State) (off k : Nat) : Word :=
  let e := s.enc k
  if off = Reg.timeStLo then s.time.st.setWidth 32
  else if off = Reg.timeStHi then s.time.stHi
  else if off = Reg.timeDiscStat then
    putf 28 4 (discCode s.time.disc) ||| putb 27 s.time.stepRej ||| putb 26 s.time.ppsRej ||| putf 0 24 (toTwos 24 s.time.freqAdj)
  else if off = Reg.timePpsErr then wordI (clampI (-2147483648) 2147483647 s.time.ppsErr)
  else if off = Reg.timeEncStat then putf 28 4 (encCode e.st) ||| putf 24 4 e.cause.toNat ||| putf 16 8 e.faults
  else if off = Reg.timeEncAngle then wordI e.sample
  else if off = Reg.timeEncTurn then e.turnLatch
  else if off = Reg.timeEncSpeed then e.speedLatch
  else if off = Reg.timeCycStat then (List.range 4).foldl (fun w i => w ||| putf (4 * i) 4 (cycCode (s.cyc i).st)) 0
  else 0

/-- PLAN (R240 to R284). -/
def State.roPlan (s : State) (off : Nat) : Word :=
  let p := s.plan
  if off = Reg.planStat then
    putb 31 p.pass.isSome ||| putb 30 p.lockErr ||| putb 29 p.carried ||| putb 28 p.shedShort ||| putb 27 p.clamped ||| putb 26 p.uncovered ||| putf 0 13 p.reqs.length
  else if off = Reg.planSlotNow then p.slotNow
  else if off = Reg.planTripStat then putf 16 8 p.shedActive.toNat ||| putf 8 8 p.latch.toNat ||| putf 0 8 p.level.toNat
  else if off = Reg.planLedgerData then
    let w := s.reg Reg.planLedgerSel
    wordN (s.ledgerLe (0x3C000 + 32 * fld w 8 0 + 4 * fld w 12 10) 4)
  else 0

/-- PATTERN (R299, R316, R318). -/
def State.roPattern (s : State) (off k : Nat) : Word :=
  if off = Reg.patternThrStat then
    let x := s.thr k
    putf 28 4 (thrCode x.st) ||| putf 24 4 x.cause.toNat ||| putb 23 x.inFast ||| putb 22 x.inNormal ||| putb 21 (x.held != []) ||| putf 0 16 x.pc
  else if off = Reg.patternEvPend then (s.pend k).setWidth 32
  else if off = Reg.patternStat then
    putb 31 s.deadlock ||| putb 30 s.foreign ||| putf 16 4 s.broken.toNat ||| putf 0 16 (sumN ((List.range 16).map fun t => 2 ^ t * b2n ((s.thr t).st == .faulted)))
  else 0

/-- HOST (R327, R331, R352, R358). -/
def State.roHost (s : State) (off k : Nat) : Word :=
  if off = Reg.hostStat then putb 31 s.host.ready ||| putb 30 s.host.dbErr ||| putb 29 s.fetchHold ||| putf 0 13 s.inFlight.length
  else if off = Reg.hostRingCfg then putb 31 (s.ring k).en
  else if off = Reg.hostRingStat then
    let r := s.ring k
    let dev := decide (64 ≤ k ∧ k ≤ eqKey)
    putf 28 4 r.st ||| putf 24 4 r.cause ||| putb 16 (dev && r.phase) ||| putf 0 16 (if dev then r.prod else r.cons)
  else if off = Reg.hostEvStat then putf 24 8 s.host.heldLost ||| putf 16 8 s.host.lossyLost ||| putf 0 14 s.eqHeld.length
  else 0

/-- Armed write rate of capture memory in GB/s (R364): 200 bytes per lane and 64 ns, over DEC; the spec states no rounding (log entry 7). -/
def State.rateGb (s : State) : Nat :=
  let r := s.armedRate (0, 1)
  (roundDiv (25 * (r.1 : Int)) (8 * max 1 r.2)).toNat

/-- CAPTURE and TRACE (R364, R366, R373, R374). -/
def State.roCapture (s : State) (off b : Nat) : Word :=
  if off = Reg.captureBobStat then
    let x := s.bob b
    putf 28 4 (bobCode (s.bobState b)) ||| putb 19 x.bound.isSome ||| putf 16 3 (x.bound.getD 0) ||| putf 0 16 x.missed
  else if off = Reg.captureMemStat then putf 20 12 s.rateGb ||| putb 16 s.cap.ue ||| putf 0 16 s.cap.ce
  else if off = Reg.traceStat then putb 31 s.traceEn ||| putb 30 s.cap.halted ||| putf 0 18 s.traceFill
  else 0

/-- TWIN (R391 to R417). -/
def State.roTwin (s : State) (off : Nat) : Word :=
  let t := s.twin
  if off = Reg.twinStat then
    putf 28 4 (twinCode t.st) ||| putf 26 2 (roleOf t) ||| putb 25 t.aligned ||| putb 24 t.link ||| putf 16 8 t.dvUp.toNat ||| putb 15 t.aliveIn ||| putb 14 t.reqIn
      ||| putb 13 t.cmdRej ||| putb 12 t.termErr ||| putf 0 11 s.masterCount.2
  else if off = Reg.twinTerm then t.term
  else if off = Reg.twinAlign then putf 16 16 t.realigns ||| putf 0 16 t.crcDiv
  else if off = Reg.twinLoss then t.loss.setWidth 32
  else 0

/-- EN of SUP.SEQ_STAT: in OFF, VNV is on while a log write runs (R419). -/
def State.enShown (s : State) : Nat := s.sup.en.toNat ||| (if s.pwr.st == .off && s.nvm.job.isSome then 2 else 0)

/-- SUP, monitors (R418 to R443). -/
def State.roSup0 (s : State) (off i : Nat) : Word :=
  let u := s.sup
  if off = Reg.supSeqStat then putf 28 4 u.seq ||| putf 24 4 u.firstFail ||| putf 12 12 s.inWin ||| putf 0 12 s.enShown
  else if off = Reg.supVinStat then putb 31 u.brace ||| putf 16 12 u.snap.toNat ||| putf 0 12 (u.vinMin.getD u.vin)
  else if off = Reg.supWcStat then putf 30 2 (wcCode (s.wc i).rd) ||| putf 28 2 (s.wc i).stres ||| putb 27 (s.wc i).stbusy
  else if off = Reg.supWcCapt then (s.wc i).capt
  else if off = Reg.supHkStat then putb 31 u.hkBusy ||| putb 30 u.hkMarkErr ||| putf 0 16 u.hkOverrun
  else if Reg.supHkRes ≤ off ∧ off < Reg.supHkRes + 64 then tabGet (fun _ => (0 : Word)) u.hkRes ((off - Reg.supHkRes) / 4)
  else if Reg.supTemp ≤ off ∧ off < Reg.supTemp + 20 then tabGet (fun _ => (0 : Word)) u.temps ((off - Reg.supTemp) / 4)
  else if off = Reg.supThrStat then putf 8 4 u.hot.toNat ||| putf 2 2 (thrtCode u.ana) ||| putf 0 2 (thrtCode u.bulk)
  else 0

/-- ms to the watchdog's expiry (SUP.WDT_STAT.REMAIN), at the nominal rate of its RC oscillator (R449; log entry 54). -/
def State.wdtRemain (s : State) : Nat := if s.sup.wdtRun then s.wdtTimeout - (s.cycles - s.sup.wdtSince) / msCycles else 0

/-- SUP, clock, watchdog, button, reset and power, NVM window (R444 to R458, R489, R490, R506). -/
def State.roSup1 (s : State) (off : Nat) : Word :=
  let u := s.sup
  let p := s.pwr
  if off = Reg.supRtcCtl then putb 31 u.osf ||| putb 30 u.rtcRej
  else if off = Reg.supWdtCtl then putb 30 u.wdtRun
  else if off = Reg.supWdtStat then putb 31 u.warned ||| putf 16 8 u.badKey ||| putf 0 16 s.wdtRemain
  else if off = Reg.supPbStat then putb 31 u.pressed ||| putb 30 u.short ||| putf 0 16 u.pbHeld
  else if off = Reg.supRstCause then wordN p.cause
  else if off = Reg.supStartStat then
    putf 28 4 p.fails ||| putf 24 4 p.stage ||| putf 16 8 p.planStatus.toNat ||| putf 8 6 p.planIdx ||| putb 2 p.planErr ||| putb 1 p.planDone ||| putb 0 p.ready
  else if off = Reg.supPwrStat then putf 28 4 (pwrCode p.st) ||| putf 24 4 p.wakeCause.toNat
  else if off = Reg.supPwrCtl then putb 4 p.rej
  else if off = Reg.supNvmwCtl then putb 29 s.nvm.twBusy ||| putb 28 s.nvm.twErr
  else if Reg.supNvmwBuf ≤ off ∧ off < Reg.supNvmwBuf + 256 then
    wordN (leAt ((List.range 4).map fun i => tabGet (fun _ => (0 : Byte)) s.nvm.twBuf (off - Reg.supNvmwBuf + i)) 0 4)
  else 0

/-- NVM.STAT.OWNER. -/
def NvmOwner.code : NvmOwner → Nat
  | .host _ => 1 | .image _ _ => 1 | .twowire => 2 | .supervisor _ => 3

/-- NVM (R501 to R522). -/
def State.roNvm (s : State) (off : Nat) : Word :=
  let n := s.nvm
  if off = Reg.nvmStat then
    match n.job with
    | some j => putb 31 true ||| putf 29 2 j.owner.code ||| putb 28 s.sup.brace ||| putf 0 12 j.page
    | none => putb 28 s.sup.brace
  else if off = Reg.nvmCtl then putf 4 4 n.fails ||| putb 3 n.rej ||| putb 1 n.unlocked
  else if off = Reg.nvmOtpSel then putb 29 n.otpRedir
  else if off = Reg.nvmOtpLo then n.otpLo
  else if off = Reg.nvmOtpHi then n.otpHi
  else if off = Reg.nvmLcStat then
    putf 28 4 (lcCode n.lc) ||| putb 27 n.interrupted ||| putb 26 n.pendingSeal ||| putb 25 n.reopened ||| putb 24 n.otpFull ||| putf 16 8 n.redir.length
  else 0

/-- SEC, REC and SAFETY (R524 to R548, R555, R556). -/
def State.roSec (s : State) (off : Nat) : Word :=
  let c := s.sec
  if off = Reg.secStat then putf 30 2 s.dbgLevel ||| putb 29 s.nvm.reopened ||| putb 28 s.liveChal.isSome ||| putf 24 4 c.respFails
  else if off = Reg.secFwStat then putb 31 c.bank ||| putb 30 c.otherValid ||| putf 0 16 c.gen.toNat
  else if off = Reg.secRngStat then putb 31 c.rngReady ||| putf 0 16 c.rngFails
  else if off = Reg.secTwStat then
    putb 31 c.hang ||| putb 30 (s.pwr.st == .basting || s.nvm.lc == .blank || s.nvm.lc == .vendor) ||| putf 28 2 c.adr.toNat ||| putf 0 16 c.nacks
  else if off = Reg.recStat then putf 28 4 (lcCode s.nvm.lc) ||| putf 24 4 s.pwr.fails ||| putf 20 4 s.pwr.stage ||| putb 19 c.recBusy ||| putf 16 3 c.recResult
  else if off = Reg.safetyStat then s.safetyStat.setWidth 32
  else if off = Reg.safetyEcc then putf 16 16 s.ue ||| putf 0 16 s.ce
  else 0

/-- GLOBAL (R565, R568 to R571). -/
def State.roGlobal (s : State) (off : Nat) : Word :=
  let q := quartersOf s.grade
  if off = Reg.globalId then putf 28 4 1 ||| putf 12 16 s.part ||| putf 0 2 s.grade.toNat
  else if off = Reg.globalCap then putf 16 11 (256 * q) ||| putf 8 8 (16 * q) ||| putf 0 4 (2 ^ q - 1)
  else if off = Reg.globalRev then 0x01010000
  else if off = Reg.globalDieIdLo then (s.otpRead 0).setWidth 32
  else if off = Reg.globalDieIdHi then (s.otpRead 0 >>> 32).setWidth 32
  else if off = Reg.globalSealStat then putb 31 s.sealForce ||| putb 30 s.pwr.applied ||| putf 8 8 s.pwr.appliedRows ||| putf 0 8 s.pwr.badRows
  else if off = Reg.globalAccErr then putf 0 16 s.host.accErr
  else 0

/-- The fields of the register at an offset and window position that the device maintains. -/
def State.roBits (s : State) (off ix : Nat) : Word :=
  match off / 65536 with
  | 0 => s.roGlobal off
  | 1 => s.roHost off ix
  | 2 => s.roLink off ix
  | 3 => s.roEngine off ix
  | 4 => s.roRail off ix
  | 5 => s.roTime off ix
  | 6 => s.roPlan off
  | 7 => s.roPattern off ix
  | 8 | 14 => s.roCapture off ix
  | 9 => s.roTwin off
  | 10 => if off < Reg.supThrStat + 4 then s.roSup0 off ix else s.roSup1 off
  | 11 => s.roNvm off
  | 12 | 13 | 32 => s.roSec off
  | _ => 0

/-! ## Windows -/

/-- The window position that a register shows (R99 and alike, R567): none where the selection shows zeros, a lane, cell or rail of a fused quarter among them (R8). -/
def State.winIx (s : State) (p : Path) (w : Win) : Option Nat :=
  match w with
  | .none | .ledger => some 0
  | .lane => s.laneSel
  | .cell => let n := fld (s.reg Reg.engineCellSel) 9 0; if s.laneOk n then some n else none
  | .guard => let g := s.reg Reg.engineGuardWin; some (fld g 6 0 + 128 * b2n (wbit g 7))
  | .rail => let m := fld (s.reg Reg.railRailSel) 5 0; if s.railOk m then some m else none
  | .enc => some s.encSel
  | .src => let m := fld (s.reg Reg.planSrcSel) 5 0; if s.railOk m then some m else none
  | .thr => some (fld (s.reg Reg.patternThrSel) 3 0)
  | .ev => let e := fld (s.reg Reg.patternEvSel) 8 0; if e = 511 then none else some e
  | .ring => s.ringSel
  | .bob => some (fld (s.reg Reg.captureBobSel) 2 0)
  | .wc => some (s.wcSel p)

/-! ## Reading -/

/-- The PLAN.SHED registers show the last pass's entries (R285): AUTO, which the reserved MODE acts as. -/
def State.shedAuto (s : State) : Bool := fld (s.reg Reg.planShedCfg) 31 30 == 0 || fld (s.reg Reg.planShedCfg) 31 30 == 3

/-- The word of PLAN.SHED_LOi or PLAN.SHED_HIi that the last pass computed (R285). -/
def State.shedWord (s : State) (off : Nat) : Word :=
  let k := (off - Reg.planShedLo) / 4
  let row := s.plan.shed.getD (k / 2) []
  wordN (sumN ((List.range 4).map fun j => 256 ^ j * (row.getD (4 * (k % 2) + j) 0)))

/-- The bits of a register that software has written, as they read: some read otherwise for the part of the state that R205, R285, R524, R567 and R569 name. -/
def State.rwBits (s : State) (p : Path) (off ix : Nat) (r : RegRow) : Word :=
  let v := s.reg off ix &&& (r.rw ||| r.rws)
  if off = Reg.railChgIrqEn then (if (s.rail ix).isKind 3 then v else 0)
  else if off = Reg.planSrcCfg then (if (s.rail ix).isKind 0 then v else 0)
  else if off = Reg.planSrcE then (if (s.rail ix).isKind 3 then v else 0)
  else if off = Reg.engineGuardData then 0
  else if off = Reg.hostRingCfg then v &&& 0x7FFFFFFF
  else if Reg.planShedLo ≤ off ∧ off < Reg.planShedLo + 64 then (if s.shedAuto then s.shedWord off else v)
  else if off = Reg.supWcSel then wordN (s.wcSel p)
  else if Reg.secKeyHash ≤ off ∧ off < Reg.secKeyHash + 32 then (if s.sealForce then s.keyHash.getD ((off - Reg.secKeyHash) / 4) 0 else v)
  else if off = Reg.nvmCtl then (if s.sealForce then (v &&& 1) ||| putb 8 (s.fuse 0) else v)
  else v

/-- The pages of BAR2 besides NUDGE (R319): the MSI-X table's words, and the PBA. -/
def State.bar2Read (s : State) (off : Nat) : Word :=
  if off < Reg.bar2Msix + 1024 then s.reg off
  else if off < Reg.bar2Pba + 8 ∧ Reg.bar2Pba ≤ off then wordN (sumN ((s.host.pba.filter fun v => v / 32 == (off - Reg.bar2Pba) / 4).map fun v => 2 ^ (v % 32)))
  else 0

/-- The word that a register reads, the calendar apart (R445). -/
def State.regValue (s : State) (p : Path) (off : Nat) : Word :=
  if Reg.bar2Msix ≤ off ∧ off < Reg.recStat then s.bar2Read off
  else if Reg.supNvmwBuf ≤ off ∧ off < Reg.supNvmwBuf + 256 then s.roSup1 off
  else match regRowAt off with
    | none => 0
    | some r =>
      match s.winIx p r.win with
      | none => 0
      | some ix => s.rwBits p off ix r ||| s.roBits off ix

/-- What a read does besides returning its word: RC fields clear (R566), ST_LO and ENC_ANGLE latch (R209, R217). -/
def State.afterRead (s : State) (off : Nat) : State :=
  if off = Reg.timeStLo then { s with time := { s.time with stHi := (s.time.st >>> 32).setWidth 32 } }
  else if off = Reg.timeEncAngle then
    let e := s.enc s.encSel
    s.setEnc s.encSel { e with turnLatch := wordI (Int.fdiv e.sample 4294967296), speedLatch := wordI e.speed }
  else if off = Reg.hostEvStat then s.modHost fun h => { h with heldLost := 0, lossyLost := 0 }
  else if off = Reg.captureBobStat then s.modBob (fld (s.reg Reg.captureBobSel) 2 0) fun b => { b with missed := 0 }
  else if off = Reg.captureMemStat then { s with cap := { s.cap with ce := 0 } }
  else if off = Reg.twinAlign then s.modTwin fun t => { t with realigns := 0, crcDiv := 0 }
  else if off = Reg.supVinStat then s.modSup fun u => { u with vinMin := none }
  else if off = Reg.supHkStat then s.modSup fun u => { u with hkOverrun := 0 }
  else if off = Reg.supWdtStat then s.modSup fun u => { u with badKey := 0 }
  else if off = Reg.secRngStat then s.modSec fun c => { c with rngFails := 0 }
  else if off = Reg.secTwStat then s.modSec fun c => { c with nacks := 0 }
  else if off = Reg.safetyEcc then { s with ue := 0, ce := 0 }
  else if off = Reg.globalAccErr then s.modHost fun h => { h with accErr := 0 }
  else s

/-- A read of a register on a path (R13, R445, R566). -/
def State.regRead (s : State) (p : Path) (off : Nat) : Word × State :=
  if Reg.supRtcSec ≤ off ∧ off < Reg.supRtcSec + 24 then s.rtcGet p ((off - Reg.supRtcSec) / 4)
  else (s.regValue p off, s.afterRead off)

end Sys2Proof.Machine
end

