-- ==== Sys2Proof/Machine/Bus.lean ====
section
/-! DEFINITION. Writes of the set-up registers (R13, R15, R564 to R567) and the reads and writes of registers without a command of their own. -/

namespace Sys2Proof.Machine

/-! ## Where an access lands -/

/-- The register that an offset names on a path, by the numbers of RegMap: in BASTING, BAR0 holds the recovery registers and, at 0x1_0000, the supervisor space (R539); the
two-wire port reaches the supervisor space only (R418, R543). -/
def State.busReg (s : State) (p : Path) (off : Nat) : Option Nat :=
  match p with
  | .twowire => if 0xA0000 ≤ off ∧ off < 0xB0000 then some off else none
  | .firmware => if off < 0x100000 then some off else none
  | .bar0 =>
    if s.host.perst then none
    else if s.pwr.st == .basting then
      (if off < 0x10 then some (Reg.recStat + off) else if 0x10000 ≤ off ∧ off < 0x20000 then some (off + 0x90000) else none)
    else if s.ringsUp && decide (off < 0x104000) then some off else none

/-! ## Commands in registers -/

/-- The state that another command's meaning leaves; a register write that spells that command does what it does. -/
def nextOf (s : State) (r : Host.Outcome State Fault Refusal) : State :=
  match r with
  | .next t => t
  | _ => s

/-- KEY of a command register. -/
def keyOf (v : Word) : Byte := BitVec.ofNat 8 (fld v 31 24)

/-- A write of TWIN.CTL (R417): a reserved command is ignored. -/
def State.twinCtlWrite (s : State) (v : Word) : State :=
  match fld v 3 0 with
  | 1 => nextOf s (execTwinYield (keyOf v) s)
  | 2 => nextOf s (execTwinSolo (keyOf v) s)
  | 3 => nextOf s (execTwinDetach (keyOf v) s)
  | _ => s

/-- A write of SUP.PWR_CTL (R490): a reserved command sets REJ. -/
def State.pwrCtlWrite (s : State) (v : Word) : State :=
  let s := if wbit v 4 then s.modPwr fun p => { p with rej := false } else s
  match fld v 3 0 with
  | 0 => s
  | 1 => nextOf s (execPwrOffCmd (keyOf v) s)
  | 2 => nextOf s (execPwrTwinReset (keyOf v) s)
  | _ => if keyOf v = 0x5A then s.modPwr fun p => { p with rej := true } else s

/-- A write of NVM.CTL (R505, R522): MAINT_WRITE_LOCK, WDT_START_STG before the seal, REJ, and the command. -/
def State.nvmCtlWrite (s : State) (v : Word) : State :=
  let mask : Word := if s.isSealed then 0x001 else 0x101
  let s := s.setReg Reg.nvmCtl 0 (mergeBits mask (s.reg Reg.nvmCtl) v)
  let s := if wbit v 3 then s.modNvm fun n => { n with rej := false } else s
  match fld v 23 20 with
  | 0 => s
  | 1 => nextOf s (execSealLock (keyOf v) s)
  | 2 => nextOf s (execSetPwd (keyOf v) s)
  | 3 => nextOf s (execUnlock (keyOf v) s)
  | 4 => nextOf s (execRelock (keyOf v) s)
  | _ => if keyOf v = 0x5A then s.modNvm fun n => { n with rej := true } else s

/-- A write of REC.CTL (R540): CLEAR and RESET act; what LOAD reads at REC.ADDR comes with REC_LOAD, so that the write by itself only begins the read. -/
def State.recCtlWrite (s : State) (v : Word) : State :=
  match fld v 3 0 with
  | 2 => nextOf s (execRecClear (keyOf v) s)
  | 3 => nextOf s (execRecReset (keyOf v) s)
  | _ => s

/-! ## Registers with write rules of their own -/

/-- A write of SUP.WC_SEL: each path has its own (R567). -/
def State.wcSelWrite (s : State) (p : Path) (v : Word) : State :=
  match p with
  | .bar0 => s.setReg Reg.supWcSel 0 (v &&& 0xF)
  | .twowire => s.modSec fun c => { c with twWc := v.setWidth 4 }
  | .firmware => s.modSec fun c => { c with fwWc := v.setWidth 4 }

/-- Selected requests of event e that its route no longer brings to their thread as an interrupt are withdrawn (R302). -/
def State.withdrawRoute (s : State) (e : Nat) : State :=
  ((List.range 16).foldl (fun s t => if wbit (s.route e) 30 && wbit (s.route e) t then s else s.withdraw t e) s).selectAll

/-- A write of ENGINE.GUARD_DATA, as GUARD_DATA_WRITE. -/
def State.guardWrite (s : State) (v : Word) : State := nextOf s (execGuardDataWrite v s)

/-- A write of the mark word's last word arms it for housekeeping, in place of an earlier one (R229, R230, R436). -/
def State.hkArm (s : State) : State :=
  let w := (List.range 4).flatMap fun i => toLe 4 (s.reg (Reg.supHkMark + 4 * i)).toNat
  let s := s.marksCancel fun m => match m with | .housekeeping => true | _ => false
  if s.markBad w then s.modSup fun u => { u with hkMarkErr := true }
  else s.armMark .housekeeping w

/-- A write of an MSI-X table word (R319, R354): clearing a vector's mask sends the message that its mask held in the PBA. -/
def State.msixTableWrite (s : State) (off : Nat) (v : Word) : State :=
  let s := s.setReg off 0 v
  let k := (off - Reg.bar2Msix) / 16
  if off % 16 ≠ 12 then s
  else if wbit v 0 then s.modHost fun h => { h with msixMask := insertN h.msixMask k }
  else
    let held := s.host.pba.contains k
    let s := s.modHost fun h => { h with msixMask := h.msixMask.filter (· != k), pba := h.pba.filter (· != k) }
    if held then s.emit (.msix k) else s

/-- The bits of a register's RW and RWS fields that a write sets, with the fields whose reserved or out-of-range values leave them as they were (R15 and the registers' own
rules). -/
def State.writeMask (s : State) (off ix : Nat) (r : RegRow) (v : Word) : Word :=
  let m := r.rw ||| (if s.isSealed then 0 else r.rws)
  if off = Reg.timePpsOfs then (if fld v 29 0 < 1000000000 then m else 0)
  else if off = Reg.planSlotCfg then (if 250 ≤ fld v 14 0 ∧ fld v 14 0 ≤ 20000 then m else m &&& 0xFFFF8000)
  else if off = Reg.supVinCfg then (if fld v 11 0 ≤ fld v 27 16 then 0 else m)
  else if Reg.planShedLo ≤ off ∧ off < Reg.planShedLo + 64 then (if s.shedAuto then 0 else m)
  else if off = Reg.patternTagCfg then (if s.anyPatTag then 0 else m)
  else if off = Reg.railChgIrqEn then (if (s.rail ix).isKind 3 then m else 0)
  else if off = Reg.planSrcCfg then (if (s.rail ix).isKind 0 then m else 0)
  else if off = Reg.planSrcE then (if (s.rail ix).isKind 3 then m else 0)
  else if off = Reg.hostRingBaseLo ∨ off = Reg.hostRingBaseHi then (if (s.ring ix).en then 0 else m)
  else if off = Reg.hostRingMod then (if 64 ≤ ix ∧ ix ≤ eqKey then m else 0)
  else m

/-- What a write of a register does besides its RW and RWS fields: W1C bits clear, and a few registers act on the write. -/
def State.writeActs (s : State) (off ix : Nat) (v : Word) : State :=
  if off = Reg.engineGuardCtl then (if wbit v 0 then { s with guardRej := false } else s)
  else if off = Reg.railChgEvt then s.modRail ix fun r => { r with chgEvt := r.chgEvt &&& ~~~v.setWidth 10 }
  else if off = Reg.railSyncStat then (if wbit v 2 then { s with sync := { s.sync with lost := false } } else s)
  else if off = Reg.timeDiscStat then { s with time := { s.time with stepRej := s.time.stepRej && !wbit v 27, ppsRej := s.time.ppsRej && !wbit v 26 } }
  else if off = Reg.timeEncSsi then (if encType (s.reg Reg.timeEncCfg ix) = 2 && ssiBad v && (s.enc ix).st != .fault then s.encFault ix 7 else s)
  else if off = Reg.planStat then
    { s with plan := { s.plan with carried := s.plan.carried && !wbit v 29, shedShort := s.plan.shedShort && !wbit v 28, clamped := s.plan.clamped && !wbit v 27 } }
  else if off = Reg.planTripStat then { s with plan := { s.plan with latch := s.plan.latch &&& ~~~(v >>> 8).setWidth 8 } }
  else if off = Reg.patternEvPend then s.clearPend ix (v.setWidth 16)
  else if off = Reg.patternEvRoute then { s.withdrawRoute ix with routeAt := s.time.st }
  else if off = Reg.patternStat then { s with deadlock := s.deadlock && !wbit v 31, foreign := s.foreign && !wbit v 30 }
  else if off = Reg.hostStat then (if wbit v 30 then s.modHost fun h => { h with dbErr := false } else s)
  else if off = Reg.captureMemStat then (if wbit v 16 then { s with cap := { s.cap with ue := false } } else s)
  else if off = Reg.twinStat then s.modTwin fun t => { t with cmdRej := t.cmdRej && !wbit v 13, termErr := t.termErr && !wbit v 12 }
  else if off = Reg.twinLoss then s.modTwin fun t => { t with loss := t.loss &&& ~~~v.setWidth 5 }
  else if off = Reg.supWcStat then (if wbit v 27 then s.setWc ix { s.wc ix with stbusy := false } else s)
  else if off = Reg.supHkStat then (if wbit v 30 then s.modSup fun u => { u with hkMarkErr := false } else s)
  else if off = Reg.supHkMark + 12 then s.hkArm
  else if off = Reg.supRtcCtl then s.modSup fun u => { u with osf := u.osf && !wbit v 31, rtcRej := u.rtcRej && !wbit v 30 }
  else if off = Reg.supWdtStat then (if wbit v 31 then s.modSup fun u => { u with warned := false } else s)
  else if off = Reg.supPbStat then (if wbit v 30 then s.modSup fun u => { u with short := false } else s)
  else if off = Reg.supWakeStHi then s.modPwr fun p => { p with stAlarm := true }
  else if Reg.nvmPwd ≤ off ∧ off < Reg.nvmPwd + 16 then s.modNvm fun n => { n with pwd := tabSet (fun _ => (0 : Word)) n.pwd ((off - Reg.nvmPwd) / 4) v }
  else if off = Reg.safetyStat then { s with safetyStat := s.safetyStat &&& ~~~v.setWidth 7 }
  else s

/-- A write of a register by its access codes (R13): a register of a fused quarter, or one that its window does not show, ignores it (R8). -/
def State.plainWrite (s : State) (p : Path) (off : Nat) (v : Word) : State :=
  match regRowAt off with
  | none => s
  | some r =>
    match s.winIx p r.win with
    | none => s
    | some ix =>
      let m := s.writeMask off ix r v
      (if m = 0 then s else s.setReg off ix (mergeBits m (s.reg off ix) v)).writeActs off ix v

/-- A write of a register on a path. -/
def State.regWrite (s : State) (p : Path) (off : Nat) (v : Word) : State :=
  if off = Reg.linkLaneCtl then (match s.laneSel with | some n => s.laneCtl n v | none => s)
  else if off = Reg.engineGuardData then s.guardWrite v
  else if off = Reg.timeDiscCtl then s.discWrite v
  else if off = Reg.timeEncCfg then nextOf s (execEncCfgWrite v s)
  else if off = Reg.hostCtl then s.hostCtlWrite v
  else if off = Reg.hostRingCfg then (match s.ringSel with | some k => s.ringCfgWrite k v | none => s)
  else if off = Reg.twinCtl then s.twinCtlWrite v
  else if off = Reg.supPwrCtl then s.pwrCtlWrite v
  else if off = Reg.nvmCtl then s.nvmCtlWrite v
  else if off = Reg.nvmOtpSel then s.otpSelect v
  else if off = Reg.recCtl then s.recCtlWrite v
  else if off = Reg.supWcSel then s.wcSelWrite p v
  else if off = Reg.supWcCfg then s.wcCfgWrite p v
  else if off = Reg.supWdtCtl then s.wdtCtlWrite v
  else if off = Reg.supWdtKick then s.wdtKeyWrite v
  else if off = Reg.secDbgCtl then s.dbgCtlWrite v
  else if off = Reg.supNvmwCtl then (match p with | .twowire => s.nvmwWrite v | _ => s)
  else if Reg.supRtcSec ≤ off ∧ off < Reg.supRtcSec + 24 then s.rtcPut ((off - Reg.supRtcSec) / 4) v
  else if Reg.supNvmwBuf ≤ off ∧ off < Reg.supNvmwBuf + 256 then
    (match p with
    | .twowire => s.modNvm fun n => { n with twBuf := ((toLe 4 v.toNat).zipIdx).foldl (fun t (e : Byte × Nat) => tabSet (fun _ => (0 : Byte)) t (off - Reg.supNvmwBuf + e.2) e.1) n.twBuf }
    | _ => s)
  else if off = Reg.bar2Nudge then nextOf s (execNudge s)
  else if Reg.bar2Msix ≤ off ∧ off < Reg.bar2Msix + 1024 then s.msixTableWrite off v
  else s.plainWrite p off v

/-- RC_REGISTER_READ (R13, R566): the word is returned on its path, and the RC fields that it returned clear. An offset with no register reads 0. -/
def execRcRegisterRead (p : Path) (off : Nat) (s : State) : Host.Outcome State Fault Refusal :=
  .next <| match s.busReg p off with
    | some r => let (v, t) := s.regRead p r; t.deliver p v
    | none => s.deliver p 0

end Sys2Proof.Machine
end

