-- ==== Sys2Proof/Machine/Debug.lean ====
section
/-! DEFINITION. The debug chain that DBG_SEL selects (R538), and the restart of the lockstep pairs on a new firmware image with the set-up writes that it holds back (R528).
What the spec leaves open of the chain (the cores' register file and memory map) is in log entry 55. -/

namespace Sys2Proof.Machine

/-! ## Set-up writes while the management cores are away (R528, R538) -/

/-- A set-up write that the management firmware serves: one on BAR0 outside the supervisor space, while the cores restart or stand halted (log entry 55). -/
def State.writeWaits (s : State) (p : Path) (r : Nat) : Bool :=
  s.fwAway && p == .bar0 && decide (r < 0x100000) && !decide (0xA0000 ≤ r ∧ r < 0xB0000)

/-- REGISTER_WRITE (R13, R14, R528, R564, R566): an offset with no register ignores it; a set-up write that the management firmware serves waits while the firmware is away. -/
def execRegisterWrite (p : Path) (off : Nat) (v : Word) (s : State) : Host.Outcome State Fault Refusal :=
  .next <| match s.busReg p off with
    | some r => if s.writeWaits p r then s.modSec fun c => { c with fwWrites := c.fwWrites ++ [(r, v)] } else s.regWrite p r v
    | none => s

/-- Once the firmware runs again, the writes that waited are made, in the order in which they came. -/
def State.fwFlush (s : State) : State :=
  if s.fwAway then s
  else s.sec.fwWrites.foldl (fun (s : State) (w : Nat × Word) => s.regWrite .bar0 w.1 w.2) (s.modSec fun c => { c with fwWrites := [] })

/-- FIRMWARE_PAIR_RESTART (R528): one lockstep pair runs the new image; when both do, the load completes OK. A pair that fails its self-check raises SAFETY. -/
def execFirmwarePairRestart (pair : Fin 2) (good : Bool) (s : State) : Host.Outcome State Fault Refusal :=
  .next <| match s.sec.fwOp with
    | none => s
    | some tag =>
      if !good then s.raiseRst .safety
      else if bitOf s.sec.fwPairs pair then s
      else
        let done := s.sec.fwPairs + 2 ^ pair.val
        if done ≠ 3 then s.modSec fun c => { c with fwPairs := done }
        else
          let was := s.sec.bank
          let s := s.modSec fun c => { c with fwPairs := 0, fwOp := none, bank := !was, gen := c.gen + 1, otherValid := (s.bankGen was).isSome }
          let s := s.imageLeave tag
          (s.completeTag tag stOk).fwFlush

/-! ## The debug chain (R538) -/

/-- What the chain reaches is powered and out of reset: never in SLEEP, where OPEN reaches the chains of the supervisor die alone (R536). -/
def State.chainUp (s : State) : Bool := s.pwr.st.runs || s.pwr.st == .park || s.pwr.st == .basting || s.pwr.st == .starting

/-- The threads and the period-program memories are up as well: their dies have no supply in BASTING (R474). -/
def State.unitsUp (s : State) : Bool := s.chainUp && !(s.pwr.st == .basting)

/-- Registers that no chain reaches: hem guards and guard-set storage, the OTP programming controller, the key hash and the TRNG. -/
def dbgBarred (off : Nat) : Bool :=
  decide ((Reg.engineGuardCtl ≤ off ∧ off ≤ Reg.engineGuardData) ∨ (Reg.nvmOtpSel ≤ off ∧ off ≤ Reg.nvmOtpHi) ∨ (Reg.secKeyHash ≤ off ∧ off < Reg.secKeyHash + 32) ∨ off = Reg.secRngStat)

/-- A lockstep pair stands halted. -/
def Debug.halted (d : Debug) (pair : Fin 2) : Bool := bitOf d.pairs pair

/-- The pair goes on: what was read of its cores no longer holds. -/
def Debug.forget (d : Debug) (pair : Fin 2) : Debug := { d with regs := d.regs.filter fun (e : Nat × Word) => e.1 / 4096 != pair.val, mem := [] }

/-- Change the debug state. -/
def State.modDbg (s : State) (f : Debug → Debug) : State := s.modSec fun c => { c with dbg := f c.dbg }

/-- A word that the chain reads where the spec gives the cores no contents: what was read or written there before while they stood still, else a free word. -/
def dbgPeek (l : List (Nat × Word)) (k : Nat) (s : State) : Word × Option (Nat × Word) × State :=
  match l.find? fun (e : Nat × Word) => e.1 == k with
  | some e => (e.2, none, s)
  | none => let (w, s) := s.freshWord; (w, some (k, w), s)

/-- Register r of a core of a halted pair. -/
def State.coreRead (s : State) (pair : Fin 2) (r : Fin 4096) : Word × State :=
  if !s.sec.dbg.halted pair then (0, s)
  else
    let (w, e, s) := dbgPeek s.sec.dbg.regs (4096 * pair.val + r.val) s
    (w, match e with | some e => s.modDbg fun d => { d with regs := e :: d.regs } | none => s)

/-- A write of a core register of a halted pair. -/
def State.coreWrite (s : State) (pair : Fin 2) (r : Fin 4096) (v : Word) : State :=
  let k := 4096 * pair.val + r.val
  if !s.sec.dbg.halted pair then s else s.modDbg fun d => { d with regs := (k, v) :: d.regs.filter fun (e : Nat × Word) => e.1 != k }

/-- A word of the memory map of the cores: the registers of the block by their access codes and seals (R13, R518), or the cores' own memory. -/
def State.memRead (s : State) (adr : Nat) : Word × State :=
  if adr < 0x100000 then (if dbgBarred adr then (0, s) else s.regRead .firmware adr)
  else
    let (w, e, s) := dbgPeek s.sec.dbg.mem adr s
    (w, match e with | some e => s.modDbg fun d => { d with mem := e :: d.mem } | none => s)

/-- A write through the memory map of the cores. -/
def State.memWrite (s : State) (adr : Nat) (v : Word) : State :=
  if adr < 0x100000 then (if dbgBarred adr then s else s.regWrite .firmware adr v)
  else s.modDbg fun d => { d with mem := (adr, v) :: d.mem.filter fun (e : Nat × Word) => e.1 != adr }

/-- The thread that the chain has halted stands HALTED; the state it comes back to is kept. -/
def State.dbgHaltThr (s : State) (t : Fin 16) : State :=
  match (s.thr t).st with
  | .run | .wait => ((s.modDbg fun d => { d with threads := (t.val, (s.thr t).st) :: d.threads.filter fun (e : Nat × ThrState) => e.1 != t.val }).modThr t fun x => { x with sel := none }).thrTo t .halted
  | _ => s

/-- The state that the chain keeps for a thread it has halted. -/
def State.dbgThr (s : State) (t : Fin 16) : Option ThrState :=
  if (s.thr t).st != .halted then none else (s.sec.dbg.threads.find? fun (e : Nat × ThrState) => e.1 == t.val).map fun e => e.2

/-- The thread goes on. -/
def State.dbgResumeThr (s : State) (t : Fin 16) : State :=
  match s.dbgThr t with
  | some st => (((s.modDbg fun d => { d with threads := d.threads.filter fun (e : Nat × ThrState) => e.1 != t.val }).thrTo t st).select t)
  | none => s

/-- The instruction at the thread's pc, whichever it is (R289 to R316). -/
def State.patAny (s : State) (t : Fin 16) (f ecc : Ecc) : State :=
  nextOf s <| match patDecode (tabGet (fun _ => 0) s.patMem ((s.thr t).pc / 4)) with
    | none => execPatNop t f s
    | some (o, _) => match o with
      | .nop => execPatNop t f s
      | .add => execPatAdd t f s
      | .sub => execPatSub t f s
      | .and_ => execPatAnd t f s
      | .or_ => execPatOr t f s
      | .xor => execPatXor t f s
      | .shl => execPatShl t f s
      | .shr => execPatShr t f s
      | .sar => execPatSar t f s
      | .mul => execPatMul t f s
      | .mulh => execPatMulh t f s
      | .min => execPatMin t f s
      | .max => execPatMax t f s
      | .slt => execPatSlt t f s
      | .sltu => execPatSltu t f s
      | .addi => execPatAddi t f s
      | .andi => execPatAndi t f s
      | .ori => execPatOri t f s
      | .xori => execPatXori t f s
      | .shli => execPatShli t f s
      | .shri => execPatShri t f s
      | .sari => execPatSari t f s
      | .lui => execPatLui t f s
      | .li => execPatLi t f s
      | .ld => execPatLd t f ecc s
      | .ldh => execPatLdh t f ecc s
      | .ldb => execPatLdb t f ecc s
      | .st => execPatSt t f s
      | .sth => execPatSth t f s
      | .stb => execPatStb t f s
      | .xchg => execPatXchg t f ecc s
      | .beq => execPatBeq t f s
      | .bne => execPatBne t f s
      | .blt => execPatBlt t f s
      | .bge => execPatBge t f s
      | .bltu => execPatBltu t f s
      | .bgeu => execPatBgeu t f s
      | .jmp => execPatJmp t f s
      | .call => execPatCall t f s
      | .jr => execPatJr t f s
      | .waite => execPatWaite t f s
      | .waitm => execPatWaitm t f ecc s
      | .emit => execPatEmit t f s
      | .evclr => execPatEvclr t f s
      | .grant => execPatGrant t f ecc s
      | .grel => execPatGrel t f s
      | .kick => execPatKick t f s
      | .reti => execPatReti t f s
      | .mfs => execPatMfs t f s
      | .mts => execPatMts t f s
      | .sync => execPatSync t f s
      | .halt => execPatHalt t f s
      | .rsp => execPatRsp t f s

/-- Single step of a thread that the chain has halted in RUN: it runs one instruction and stands halted again, unless that instruction ended its run. -/
def State.dbgStepThr (s : State) (t : Fin 16) (f ecc : Ecc) : State :=
  match s.dbgThr t with
  | some .run => ((s.dbgResumeThr t).patAny t f ecc).dbgHaltThr t
  | _ => s

/-- Word a of the period-program memory of an engine. -/
def Engine.progWord (g : Engine) (a : Fin 256) : Word := g.image.getD a.val 0

/-- A write of a word of the period-program memory of an engine. -/
def Engine.setProgWord (g : Engine) (a : Fin 256) (v : Word) : Engine :=
  { g with image := (List.range (max g.image.length (a.val + 1))).map fun i => if i = a.val then v else g.image.getD i 0 }

/-- One access through the chain: the word that it shifts out, and what it leaves. -/
def dbgAccess (q : DbgReq) (s : State) : Word × State :=
  match q with
  | .select => (0, s)
  | .halt pair _ => (0, s.modDbg fun d => if d.halted pair then d else { d with pairs := d.pairs + 2 ^ pair.val })
  | .resume pair => (0, if s.sec.dbg.halted pair then (s.modDbg fun d => { d.forget pair with pairs := d.pairs - 2 ^ pair.val }).fwFlush else s)
  | .stepCore pair => (0, if s.sec.dbg.halted pair then s.modDbg fun d => d.forget pair else s)
  | .readCore pair r => s.coreRead pair r
  | .writeCore pair r v => (0, s.coreWrite pair r v)
  | .readMem a => s.memRead a
  | .writeMem a v => (0, s.memWrite a v)
  | .haltThread t => (0, if s.unitsUp then s.dbgHaltThr t else s)
  | .resumeThread t => (0, if s.unitsUp then s.dbgResumeThr t else s)
  | .stepThread t f ecc => (0, if s.unitsUp then s.dbgStepThr t f ecc else s)
  | .readThread t r => (if s.unitsUp then (s.thr t).reg r else 0, s)
  | .writeThread t r v => (0, if s.unitsUp && (s.dbgThr t).isSome then s.modThr t fun x => x.setReg r v else s)
  | .readProgram e a => (if s.unitsUp then (s.eng e).progWord a else 0, s)
  | .writeProgram e a v => (0, if s.unitsUp then s.setEng e ((s.eng e).setProgWord a v) else s)

/-- JTAG_DBG_SEL (R535, R536, R538): the chain into the management cores is selected, and one access is made through it where the level is OPEN and the chain's units run;
elsewhere the instruction acts as BYPASS or the chain reaches nothing. -/
def execJtagDbgSel (q : DbgReq) (s : State) : Host.Outcome State Fault Refusal :=
  .next <|
    if s.tapUp && s.tapActs 0x10 = 0x10 && s.chainUp then
      let (w, t) := dbgAccess q s
      t.tapLoad 0x10 (w.setWidth 64)
    else s.tapLoad 0x10 0

end Sys2Proof.Machine
end

