-- ==== Sys2Proof/Machine/TwoWire.lean ====
section
/-! DEFINITION. The two-wire maintenance port (R543 to R548): transfers in two-byte and one-byte pointer mode. -/

namespace Sys2Proof.Machine

/-- One-byte pointer mode is in force (R536, R545): BASTING, BLANK and VENDOR. -/
def State.oneByte (s : State) : Bool := s.pwr.st == .basting || s.nvm.lc == .blank || s.nvm.lc == .vendor

/-- Pointer after p: in a write it wraps within its 32-byte page, in a read at 0xFFFF; in one-byte mode both wrap at 256 (R544, R545). -/
def nextPtr (one write : Bool) (p : Nat) : Nat :=
  if one then (p + 1) % 256 else if write then p / 32 * 32 + (p + 1) % 32 else (p + 1) % 65536

/-- The register behind a pointer of the recovery window (R545), REC.CTL and the log record apart. -/
def windowReg (p : Nat) : Option Nat :=
  match p / 4 with
  | 0 => some Reg.supRstCause
  | 1 => some Reg.supStartStat
  | 2 => some Reg.supPwrStat
  | 3 => some Reg.supSeqStat
  | 4 => some Reg.nvmLcStat
  | _ => none

/-- Word k of the newest supervisor log record (R430, R545); with an empty ring 0 the spec states none, and it is a free value (log entry 4). -/
def State.logWord (s : State) (k : Nat) : Word :=
  match s.newestRec 0 with
  | some b => wordN (leAt b (4 * k) 4)
  | none => Config.freeWord s.free

/-- Whether there is something to read at a pointer: elsewhere bytes read 0 (R544, R545). -/
def State.twHas (s : State) (one : Bool) (p : Nat) : Bool :=
  if one then (windowReg p).isSome || decide (0x20 ≤ p ∧ p < 0x40)
  else
    let off := 0xA0000 + p / 4 * 4
    (regRowAt off).isSome || decide (Reg.supRtcSec ≤ off ∧ off < Reg.supRtcSec + 24) || decide (Reg.supNvmwBuf ≤ off ∧ off < Reg.supNvmwBuf + 256)

/-- The register at a pointer, read as its byte +0 is (R544, R545). -/
def State.twWord (s : State) (one : Bool) (p : Nat) : Word × State :=
  if !one then s.regRead .twowire (0xA0000 + p)
  else if 0x20 ≤ p ∧ p < 0x40 then (s.logWord ((p - 0x20) / 4), { s with free := s.free + 1 })
  else match windowReg p with
    | some off => s.regRead .twowire off
    | none => (0, s)

/-- A register is written at its byte +3 (R544, R545): in the recovery window the watchdog's key, and CLEAR and RESET of REC.CTL. -/
def State.twPut (s : State) (one : Bool) (p : Nat) (v : Word) : State :=
  if !one then s.regWrite .twowire (0xA0000 + p) v
  else match p / 4 with
    | 5 => s.wdtKeyWrite v
    | 6 => s.recCtlWrite v
    | _ => s

/-- A data byte is NACKed (R503 to R505): a write of CMD PROGRAM that may not start. -/
def State.twNacks (s : State) (one : Bool) (p : Nat) (v : Word) : Bool :=
  !one && p == 0x200 && (s.nvm.job.isSome || (fld v 31 30 == 2 && (s.nvmHost || s.sup.brace || wbit (s.reg Reg.nvmCtl) 0)))

/-- The data bytes of a write transfer (R544): `have_` holds the bytes of the register being written, by their place. A transfer whose first byte is not a register's byte +0 leaves the
bytes before it unstated: free values (log entry 4). A NACK ends it. -/
def twData (one : Bool) : List Byte → List (Nat × Byte) → State → State
  | [], _, s => s
  | b :: t, have_, s =>
    let p := s.sec.twPtr
    let i := p % 4
    let have_ := have_ ++ [(i, b)]
    let s := s.modSec fun c => { c with twPtr := nextPtr one true p }
    if i ≠ 3 then twData one t have_ s
    else
      let byteOf := fun (k : Nat) => match have_.find? (fun e => e.1 == k) with | some e => e.2 | none => Config.freeByte (s.free + k)
      let v : Word := wordN (leAt ((List.range 4).map byteOf) 0 4)
      let s := if have_.length < 4 then { s with free := s.free + 4 } else s
      let stop := s.twNacks one (p - 3) v
      let s := s.twPut one (p - 3) v
      if stop then s else twData one t [] s

/-- The port answers an address byte (R503, R543, R546): in SLEEP a match wakes the device; while a page program runs the address is NACKed. -/
def State.twAnswer (s : State) (adr : BitVec 7) (f : State → State) : State :=
  if !s.portUp || adr.toNat ≠ 0x58 + s.sec.adr.toNat then s
  else if s.nvm.job.isSome then s.nack
  else f (s.wake 4)

/-- TWOWIRE_WRITE (R503 to R506, R543 to R546): the pointer, and data bytes. -/
def execTwowireWrite (adr : BitVec 7) (bytes : List Byte) (s : State) : Host.Outcome State Fault Refusal :=
  .next <| s.twAnswer adr fun s =>
    match s.oneByte, bytes with
    | true, p :: t => twData true t [] (s.modSec fun c => { c with twPtr := p.toNat })
    | false, h :: l :: t => twData false t [] (s.modSec fun c => { c with twPtr := 256 * h.toNat + l.toNat })
    | _, _ => s

/-- The bytes of a read transfer (R544): byte +0 latches its register; the latch holds while `latched`; a first byte that is not +0 has no latch in this transfer and is a free value (log
entry 4). -/
def twReadBytes (one : Bool) : Nat → Bool → List Byte → State → List Byte × State
  | 0, _, acc, s => (acc, s)
  | n + 1, latched, acc, s =>
    let p := s.sec.twPtr
    let i := p % 4
    let (b, latched, s) :=
      if i = 0 then
        let (w, s) := s.twWord one p
        (BitVec.ofNat 8 w.toNat, true, s.deliver .twowire w)
      else if !s.twHas one p then ((0 : Byte), latched, s)
      else if latched then (BitVec.ofNat 8 (s.sec.twLatch.toNat / 256 ^ i), true, s)
      else (Config.freeByte s.free, false, { s with free := s.free + 1 })
    twReadBytes one n latched (acc ++ [b]) (s.modSec fun c => { c with twPtr := nextPtr one false p })

/-- TWOWIRE_READ (R544 to R546): it continues from the pointer. -/
def execTwowireRead (adr : BitVec 7) (len : Nat) (s : State) : Host.Outcome State Fault Refusal :=
  .next <| s.twAnswer adr fun s =>
    let (b, s) := twReadBytes s.oneByte len false [] s
    s.emit (.twowire b)

/-- TWOWIRE_HANG (R548): the port's own driver has held SDA low for more than 25 ms; without its supply, or released by its selvedge, it drives nothing. -/
def execTwowireHang (s : State) : Host.Outcome State Fault Refusal := .next (if s.portUp then s.modSec fun c => { c with hang := true } else s)

end Sys2Proof.Machine
end

