-- ==== Sys2Proof/Machine/Dispatch.lean ====
section
/-! DEFINITION. The dispatch of the commands: one arm per row of the opcode table, each one direct call of its meaning. -/

namespace Sys2Proof.Machine

open Sys2Proof

/-- The effect of a command on everything but the queue. -/
def exec (i : Instr) (s : State) : Host.Outcome State Fault Refusal :=
  match i with
  | .upstreamSuperframe n w rt => Sys2Proof.Machine.execUpstreamSuperframe n w rt s
  | .downstreamSuperframe n => Sys2Proof.Machine.execDownstreamSuperframe n s
  | .laneLockLost n => Sys2Proof.Machine.execLaneLockLost n s
  | .laneBlind n => Sys2Proof.Machine.execLaneBlind n s
  | .laneRetrain v => Sys2Proof.Machine.execLaneRetrain v s
  | .laneEnWrite v => Sys2Proof.Machine.execLaneEnWrite v s
  | .bringUpStepTimeout n => Sys2Proof.Machine.execBringUpStepTimeout n s
  | .cellPeriodBoundary n f => Sys2Proof.Machine.execCellPeriodBoundary n f s
  | .programOverrun e => Sys2Proof.Machine.execProgramOverrun e s
  | .guardDutyLimit n => Sys2Proof.Machine.execGuardDutyLimit n s
  | .healthRecordClose n h => Sys2Proof.Machine.execHealthRecordClose n h s
  | .guardDataWrite v => Sys2Proof.Machine.execGuardDataWrite v s
  | .engineStall n => Sys2Proof.Machine.execEngineStall n s
  | .coldTakeover n => Sys2Proof.Machine.execColdTakeover n s
  | .reliefStateCopy k => Sys2Proof.Machine.execReliefStateCopy k s
  | .takeoverBoundary k => Sys2Proof.Machine.execTakeoverBoundary k s
  | .ppNop e f => Sys2Proof.Machine.execPpNop e f s
  | .ppAdd e f => Sys2Proof.Machine.execPpAdd e f s
  | .ppSub e f => Sys2Proof.Machine.execPpSub e f s
  | .ppAdds e f => Sys2Proof.Machine.execPpAdds e f s
  | .ppSubs e f => Sys2Proof.Machine.execPpSubs e f s
  | .ppMul e f => Sys2Proof.Machine.execPpMul e f s
  | .ppMulh e f => Sys2Proof.Machine.execPpMulh e f s
  | .ppQmul e f => Sys2Proof.Machine.execPpQmul e f s
  | .ppDiv e f => Sys2Proof.Machine.execPpDiv e f s
  | .ppAnd e f => Sys2Proof.Machine.execPpAnd e f s
  | .ppOr e f => Sys2Proof.Machine.execPpOr e f s
  | .ppXor e f => Sys2Proof.Machine.execPpXor e f s
  | .ppShl e f => Sys2Proof.Machine.execPpShl e f s
  | .ppShr e f => Sys2Proof.Machine.execPpShr e f s
  | .ppSar e f => Sys2Proof.Machine.execPpSar e f s
  | .ppMin e f => Sys2Proof.Machine.execPpMin e f s
  | .ppMax e f => Sys2Proof.Machine.execPpMax e f s
  | .ppAbs e f => Sys2Proof.Machine.execPpAbs e f s
  | .ppAddi e f => Sys2Proof.Machine.execPpAddi e f s
  | .ppAndi e f => Sys2Proof.Machine.execPpAndi e f s
  | .ppOri e f => Sys2Proof.Machine.execPpOri e f s
  | .ppShli e f => Sys2Proof.Machine.execPpShli e f s
  | .ppShri e f => Sys2Proof.Machine.execPpShri e f s
  | .ppSari e f => Sys2Proof.Machine.execPpSari e f s
  | .ppLui e f => Sys2Proof.Machine.execPpLui e f s
  | .ppLi e f => Sys2Proof.Machine.execPpLi e f s
  | .ppLd e f ecc => Sys2Proof.Machine.execPpLd e f ecc s
  | .ppSt e f => Sys2Proof.Machine.execPpSt e f s
  | .ppBeq e f => Sys2Proof.Machine.execPpBeq e f s
  | .ppBne e f => Sys2Proof.Machine.execPpBne e f s
  | .ppBlt e f => Sys2Proof.Machine.execPpBlt e f s
  | .ppBge e f => Sys2Proof.Machine.execPpBge e f s
  | .ppJmp e f => Sys2Proof.Machine.execPpJmp e f s
  | .ppEvt e f => Sys2Proof.Machine.execPpEvt e f s
  | .ppEnd e f => Sys2Proof.Machine.execPpEnd e f s
  | .leadBoundary m x => Sys2Proof.Machine.execLeadBoundary m x s
  | .railPublication m => Sys2Proof.Machine.execRailPublication m s
  | .prearmHoldExpiry m => Sys2Proof.Machine.execPrearmHoldExpiry m s
  | .envTrip m => Sys2Proof.Machine.execEnvTrip m s
  | .burstEnd m => Sys2Proof.Machine.execBurstEnd m s
  | .undershootHoldoffEnd m => Sys2Proof.Machine.execUndershootHoldoffEnd m s
  | .syncInEdge => Sys2Proof.Machine.execSyncInEdge s
  | .syncEdgeMissing => Sys2Proof.Machine.execSyncEdgeMissing s
  | .glideComplete m => Sys2Proof.Machine.execGlideComplete m s
  | .sourceQualified m => Sys2Proof.Machine.execSourceQualified m s
  | .sourceOnline m => Sys2Proof.Machine.execSourceOnline m s
  | .sourceLoss m byTrip => Sys2Proof.Machine.execSourceLoss m byTrip s
  | .handoverDone => Sys2Proof.Machine.execHandoverDone s
  | .hoLate => Sys2Proof.Machine.execHoLate s
  | .taperDone m => Sys2Proof.Machine.execTaperDone m s
  | .limitsStale m => Sys2Proof.Machine.execLimitsStale m s
  | .ppsEdge freqErr => Sys2Proof.Machine.execPpsEdge freqErr s
  | .discHoldover => Sys2Proof.Machine.execDiscHoldover s
  | .stStep v => Sys2Proof.Machine.execStStep v s
  | .discModeSet v => Sys2Proof.Machine.execDiscModeSet v s
  | .stLoRead => Sys2Proof.Machine.execStLoRead s
  | .encCount k mv => Sys2Proof.Machine.execEncCount k mv s
  | .encZEdge k => Sys2Proof.Machine.execEncZEdge k s
  | .ssiFrame k bHigh raw => Sys2Proof.Machine.execSsiFrame k bHigh raw s
  | .angleTick => Sys2Proof.Machine.execAngleTick s
  | .encCfgWrite v => Sys2Proof.Machine.execEncCfgWrite v s
  | .encAngleRead => Sys2Proof.Machine.execEncAngleRead s
  | .cycAmplitudeLoss k => Sys2Proof.Machine.execCycAmplitudeLoss k s
  | .cycHoldExpiry k => Sys2Proof.Machine.execCycHoldExpiry k s
  | .markFire k => Sys2Proof.Machine.execMarkFire k s
  | .slotBoundary => Sys2Proof.Machine.execSlotBoundary s
  | .passStart => Sys2Proof.Machine.execPassStart s
  | .passEnd ecc => Sys2Proof.Machine.execPassEnd ecc s
  | .genTripNFall k => Sys2Proof.Machine.execGenTripNFall k s
  | .patNop t f => Sys2Proof.Machine.execPatNop t f s
  | .patAdd t f => Sys2Proof.Machine.execPatAdd t f s
  | .patSub t f => Sys2Proof.Machine.execPatSub t f s
  | .patAnd t f => Sys2Proof.Machine.execPatAnd t f s
  | .patOr t f => Sys2Proof.Machine.execPatOr t f s
  | .patXor t f => Sys2Proof.Machine.execPatXor t f s
  | .patShl t f => Sys2Proof.Machine.execPatShl t f s
  | .patShr t f => Sys2Proof.Machine.execPatShr t f s
  | .patSar t f => Sys2Proof.Machine.execPatSar t f s
  | .patMul t f => Sys2Proof.Machine.execPatMul t f s
  | .patMulh t f => Sys2Proof.Machine.execPatMulh t f s
  | .patMin t f => Sys2Proof.Machine.execPatMin t f s
  | .patMax t f => Sys2Proof.Machine.execPatMax t f s
  | .patSlt t f => Sys2Proof.Machine.execPatSlt t f s
  | .patSltu t f => Sys2Proof.Machine.execPatSltu t f s
  | .patAddi t f => Sys2Proof.Machine.execPatAddi t f s
  | .patAndi t f => Sys2Proof.Machine.execPatAndi t f s
  | .patOri t f => Sys2Proof.Machine.execPatOri t f s
  | .patXori t f => Sys2Proof.Machine.execPatXori t f s
  | .patShli t f => Sys2Proof.Machine.execPatShli t f s
  | .patShri t f => Sys2Proof.Machine.execPatShri t f s
  | .patSari t f => Sys2Proof.Machine.execPatSari t f s
  | .patLui t f => Sys2Proof.Machine.execPatLui t f s
  | .patLi t f => Sys2Proof.Machine.execPatLi t f s
  | .patLd t f ecc => Sys2Proof.Machine.execPatLd t f ecc s
  | .patLdh t f ecc => Sys2Proof.Machine.execPatLdh t f ecc s
  | .patLdb t f ecc => Sys2Proof.Machine.execPatLdb t f ecc s
  | .patSt t f => Sys2Proof.Machine.execPatSt t f s
  | .patSth t f => Sys2Proof.Machine.execPatSth t f s
  | .patStb t f => Sys2Proof.Machine.execPatStb t f s
  | .patXchg t f ecc => Sys2Proof.Machine.execPatXchg t f ecc s
  | .patBeq t f => Sys2Proof.Machine.execPatBeq t f s
  | .patBne t f => Sys2Proof.Machine.execPatBne t f s
  | .patBlt t f => Sys2Proof.Machine.execPatBlt t f s
  | .patBge t f => Sys2Proof.Machine.execPatBge t f s
  | .patBltu t f => Sys2Proof.Machine.execPatBltu t f s
  | .patBgeu t f => Sys2Proof.Machine.execPatBgeu t f s
  | .patJmp t f => Sys2Proof.Machine.execPatJmp t f s
  | .patCall t f => Sys2Proof.Machine.execPatCall t f s
  | .patJr t f => Sys2Proof.Machine.execPatJr t f s
  | .patWaite t f => Sys2Proof.Machine.execPatWaite t f s
  | .patWaitm t f ecc => Sys2Proof.Machine.execPatWaitm t f ecc s
  | .patEmit t f => Sys2Proof.Machine.execPatEmit t f s
  | .patEvclr t f => Sys2Proof.Machine.execPatEvclr t f s
  | .patGrant t f ecc => Sys2Proof.Machine.execPatGrant t f ecc s
  | .patGrel t f => Sys2Proof.Machine.execPatGrel t f s
  | .patKick t f => Sys2Proof.Machine.execPatKick t f s
  | .patReti t f => Sys2Proof.Machine.execPatReti t f s
  | .patMfs t f => Sys2Proof.Machine.execPatMfs t f s
  | .patMts t f => Sys2Proof.Machine.execPatMts t f s
  | .patSync t f => Sys2Proof.Machine.execPatSync t f s
  | .patHalt t f => Sys2Proof.Machine.execPatHalt t f s
  | .patRsp t f => Sys2Proof.Machine.execPatRsp t f s
  | .waiteComplete t => Sys2Proof.Machine.execWaiteComplete t s
  | .waiteTimeout t => Sys2Proof.Machine.execWaiteTimeout t s
  | .waitmComplete t => Sys2Proof.Machine.execWaitmComplete t s
  | .interruptClaim t => Sys2Proof.Machine.execInterruptClaim t s
  | .storeBufferDrain t => Sys2Proof.Machine.execStoreBufferDrain t s
  | .deadlockBreak => Sys2Proof.Machine.execDeadlockBreak s
  | .evPendWrite v => Sys2Proof.Machine.execEvPendWrite v s
  | .nudge => Sys2Proof.Machine.execNudge s
  | .doorbellPoll => Sys2Proof.Machine.execDoorbellPoll s
  | .doorbellReadComplete d => Sys2Proof.Machine.execDoorbellReadComplete d s
  | .descriptorFetch q d => Sys2Proof.Machine.execDescriptorFetch q d s
  | .extentFetch a d => Sys2Proof.Machine.execExtentFetch a d s
  | .cqRecordRelease q => Sys2Proof.Machine.execCqRecordRelease q s
  | .eqRecordRelease => Sys2Proof.Machine.execEqRecordRelease s
  | .msixCoalTimer k => Sys2Proof.Machine.execMsixCoalTimer k s
  | .ringEnable v => Sys2Proof.Machine.execRingEnable v s
  | .ringDisable v => Sys2Proof.Machine.execRingDisable v s
  | .hostResetKey v => Sys2Proof.Machine.execHostResetKey v s
  | .perst deasserted => Sys2Proof.Machine.execPerst deasserted s
  | .malformedAccess isWrite => Sys2Proof.Machine.execMalformedAccess isWrite s
  | .registerWrite p off v => Sys2Proof.Machine.execRegisterWrite p off v s
  | .rcRegisterRead p off => Sys2Proof.Machine.execRcRegisterRead p off s
  | .nop o => Sys2Proof.Machine.execNop o s
  | .abort o => Sys2Proof.Machine.execAbort o s
  | .fence o => Sys2Proof.Machine.execFence o s
  | .fenceRelease o => Sys2Proof.Machine.execFenceRelease o s
  | .powerRun o => Sys2Proof.Machine.execPowerRun o s
  | .powerTrim o => Sys2Proof.Machine.execPowerTrim o s
  | .powerPark o => Sys2Proof.Machine.execPowerPark o s
  | .powerSleep o => Sys2Proof.Machine.execPowerSleep o s
  | .railStart o => Sys2Proof.Machine.execRailStart o s
  | .railStop o => Sys2Proof.Machine.execRailStop o s
  | .railSetpoint o => Sys2Proof.Machine.execRailSetpoint o s
  | .railSetpointAt o => Sys2Proof.Machine.execRailSetpointAt o s
  | .railRelease o => Sys2Proof.Machine.execRailRelease o s
  | .railLimits o => Sys2Proof.Machine.execRailLimits o s
  | .grantRequest o => Sys2Proof.Machine.execGrantRequest o s
  | .grantRelease o => Sys2Proof.Machine.execGrantRelease o s
  | .patLoad o => Sys2Proof.Machine.execPatLoad o s
  | .threadStart o => Sys2Proof.Machine.execThreadStart o s
  | .threadHalt o => Sys2Proof.Machine.execThreadHalt o s
  | .patEventRaise o => Sys2Proof.Machine.execPatEventRaise o s
  | .patEventClear o => Sys2Proof.Machine.execPatEventClear o s
  | .bobbinCfg o => Sys2Proof.Machine.execBobbinCfg o s
  | .bobbinArm o => Sys2Proof.Machine.execBobbinArm o s
  | .bobbinTrigger o => Sys2Proof.Machine.execBobbinTrigger o s
  | .bobbinRead o ecc => Sys2Proof.Machine.execBobbinRead o ecc s
  | .bobbinRelease o => Sys2Proof.Machine.execBobbinRelease o s
  | .archiveBind o => Sys2Proof.Machine.execArchiveBind o s
  | .archiveRelease o => Sys2Proof.Machine.execArchiveRelease o s
  | .traceCtl o => Sys2Proof.Machine.execTraceCtl o s
  | .stageCell o => Sys2Proof.Machine.execStageCell o s
  | .stageRail o => Sys2Proof.Machine.execStageRail o s
  | .swapCell o => Sys2Proof.Machine.execSwapCell o s
  | .swapRailAll o => Sys2Proof.Machine.execSwapRailAll o s
  | .swapRail o => Sys2Proof.Machine.execSwapRail o s
  | .profileLoad o => Sys2Proof.Machine.execProfileLoad o s
  | .profileLoadTimeout o => Sys2Proof.Machine.execProfileLoadTimeout o s
  | .nvmRead o ecc => Sys2Proof.Machine.execNvmRead o ecc s
  | .nvmWrite o => Sys2Proof.Machine.execNvmWrite o s
  | .nvmAppend o => Sys2Proof.Machine.execNvmAppend o s
  | .nvmRingRead o ecc => Sys2Proof.Machine.execNvmRingRead o ecc s
  | .nvmProgramDone good => Sys2Proof.Machine.execNvmProgramDone good s
  | .challenge o => Sys2Proof.Machine.execChallenge o s
  | .response o => Sys2Proof.Machine.execResponse o s
  | .challengeExpiry => Sys2Proof.Machine.execChallengeExpiry s
  | .rngRead o drawn => Sys2Proof.Machine.execRngRead o drawn s
  | .lcTransition o => Sys2Proof.Machine.execLcTransition o s
  | .quarantine o => Sys2Proof.Machine.execQuarantine o s
  | .selvedgeClose o => Sys2Proof.Machine.execSelvedgeClose o s
  | .quarantineTimeout o => Sys2Proof.Machine.execQuarantineTimeout o s
  | .quarantineEnd o => Sys2Proof.Machine.execQuarantineEnd o s
  | .relieve o => Sys2Proof.Machine.execRelieve o s
  | .handback o => Sys2Proof.Machine.execHandback o s
  | .reliefTimeout o => Sys2Proof.Machine.execReliefTimeout o s
  | .imageLoadEngine o => Sys2Proof.Machine.execImageLoadEngine o s
  | .imageLoadFirmware o => Sys2Proof.Machine.execImageLoadFirmware o s
  | .imageStaged o d => Sys2Proof.Machine.execImageStaged o d s
  | .firmwarePairRestart pair good => Sys2Proof.Machine.execFirmwarePairRestart pair good s
  | .twowireCycle o => Sys2Proof.Machine.execTwowireCycle o s
  | .twowireIslandUp => Sys2Proof.Machine.execTwowireIslandUp s
  | .windowCommit b => Sys2Proof.Machine.execWindowCommit b s
  | .chunkCommit b => Sys2Proof.Machine.execChunkCommit b s
  | .extentDone a ecc => Sys2Proof.Machine.execExtentDone a ecc s
  | .drainComplete a => Sys2Proof.Machine.execDrainComplete a s
  | .traceTack => Sys2Proof.Machine.execTraceTack s
  | .dovetailFrame k => Sys2Proof.Machine.execDovetailFrame k s
  | .realign m => Sys2Proof.Machine.execRealign m s
  | .aliveToggle => Sys2Proof.Machine.execAliveToggle s
  | .takeReqLow => Sys2Proof.Machine.execTakeReqLow s
  | .yieldReceived => Sys2Proof.Machine.execYieldReceived s
  | .aliveLoss => Sys2Proof.Machine.execAliveLoss s
  | .linkLoss => Sys2Proof.Machine.execLinkLoss s
  | .bidResolve => Sys2Proof.Machine.execBidResolve s
  | .resetReqReceived => Sys2Proof.Machine.execResetReqReceived s
  | .twinYield key => Sys2Proof.Machine.execTwinYield key s
  | .twinSolo key => Sys2Proof.Machine.execTwinSolo key s
  | .twinDetach key => Sys2Proof.Machine.execTwinDetach key s
  | .startWaitExpiry => Sys2Proof.Machine.execStartWaitExpiry s
  | .joinDigestMatch => Sys2Proof.Machine.execJoinDigestMatch s
  | .joinComplete => Sys2Proof.Machine.execJoinComplete s
  | .termStore => Sys2Proof.Machine.execTermStore s
  | .applyInstant => Sys2Proof.Machine.execApplyInstant s
  | .railPowerGood => Sys2Proof.Machine.execRailPowerGood s
  | .stepDelayExpiry => Sys2Proof.Machine.execStepDelayExpiry s
  | .sequenceFault => Sys2Proof.Machine.execSequenceFault s
  | .railDown => Sys2Proof.Machine.execRailDown s
  | .comparatorChange k r => Sys2Proof.Machine.execComparatorChange k r s
  | .wcSelftest p v => Sys2Proof.Machine.execWcSelftest p v s
  | .selftestDone pass => Sys2Proof.Machine.execSelftestDone pass s
  | .braceStart mv => Sys2Proof.Machine.execBraceStart mv s
  | .braceEnd => Sys2Proof.Machine.execBraceEnd s
  | .vinReset mv => Sys2Proof.Machine.execVinReset mv s
  | .hkRoundStart => Sys2Proof.Machine.execHkRoundStart s
  | .hkRoundEnd codes => Sys2Proof.Machine.execHkRoundEnd codes s
  | .tempBlock temps => Sys2Proof.Machine.execTempBlock temps s
  | .throttleEnforce c => Sys2Proof.Machine.execThrottleEnforce c s
  | .thermTrip => Sys2Proof.Machine.execThermTrip s
  | .thermClear => Sys2Proof.Machine.execThermClear s
  | .rtcSecond => Sys2Proof.Machine.execRtcSecond s
  | .rtcWrite p off v => Sys2Proof.Machine.execRtcWrite p off v s
  | .rtcRead p off => Sys2Proof.Machine.execRtcRead p off s
  | .rtcShadowExpiry p => Sys2Proof.Machine.execRtcShadowExpiry p s
  | .oscStop => Sys2Proof.Machine.execOscStop s
  | .wdtKickWrite v => Sys2Proof.Machine.execWdtKickWrite v s
  | .wdtEnable v => Sys2Proof.Machine.execWdtEnable v s
  | .wdtWarning => Sys2Proof.Machine.execWdtWarning s
  | .wdtExpiry => Sys2Proof.Machine.execWdtExpiry s
  | .wdxPulseEnd => Sys2Proof.Machine.execWdxPulseEnd s
  | .pbShortPress ms => Sys2Proof.Machine.execPbShortPress ms s
  | .pbForceOff => Sys2Proof.Machine.execPbForceOff s
  | .pbLayup => Sys2Proof.Machine.execPbLayup s
  | .batswPulseEnd => Sys2Proof.Machine.execBatswPulseEnd s
  | .mrAssert => Sys2Proof.Machine.execMrAssert s
  | .mrRelease => Sys2Proof.Machine.execMrRelease s
  | .por enters => Sys2Proof.Machine.execPor enters s
  | .lockstepMismatch => Sys2Proof.Machine.execLockstepMismatch s
  | .dieLinkFault => Sys2Proof.Machine.execDieLinkFault s
  | .resetTakeHold => Sys2Proof.Machine.execResetTakeHold s
  | .resetRelease => Sys2Proof.Machine.execResetRelease s
  | .firmwareLoadDone => Sys2Proof.Machine.execFirmwareLoadDone s
  | .runReady => Sys2Proof.Machine.execRunReady s
  | .startTimeout => Sys2Proof.Machine.execStartTimeout s
  | .failedStartClear => Sys2Proof.Machine.execFailedStartClear s
  | .stAlarm => Sys2Proof.Machine.execStAlarm s
  | .wakeComplete => Sys2Proof.Machine.execWakeComplete s
  | .pwrOffCmd key => Sys2Proof.Machine.execPwrOffCmd key s
  | .pwrTwinReset key => Sys2Proof.Machine.execPwrTwinReset key s
  | .sealLock key => Sys2Proof.Machine.execSealLock key s
  | .setPwd key => Sys2Proof.Machine.execSetPwd key s
  | .unlock key => Sys2Proof.Machine.execUnlock key s
  | .relock key => Sys2Proof.Machine.execRelock key s
  | .nvmwRead v => Sys2Proof.Machine.execNvmwRead v s
  | .nvmwProgram v => Sys2Proof.Machine.execNvmwProgram v s
  | .otpRowRead v => Sys2Proof.Machine.execOtpRowRead v s
  | .trngReady => Sys2Proof.Machine.execTrngReady s
  | .trngHealthFail => Sys2Proof.Machine.execTrngHealthFail s
  | .jtagIdcode => Sys2Proof.Machine.execJtagIdcode s
  | .jtagSamplePreload pins preload => Sys2Proof.Machine.execJtagSamplePreload pins preload s
  | .jtagExtest => Sys2Proof.Machine.execJtagExtest s
  | .jtagClamp => Sys2Proof.Machine.execJtagClamp s
  | .jtagHighz => Sys2Proof.Machine.execJtagHighz s
  | .jtagDbgSel q => Sys2Proof.Machine.execJtagDbgSel q s
  | .jtagBypass ir => Sys2Proof.Machine.execJtagBypass ir s
  | .tapReset => Sys2Proof.Machine.execTapReset s
  | .scanEnWrite v => Sys2Proof.Machine.execScanEnWrite v s
  | .recLoad key d => Sys2Proof.Machine.execRecLoad key d s
  | .recClear key => Sys2Proof.Machine.execRecClear key s
  | .recReset key => Sys2Proof.Machine.execRecReset key s
  | .twowireWrite adr bytes => Sys2Proof.Machine.execTwowireWrite adr bytes s
  | .twowireRead adr len => Sys2Proof.Machine.execTwowireRead adr len s
  | .twowireHang => Sys2Proof.Machine.execTwowireHang s
  | .pbNRelease ms => Sys2Proof.Machine.execPbNRelease ms s
  | .borHoldDownExpiry => Sys2Proof.Machine.execBorHoldDownExpiry s
  | .sequenceFaultRetry => Sys2Proof.Machine.execSequenceFaultRetry s
  | .resetSourceHoldEnd src => Sys2Proof.Machine.execResetSourceHoldEnd src s
  | .startStepDone good => Sys2Proof.Machine.execStartStepDone good s
  | .otpRowProgrammed strictOk => Sys2Proof.Machine.execOtpRowProgrammed strictOk s
  | .vinsAboveVinWarn => Sys2Proof.Machine.execVinsAboveVinWarn s
  | .backupDomainPowerUp => Sys2Proof.Machine.execBackupDomainPowerUp s
  | .dovetailLaneLoss k => Sys2Proof.Machine.execDovetailLaneLoss k s
  | .operandReadComplete o d => Sys2Proof.Machine.execOperandReadComplete o d s

end Sys2Proof.Machine
end

