-- ==== Sys2Proof/Machine/Tick.lean ====
section
/-! DEFINITION. The tick of the reference clock (R206). -/

namespace Sys2Proof.Machine

/-- FREQ_ADJ after one REFCLK cycle (R213): it moves towards the target by at most SLEW ppm per second, that is 10^-5 x SLEW ppb per cycle, carried up; it does not move without steering, in
HOLDOVER and in SLEEP (R208, R210, R215). -/
def slewStep (s : State) : Time :=
  let t := s.time
  let w := fld (s.reg Reg.timeDiscCtl) 15 8
  let slew := if w = 0 then 10 else min 20 w
  let acc := t.slewAcc + slew
  if s.steer = 0 || t.disc == .holdover || s.pwr.st == .sleep || t.freqAdj == t.freqTarget then { t with slewAcc := 0 }
  else if acc < 100000 then { t with slewAcc := acc }
  else { t with slewAcc := acc - 100000, freqAdj := if t.freqAdj < t.freqTarget then t.freqAdj + 1 else t.freqAdj - 1 }

/-- One REFCLK cycle passes (R206): time goes on, and ship time advances by 160 x (1 + FREQ_ADJ) ST units, FREQ_ADJ in ppb, with the fraction carried in units of
10^-9. In OFF, and while a reset holds, ST does not run (R206, R208). -/
def tick (s : State) : State :=
  let s := { s with cycles := s.cycles + 1 }
  if s.pwr.st == .off || s.pwr.st == .reset then s
  else
    let t := slewStep s
    let total := t.frac + 160 * (1000000000 + t.freqAdj)
    { s with time := { t with st := t.st + BitVec.ofInt 64 (Int.fdiv total 1000000000), frac := Int.fmod total 1000000000 } }

end Sys2Proof.Machine
end

