-- ==== Sys2Proof/Safety.lean ====
section
/-! DEFINITION. What counts as a safe run, and the terms claims are stated in: canonical memories, what of a state lies behind the host interface, when an
operation starts, and when it has ended. -/

namespace Sys2Proof.Machine

/-! ## Safe runs -/

/-- A byte memory is in its canonical form: addresses strictly rising, no entry equal to what an unlisted address reads as. -/
abbrev Memory.wf (d : Byte) (m : Mem) : Prop := tabWf (fun _ => d) m = true

/-- The byte memories of a state are in canonical form (drawer, rail and ledger memories read 0 where nothing is listed, NVM reads 0xFF). -/
def State.memWf (s : State) : Prop :=
  Memory.wf 0 s.drawerMem ∧ Memory.wf 0 s.railMem ∧ Memory.wf 0 s.ledger ∧ Memory.wf 0xFF s.nvm.mem

/-- An outcome that is a next state with canonical memories. -/
def safeOutcome (o : Host.Outcome State Fault Refusal) : Prop := ∃ t, o = .next t ∧ t.memWf

/-- The table of rails is in canonical form: no rail is listed twice. -/
abbrev State.railsWf (s : State) : Prop := tabWf (fun _ => ({} : Rail)) s.rails = true

/-! ## Behind the host interface -/

/-- The host interface without its counters of records and the turns of its rings. -/
def HostIf.inner (h : HostIf) : HostIf :=
  { h with fetchStop := false, heldLost := 0, lossyLost := 0, repHeld := 0, repLossy := 0, evSeq := 0, pba := [], rrHigh := 0, rrLow := 0 }

/-- A state with all that carries records to the host blanked: what has left the device, the operations in flight, the rings, the waiting records. Two states with the same
inner state differ in what the host is told and in nothing else. -/
def State.inner (s : State) : State :=
  { s with out := [], ops := [], cqWait := [], rings := [], eqHeld := [], eqLossy := [], host := s.host.inner }

/-- A state with, besides, all blanked that recording, tracing, pattern events and the start plan's progress touch: ledger memory, the threads and their pending events, the
bobbins and their drains, SUP.START_STAT's plan fields. What is left is the plant: links, engines, rails, time, the planner, the twin, the supervisor, power, NVM, security and every set-up register. -/
def State.plant (s : State) : State :=
  let p := { s.pwr with planIdx := 0, planStatus := 0, planErr := false, planDone := false, planRunning := false }
  { s.inner with free := 0, ledger := [], threads := [], evPend := [], foreign := false, bobs := [], cap := {}, extents := [], pwr := p }

/-- A state with all blanked that carries records to the host or holds what is captured: besides what `inner` blanks the bobbins and their drains, and the free values drawn.
Two states with the same untraced state differ in what was recorded and in nothing else. -/
def State.untraced (s : State) : State := { s.inner with free := 0, bobs := [], cap := {}, extents := [] }

/-- The same with the threads blanked too. -/
def State.noThreads (s : State) : State := { s.untraced with threads := [] }

/-- A state with the lanes, the engines and what has left the device blanked. -/
def State.noLinks (s : State) : State := { s with lanes := [], engines := [], out := [] }

/-- The completion record b is that of a tag, with a status, FLAGS and RESULT; PHASE is bit 7 of its byte 1 (R340). -/
def isRecord (tag status flags result : Nat) (b : List Byte) : Prop :=
  leAt b 0 2 % 2 ^ 15 = tag ∧ byteAt b 2 = status ∧ byteAt b 5 = flags ∧ leAt b 8 8 = result

/-- The completion record of a tag has been written, or waits to be (R342). -/
def State.posted (t : State) (tag status flags result : Nat) : Prop :=
  (∃ q, ∃ w ∈ t.cqWaiting q, w.2.2 = tag ∧ isRecord tag status flags result w.1) ∨
    (∃ q slot b, Out.cqRecord q slot b ∈ t.out ∧ isRecord tag status flags result b)

/-- No operation of a tag goes on. -/
def State.noneLeft (t : State) (tag : Nat) : Prop := ∀ p ∈ t.ops, p.tag = tag → p.done = true

/-- In t an operation has ended with a status and RESULT, and behind the host interface t is u. -/
def Ends (u : State) (tag status result : Nat) (t : State) : Prop :=
  t.inner = u.inner ∧ t.posted tag status 0 result ∧ t.noneLeft tag

/-- Operation op, of that tag and opcode, has not been accepted, and neither its place in its SQ, nor the role, nor the throttle holds it back (R344, R345, R356,
R442). -/
def Starts (s : State) (tag code : Nat) (op : Op) : Prop :=
  s.liveOp tag code = some op ∧ op.accepted = false ∧ tag < planTag ∧ (roleA code = true → s.roleActs = true) ∧
    (bulkOp code = true → s.bulkOff = false)

/-- Operation op, of that tag and opcode, has been accepted and goes on. -/
def GoesOn (s : State) (tag code : Nat) (op : Op) : Prop := s.liveOp tag code = some op ∧ op.accepted = true ∧ tag < planTag

/-- In t operation `tag` waits, accepted, and behind the host interface t is u. -/
def Accepts (u : State) (tag : Nat) (t : State) : Prop :=
  t.inner = u.inner ∧ ∃ p, t.findOp tag = some p ∧ p.accepted = true ∧ p.done = false

/-! ## Running programs -/

/-- The custom program of engine e stands before instruction `op` with fields x, and its budget has room for the instruction's cycles (R104, R108, R140). -/
def PpAt (s : State) (e cost : Nat) (op : PpOp) (x : Fields) : Prop :=
  (s.eng e).running = true ∧ s.custom e = true ∧ s.cellInRun e = true ∧ (s.eng e).pc ≤ 255 ∧ ppDecode ((s.eng e).image.getD (s.eng e).pc 0) = some (op, x) ∧
    (s.eng e).cycles + cost ≤ s.ppBudget e

/-- The commands that run an instruction of the period program of engine e, whatever the ECC reports for the instruction's word (f) and for the word a load reads (r), and the one that ends a run at its budget (R108, R141). -/
def periodCommands (e : Fin 1088) (f r : Ecc) : List Instr :=
  [.ppNop e f, .ppAdd e f, .ppSub e f, .ppAdds e f, .ppSubs e f, .ppMul e f, .ppMulh e f, .ppQmul e f, .ppDiv e f, .ppAnd e f, .ppOr e f, .ppXor e f, .ppShl e f,
   .ppShr e f, .ppSar e f, .ppMin e f, .ppMax e f, .ppAbs e f, .ppAddi e f, .ppAndi e f, .ppOri e f, .ppShli e f, .ppShri e f, .ppSari e f, .ppLui e f, .ppLi e f,
   .ppSt e f, .ppBeq e f, .ppBne e f, .ppBlt e f, .ppBge e f, .ppJmp e f, .ppEvt e f, .ppEnd e f, .ppLd e f r, .programOverrun e]

/-- Register i of engine e. -/
def State.ppReg (s : State) (e i : Nat) : Word := (s.eng e).reg i

/-- In t engine e has gone on by one instruction of that many cycles, which has written v to register rd; all else is as in s. -/
def PpWrote (s t : State) (e cost rd : Nat) (v : Word) : Prop :=
  t.ppReg e rd = v ∧ (∀ i, i ≠ rd → t.ppReg e i = s.ppReg e i) ∧
    t = s.setEng e { s.eng e with regs := (t.eng e).regs, pc := (s.eng e).pc + 1, cycles := (s.eng e).cycles + cost }

/-- In t engine e has gone on to pc in that many cycles; all else is as in s. -/
def PpWent (s t : State) (e cost pc : Nat) : Prop := t = s.setEng e { s.eng e with pc := pc, cycles := (s.eng e).cycles + cost }

/-- Thread t stands in RUN before instruction `op` with fields y (R286, R289). -/
def PatAt (s : State) (t : Nat) (op : PatOp) (y : Fields) : Prop :=
  (s.thr t).st = .run ∧ (s.thr t).pc ≤ 0xFFFC ∧ patDecode (tabGet (fun _ => 0) s.patMem ((s.thr t).pc / 4)) = some (op, y)

/-- The commands that run an instruction of thread t, whatever the ECC reports for the instruction's word (f) and for the ledger words it reads (r). -/
def threadCommands (t : Fin 16) (f r : Ecc) : List Instr :=
  [.patNop t f, .patAdd t f, .patSub t f, .patAnd t f, .patOr t f, .patXor t f, .patShl t f, .patShr t f, .patSar t f, .patMul t f, .patMulh t f, .patMin t f, .patMax t f,
   .patSlt t f, .patSltu t f, .patAddi t f, .patAndi t f, .patOri t f, .patXori t f, .patShli t f, .patShri t f, .patSari t f, .patLui t f, .patLi t f, .patSt t f,
   .patSth t f, .patStb t f, .patBeq t f, .patBne t f, .patBlt t f, .patBge t f, .patBltu t f, .patBgeu t f, .patJmp t f, .patCall t f, .patJr t f, .patWaite t f,
   .patEmit t f, .patEvclr t f, .patGrel t f, .patKick t f, .patRsp t f, .patReti t f, .patMfs t f, .patMts t f, .patSync t f, .patHalt t f, .patLd t f r, .patLdh t f r,
   .patLdb t f r, .patXchg t f r, .patWaitm t f r, .patGrant t f r]

/-- Register i of thread t by its present name. -/
def State.patReg (s : State) (t i : Nat) : Word := (s.thr t).reg i

/-- In u thread t has gone on behind its instruction, which has written v to register rd of it unless rd is p0; all else is as in s. -/
def PatWrote (s u : State) (t rd : Nat) (v : Word) : Prop :=
  u.patReg t rd = (if rd = 0 then 0 else v) ∧ (∀ i, i ≠ rd → u.patReg t i = s.patReg t i) ∧
    u = s.setThr t { s.thr t with p := (u.thr t).p, f := (u.thr t).f, pc := (s.thr t).pc + 4 }

/-- In u thread t has gone on to pc; beside what the trace records all else is as in s. -/
def PatWent (s u : State) (t pc : Nat) : Prop := u.untraced = (s.setThr t { s.thr t with pc := pc }).untraced

/-- Byte a of ledger memory as thread t sees it: the youngest of its buffered stores that covers the byte, else the memory (R308). -/
def State.seen (s : State) (t a : Nat) : Byte := (bufByte (s.thr t).buf a).getD (memGet 0 s.ledger a)

/-- The little-endian number in n bytes as thread t sees them. -/
def State.seenLe (s : State) (t a n : Nat) : Nat := leAt ((List.range n).map fun i => s.seen t (a + i)) 0 n

/-- In u thread t has gone on behind an instruction that reached ledger memory: v is in rd unless that is p0, no other register of it and no other thread changes, and behind ledger memory, the
error counts and what is recorded all else is as in s. -/
def PatReached (s u : State) (t rd : Nat) (v : Word) : Prop :=
  (∀ i, u.patReg t i = if i = rd ∧ i ≠ 0 then v else s.patReg t i) ∧
    u.thr t = { s.thr t with p := (u.thr t).p, f := (u.thr t).f, pc := (s.thr t).pc + 4, buf := (u.thr t).buf } ∧ (∀ m, m ≠ t → u.thr m = s.thr m) ∧
    u.noThreads = { s.noThreads with ledger := u.ledger, ce := u.ce }

/-- Thread t has faulted in u with a cause, its pc where it was in s (R291, R318). -/
def PatFaulted (s u : State) (t cause : Nat) : Prop :=
  (u.thr t).st = .faulted ∧ (u.thr t).cause = BitVec.ofNat 4 cause ∧ (u.thr t).pc = (s.thr t).pc ∧ (u.thr t).waits = [] ∧ (∀ m, m ≠ t → u.thr m = s.thr m)

/-- A thread without the request that the controller has selected for it, and without the instant at which its state was set (the model's own stamp). -/
def Thread.noSel (x : Thread) : Thread := { x with sel := none, stAt := 0 }

/-- In u thread t is x, and no other thread has changed, but for the controller's selections and the stamps of their states; and but for pending events and what is recorded all else is as in s. -/
def PatMoved (s u : State) (t : Nat) (x : Thread) : Prop :=
  (u.thr t).noSel = x.noSel ∧ (∀ m, m ≠ t → (u.thr m).noSel = (s.thr m).noSel) ∧ { u.noThreads with evPend := s.evPend } = s.noThreads

/-- In u the pending bits of event e are v, those of every other event are as in s (R299). -/
def PendIs (s u : State) (e : Nat) (v : BitVec 16) : Prop := u.pend e = v ∧ ∀ k, k ≠ e → u.pend k = s.pend k

/-! ## Registers and rings -/

/-- The registers whose write is a command of its own, and those that keep what they hold elsewhere than in the register file. -/
def commandReg (off : Nat) : Bool :=
  [Reg.linkLaneCtl, Reg.engineGuardData, Reg.timeDiscCtl, Reg.timeEncCfg, Reg.hostCtl, Reg.hostRingCfg, Reg.twinCtl, Reg.supPwrCtl, Reg.nvmCtl, Reg.nvmOtpSel, Reg.recCtl,
    Reg.supWcSel, Reg.supWcCfg, Reg.supWdtCtl, Reg.supWdtKick, Reg.secDbgCtl, Reg.supNvmwCtl, Reg.bar2Nudge].contains off ||
  decide (Reg.supRtcSec ≤ off ∧ off < Reg.supRtcSec + 24) || decide (Reg.supNvmwBuf ≤ off ∧ off < Reg.supNvmwBuf + 256) ||
  decide (Reg.bar2Msix ≤ off ∧ off < Reg.bar2Msix + 1024)

/-- The indices of ring k lie inside it (R324). -/
def State.ringIn (s : State) (k : Nat) : Prop := (s.ring k).prod < s.ringSize k ∧ (s.ring k).cons < s.ringSize k

end Sys2Proof.Machine
end

