-- ==== Sys2Proof/Certificates/Slice0/Obligations.lean ====
section
/-! DEFINITION. The statements for the provers. Free names are those of the model (Machine/) and of the claim vocabulary (Safety); each statement's text names the rules it rests on, and the log entries where it rests on a choice of
the model. -/

open Sys2Proof Sys2Proof.Machine

/-- Log entry 1 (the model's choice; the row's cut): a step takes the command at the front of the queue and answers what its execution answers on the state with the queue's rest. With an empty queue one cycle of the reference clock passes (R206), which always answers a next state. Where the spec is silent it follows the model's log, entry 1. -/
def Obligations.StepRunsTheFrontCommand : Prop :=
  (∀ (c : Instr) (s : State) (q : List Instr), s.pending = c :: q → step s = exec c { s with pending := q }) ∧
  (∀ (s : State), s.pending = [] → ∃ t, step s = .next t ∧ t = tick s ∧ t.pending = [])

/-- What reset leaves: nothing waits; ST is 0 (R206), every lane is OFF (R100), every rail OFF (R168), every engine OFF and no guard set passes its CRC (R150, R116), every thread OFF (R318), no ring enabled (R331), the twin OFF (R394), POR raised (R462), the term 0 (R500); every register shows the reset value of its row in the register map; and the byte memories are in canonical form. The contents of memory, NVM and OTP are the model's choice (log entries 10, 11). Where the spec is silent it follows the model's log, entries 10, 11, 12. -/
def Obligations.WhatResetLeaves : Prop :=
  State.reset.pending = [] ∧ State.reset.time.st = 0 ∧ (∀ n, (State.reset.lane n).st = .off) ∧ (∀ m, (State.reset.rail m).st = .off) ∧ (∀ e, (State.reset.eng e).st = .off) ∧
  (∀ t, (State.reset.thr t).st = .off) ∧ (∀ k, (State.reset.ring k).en = false) ∧ State.reset.twin.st = .off ∧ State.reset.twin.term = 0 ∧ State.reset.pwr.st = .reset ∧
  State.reset.pwr.episode = true ∧ RstSrc.por ∈ State.reset.pwr.raised ∧ (∀ r ix, State.reset.reg r ix = regDefault (regKey r ix)) ∧ State.reset.memWf

/-- Every command completes in every state: there is no fault and no refusal. It neither takes from the queue nor adds to it, and never changes the grade of the device or the address pins of its two-wire port (R5, R543; log entry 5). Where the spec is silent it follows the model's log, entries 1, 5, 13. -/
def Obligations.EveryCommandCompletes : Prop :=
  ∀ (c : Instr) (s : State), ∃ t, exec c s = .next t ∧ t.pending = s.pending ∧ t.grade = s.grade ∧ t.sec.adr = s.sec.adr

/-- Every step keeps the byte memories in canonical form: drawer, rail and ledger memory and the NVM list their bytes by rising address, and no byte that an unlisted address would show. Equal memories are therefore equal data, whatever commands and cycles led to them. Where the spec is silent it follows the model's log, entries 10, 11. -/
def Obligations.StepsKeepMemoriesCanonical : Prop :=
  ∀ (s t : State), s.memWf → step s = .next t → t.memWf

/-- R510: programming can only turn bits of the OTP to 1. No step, be it a command, a cycle of the clock, a reset or the loss of power, clears a bit of any row of the array, or frees an entry of the redirection table (R514). Where the spec is silent it follows the model's log, entries 4, 11. -/
def Obligations.NoStepClearsAnOtpBit : Prop :=
  ∀ (s t : State), step s = .next t → (∀ r, s.otpRow r &&& ~~~t.otpRow r = 0) ∧ ∃ l, t.nvm.redir = s.nvm.redir ++ l

/-- R25, R32, R136, R142: whatever a period program holds and however it fails, an instruction of engine e, or the end of its budget, changes no other engine, no parameter page, no set-up register, no NVM and no OTP, not the time, no memory of another drawer and neither state nor memory of a rail that is not its cell's own. Where the spec is silent it follows the model's log, entries 7, 26. -/
def Obligations.PeriodProgramsStayInside : Prop :=
  ∀ (s t : State) (e : Fin 1088) (f r : Ecc) (c : Instr), c ∈ periodCommands e f r → exec c s = .next t →
    (∀ k, k ≠ e.val → t.eng k = s.eng k) ∧ (∀ k, (t.cell k).active = (s.cell k).active ∧ (t.cell k).staged = (s.cell k).staged) ∧
    t.regs = s.regs ∧ t.nvm = s.nvm ∧ t.time = s.time ∧ t.patMem = s.patMem ∧
    (∀ m, (s.cellOf e).bind s.railOf ≠ some m → t.rail m = s.rail m) ∧
    (∀ a, (s.cellOf e).map (· / 16) ≠ some (a / 4096) → memGet 0 t.drawerMem a = memGet 0 s.drawerMem a) ∧
    (∀ a, (s.cellOf e).bind s.railOf ≠ some (a / 4096) → memGet 0 t.railMem a = memGet 0 s.railMem a)

/-- R333, R345: NOP completes OK and does nothing else. A FENCE is released, with status OK, as soon as every operation fetched before it from its scope (operand byte 8: 0 its own SQ, 1 every SQ) has completed, be it at its own start or at a later FENCE_RELEASE; until then it waits, accepted. R349: an ABORT whose target is in flight, past no commit point and in no pass ends the target with status ABORTED and itself with OK, undoing what the target had prepared; an ABORT whose target is not in flight, or whose commit point is recorded, completes ABORT_TOO_LATE and changes nothing. Where the spec is silent it follows the model's log, entries 13, 14. -/
def Obligations.NopFencesAndAborts : Prop :=
  (
  (∀ s o op, Starts s o 0x00 op → ∃ t, exec (.nop o) s = .next t ∧ Ends s o stOk 0 t) ∧
  (∀ s o op, Starts s o 0x02 op →
    (∀ p ∈ opsBefore s.ops o, p.done = true ∨ planTag ≤ p.tag ∨ (op.u8 8 = 0 ∧ p.sq ≠ op.sq)) →
      ∃ t, exec (.fence o) s = .next t ∧ Ends s o stOk 0 t) ∧
  (∀ s o op, Starts s o 0x02 op →
    (∃ p ∈ opsBefore s.ops o, p.done = false ∧ p.tag < planTag ∧ (op.u8 8 = 0 → p.sq = op.sq)) →
      ∃ t, exec (.fence o) s = .next t ∧ Accepts s o t) ∧
  (∀ s o op, GoesOn s o 0x02 op →
    (∀ p ∈ opsBefore s.ops o, p.done = true ∨ planTag ≤ p.tag ∨ (op.u8 8 = 0 ∧ p.sq ≠ op.sq)) →
      ∃ t, exec (.fenceRelease o) s = .next t ∧ Ends s o stOk 0 t)) ∧
  (
  (∀ s o op p, Starts s o 0x01 op → op.u16 8 ≠ o → op.u16 8 < planTag → s.findOp (op.u16 8) = some p → p.code ≠ 0x01 → p.done = false → p.committed = false →
      s.plan.pass = none →
      ∃ t, exec (.abort o) s = .next t ∧ Ends (s.opUndo p) o stOk 0 t ∧ t.posted p.tag stAborted 0 0 ∧ t.noneLeft p.tag) ∧
  (∀ s o op, Starts s o 0x01 op → op.u16 8 ≠ o → s.findOp (op.u16 8) = none → ∃ t, exec (.abort o) s = .next t ∧ Ends s o stAbortTooLate 0 t) ∧
  (∀ s o op p, Starts s o 0x01 op → op.u16 8 ≠ o → s.findOp (op.u16 8) = some p → p.code ≠ 0x01 → (p.done || p.committed) = true →
      ∃ t, exec (.abort o) s = .next t ∧ Ends s o stAbortTooLate 0 t))

/-- R45, R101, R553: a lane in RUN that loses superframe lock enters FAULT with CAUSE 0x7 and is omitted from its rail's words, and LANE_LOST sets in SAFETY.STAT. In MEASURING and CONFIGURING the step fails (with CAUSE 0x1, the model's choice of log entry 50); READY and PARKED start again from step 1; in any other state only the lock is forgotten and, in ALIGNING, the measurement begins again. No other lane changes. Lock is lost after four superframe periods without a good superframe, and not before. No swap is taken to wait for the lane (R597 completes one that does). R94, R100: a bring-up step that misses its time fails with the CAUSE of its state; the third failure in a row is FAULT with that CAUSE, the first two start again at step 1. No other lane changes, and nothing beyond lanes and engines. The times from the start of training are 30 us for lock and 35, 60 and 90 us for the steps after it; before its time a step does not fail. The CAUSE of a step 4 that only lacks superframes and of a step 7 that waits for CAPS is the model's choice (log entry 50). Where the spec is silent it follows the model's log, entries 27, 50. -/
def Obligations.LaneLossesAndTimeouts : Prop :=
  (
  (∀ (s : State) (n : Fin 1024), (s.lane n).st = .run → (s.lane n).locked = true → s.missed n 4 = true → (s.lane n).lateOp = none →
    ∃ t, exec (.laneLockLost n) s = .next t ∧ (t.lane n).st = .fault ∧ (t.lane n).cause = 7 ∧ (t.lane n).omitted = true ∧ (t.lane n).locked = false ∧
      (∀ m, m ≠ n.val → t.lane m = s.lane m) ∧ t.inner.noLinks = (s.safety 1).inner.noLinks) ∧
  (∀ (s : State) (n : Fin 1024), (s.lane n).st = .measuring ∨ (s.lane n).st = .configuring → (s.lane n).locked = true → s.missed n 4 = true → (s.lane n).lateOp = none →
    ∃ t, exec (.laneLockLost n) s = .next t ∧
      (if 2 ≤ (s.lane n).attempts then (t.lane n).st = .fault ∧ (t.lane n).cause = 1
        else (t.lane n).st = .locking ∧ (t.lane n).attempts = (s.lane n).attempts + 1) ∧
      (∀ m, m ≠ n.val → t.lane m = s.lane m) ∧ t.noLinks = s.noLinks) ∧
  (∀ (s : State) (n : Fin 1024), (s.lane n).st = .ready ∨ (s.lane n).st = .parked → (s.lane n).locked = true → s.missed n 4 = true →
    ∃ t, exec (.laneLockLost n) s = .next t ∧ (t.lane n).st = .locking ∧ (t.lane n).attempts = 0 ∧ (t.lane n).locked = false ∧
      (∀ m, m ≠ n.val → t.lane m = s.lane m) ∧ t.noLinks = s.noLinks) ∧
  (∀ (s : State) (n : Fin 1024), (s.lane n).st = .off ∨ (s.lane n).st = .locking ∨ (s.lane n).st = .aligning ∨ (s.lane n).st = .fault → (s.lane n).locked = true → s.missed n 4 = true →
    exec (.laneLockLost n) s = .next (s.setLane n { s.lane n with locked := false, good := 0, measN := 0, rtSum := 0 })) ∧
  (∀ (s : State) (n : Fin 1024), (s.lane n).locked = false ∨ s.missed n 4 = false → exec (.laneLockLost n) s = .next s)) ∧
  (
  (∀ (s : State) (n : Fin 1024) (lim : Nat) (c : BitVec 4),
    ((s.lane n).st = .locking ∧ lim = 480000 ∧ c = 1) ∨ ((s.lane n).st = .measuring ∧ lim = 560000 ∧ c = (if (s.lane n).auxAll then 1 else 8)) ∨ ((s.lane n).st = .aligning ∧ lim = 960000 ∧ c = 4) ∨
      ((s.lane n).st = .configuring ∧ lim = 1440000 ∧ c = (if (s.lane n).cfgWait.isSome || (s.lane n).cfgQ != [] || s.capsWaits n then 5 else 6)) →
    (s.lane n).lateOp = none → lim ≤ (s.time.st - (s.lane n).trainAt).toNat →
    ∃ t, exec (.bringUpStepTimeout n) s = .next t ∧
      (if 2 ≤ (s.lane n).attempts then (t.lane n).st = .fault ∧ (t.lane n).cause = c
        else (t.lane n).st = .locking ∧ (t.lane n).attempts = (s.lane n).attempts + 1 ∧ (t.lane n).trainAt = s.time.st) ∧
      (∀ m, m ≠ n.val → t.lane m = s.lane m) ∧ t.noLinks = s.noLinks) ∧
  (∀ (s : State) (n : Fin 1024), (∀ lim, stepLimit (s.lane n).st = some lim → (s.time.st - (s.lane n).trainAt).toNat < lim) → exec (.bringUpStepTimeout n) s = .next s))

/-- R99: a write of LINK.LANE_CTL keeps ASYM and EN for the selected lane; EN falling silences the lane, OFF; EN rising, or RETRAIN with EN, starts bring-up at step 1; and with EN and no RETRAIN an enabled lane goes on as it was. While the lanes stay OFF for a start or a join, EN is kept and no training starts. A write that the host's bus does not reach changes nothing. R552: LANE_BLIND marks a lane in RUN whose last good superframe is two superframe periods back, whose hold counts as an intervention. Where the spec is silent it follows the model's log, entries 27, 50. -/
def Obligations.LaneControlAndBlindness : Prop :=
  (∀ (s : State) (v : Word) (n : Nat), s.ringsUp = true → n = fld (s.reg Reg.linkLaneSel) 9 0 → s.laneOk n = true → s.lanesHeld = false → wbit v 0 = true → wbit v 1 = true →
    ∃ t, exec (.laneRetrain v) s = .next t ∧ (t.lane n).st = .locking ∧ (t.lane n).attempts = 0 ∧ (t.lane n).silenced = false ∧
      (∀ m, m ≠ n → t.lane m = s.lane m) ∧ t.noLinks = (s.setReg Reg.linkLaneCtl n (v &&& 0x0000FF01)).noLinks) ∧
  (∀ (s : State) (v : Word) (n : Nat), s.ringsUp = true → n = fld (s.reg Reg.linkLaneSel) 9 0 → s.laneOk n = true → (s.lane n).lateOp = none → wbit v 0 = false → wbit (s.reg Reg.linkLaneCtl n) 0 = true →
    ∃ t, exec (.laneEnWrite v) s = .next t ∧ (t.lane n).st = .off ∧ (t.lane n).silenced = true ∧
      (∀ m, m ≠ n → t.lane m = s.lane m) ∧ t.noLinks = (s.setReg Reg.linkLaneCtl n (v &&& 0x0000FF01)).noLinks) ∧
  (∀ (s : State) (v : Word) (n : Nat), s.ringsUp = true → n = fld (s.reg Reg.linkLaneSel) 9 0 → s.laneOk n = true → wbit v 0 = true → wbit (s.reg Reg.linkLaneCtl n) 0 = false →
    ∃ t, exec (.laneEnWrite v) s = .next t ∧ (t.lane n).st = (if s.lanesHeld then (s.lane n).st else .locking) ∧ (t.lane n).silenced = false ∧
      (∀ m, m ≠ n → t.lane m = s.lane m) ∧ t.noLinks = (s.setReg Reg.linkLaneCtl n (v &&& 0x0000FF01)).noLinks) ∧
  (∀ (s : State) (v : Word) (n : Nat), s.ringsUp = true → n = fld (s.reg Reg.linkLaneSel) 9 0 → s.laneOk n = true → wbit v 0 = true → wbit v 1 = false →
    wbit (s.reg Reg.linkLaneCtl n) 0 = true → exec (.laneEnWrite v) s = .next (s.setReg Reg.linkLaneCtl n (v &&& 0x0000FF01))) ∧
  (∀ (s : State) (v : Word), s.ringsUp = false → exec (.laneEnWrite v) s = .next s ∧ exec (.laneRetrain v) s = .next s) ∧
  (∀ (s : State) (n : Fin 1024), (s.lane n).st = .run → (s.lane n).blind = false → s.missed n 2 = true →
    ∃ t, exec (.laneBlind n) s = .next t ∧ t.inner = ((s.setLane n { s.lane n with blind := true, interv := true }).safety 0).inner) ∧
  (∀ (s : State) (n : Fin 1024), s.missed n 2 = false → exec (.laneBlind n) s = .next s)

/-- R47: of an upstream superframe that fails its checks nothing is used: no sample reaches the guard or an engine, no auxiliary value is taken. Only the receiver, the lane's run of good and of bad superframes, its sense rail's history and the twin's bitmap learn of it; the second in a row blinds a lane in RUN (R552) and the fourth ends its superframe lock, the lane-loss reaction of R553 (R45). R45, R94: a good superframe is noted with its STATUS and trailer, and the fourth in a row locks a lane in LOCKING, which then is MEASURING. R42, R43, R44, R46, R56, R57: what leaves on a lane that is not OFF is one superframe of 25 blocks, 24 under sync header 0b01 and the trailer under 0b10, scrambled by the lane's scrambler so that descrambling gives the payloads back. The trailer has the sync byte 0x9C, the SEQ of the strobe that the superframe reaches, the ROLE of the lane and the CRC over the 24 command blocks and the trailer's first 48 bits. A lane that is OFF sends nothing, and no second superframe leaves for a strobe. Where the spec is silent it follows the model's log, entries 27, 51. -/
def Obligations.SuperframesBothWays : Prop :=
  (
  (∀ (s : State) (n : Fin 1024) (w : List (BitVec 2 × DWord)) (x : Nat), (s.lane n).st ≠ .off → s.laneOk n = true →
    sfGood ((s.lane n).receive w).blkLock (w.getD 24 (0, 0)).1 (payloadsOf (s.lane n).rxScr w).1 = false → (s.lane n).badRun = 0 →
    ∃ t, exec (.upstreamSuperframe n w x) s = .next t ∧
      t.plant.cells = s.plant.cells ∧ t.plant.engines = s.plant.engines ∧
      (t.lane n) = { (s.lane n).receive w with good := 0, badRun := 1, seqIn := (s.lane n).seqIn + 1, lastGood := false, auxHi := none, settle := (s.lane n).settle - 1 } ∧
      (∀ m, m ≠ n.val → t.lane m = s.lane m) ∧ t.drawerMem = s.drawerMem ∧ t.railMem = s.railMem ∧
      (s.senseOf n = none → t.rails = s.rails) ∧ (s.twin.link = false → t.twin = s.twin)) ∧
  (∀ (s : State) (n : Fin 1024) (w : List (BitVec 2 × DWord)) (x : Nat), (s.lane n).st = .run → s.laneOk n = true →
    sfGood ((s.lane n).receive w).blkLock (w.getD 24 (0, 0)).1 (payloadsOf (s.lane n).rxScr w).1 = false → (s.lane n).badRun = 1 →
    ∃ t, exec (.upstreamSuperframe n w x) s = .next t ∧ (t.lane n).blind = true ∧ (t.lane n).badRun = 2 ∧ (t.lane n).st = .run ∧ (t.lane n).good = 0 ∧
      t.plant.cells = s.plant.cells ∧ t.plant.engines = s.plant.engines ∧ (∀ m, m ≠ n.val → t.lane m = s.lane m)) ∧
  (∀ (s : State) (n : Fin 1024) (w : List (BitVec 2 × DWord)) (x : Nat), (s.lane n).st = .run → (s.lane n).locked = true → s.laneOk n = true → (s.lane n).lateOp = none →
    sfGood ((s.lane n).receive w).blkLock (w.getD 24 (0, 0)).1 (payloadsOf (s.lane n).rxScr w).1 = false → 3 ≤ (s.lane n).badRun →
    ∃ t, exec (.upstreamSuperframe n w x) s = .next t ∧ (t.lane n).st = .fault ∧ (t.lane n).cause = 7 ∧ (t.lane n).omitted = true ∧ (t.lane n).locked = false ∧ (∀ m, m ≠ n.val → t.lane m = s.lane m)) ∧
  (∀ (s : State) (n : Fin 1024) (w : List (BitVec 2 × DWord)) (x : Nat), (s.lane n).st = .locking → s.laneOk n = true →
    sfGood ((s.lane n).receive w).blkLock (w.getD 24 (0, 0)).1 (payloadsOf (s.lane n).rxScr w).1 = true → (s.lane n).cfgWait = none → (s.lane n).profOp = none →
    ∃ t, exec (.upstreamSuperframe n w x) s = .next t ∧
      (t.lane n).st = (if 3 ≤ (s.lane n).good || (s.lane n).locked then .measuring else .locking) ∧
      (t.lane n).good = min 4 ((s.lane n).good + 1) ∧ (t.lane n).badRun = 0 ∧ (t.lane n).status = (trailerOf (payloadsOf (s.lane n).rxScr w).1).status ∧
      (t.lane n).lastTrailer = (payloadsOf (s.lane n).rxScr w).1.getD 24 0 ∧ (∀ m, m ≠ n.val → t.lane m = s.lane m)) ∧
  (∀ (s : State) (n : Fin 1024) (w : List (BitVec 2 × DWord)) (x : Nat), (s.lane n).st = .off ∨ s.laneOk n = false →
    exec (.upstreamSuperframe n w x) s = .next s)) ∧
  (
  (∀ (s : State) (n : Fin 1024), (s.lane n).st ≠ .off → s.laneOk n = true → (s.lane n).lastDn ≠ some (s.dnStrobe n) →
    ∃ t blocks more rest line, exec (.downstreamSuperframe n) s = .next t ∧ t.out = more ++ .superframe n line :: rest ∧ line.length = 25 ∧ blocks.length = 25 ∧
      line.map Prod.fst = List.replicate 24 1 ++ [2] ∧ (payloadsOf (s.lane n).txScr line).1 = blocks ∧
      ((blocks.getD 24 0).toNat / 2 ^ 56 = 0x9C) ∧ ((blocks.getD 24 0).toNat / 2 ^ 48 % 256 = s.dnStrobe n % 256) ∧
      ((blocks.getD 24 0).toNat / 2 ^ 46 % 4 = (s.readyRun n).laneRole n) ∧
      ((blocks.getD 24 0).toNat % 65536 = superframeCrc blocks)) ∧
  (∀ (s : State) (n : Fin 1024), (s.lane n).st = .off ∨ s.laneOk n = false ∨ (s.lane n).lastDn = some (s.dnStrobe n) → exec (.downstreamSuperframe n) s = .next s))

/-- R141: each three-register instruction of a period program writes its operation on ra and rb to rd, counts its cycles and goes on; no other register of the engine, no other engine and nothing else changes, but for the count of a corrected error in the instruction's word (R555). Arithmetic is 32-bit two's complement and wraps unless saturation is stated; DIV truncates toward zero and has its values for rb = 0. Where the spec is silent it follows the model's log, entry 26. -/
def Obligations.PeriodRegisterOperations : Prop :=
  (∀ (s : State) (e : Fin 1088) (f : Ecc) (x : Fields), f ≠ .uncorrectable → PpAt s e 1 .add x → ∃ t, exec (.ppAdd e f) s = .next t ∧ PpWrote (s.fetched f) t e 1 x.rd ((s.ppReg e x.ra) + (s.ppReg e x.rb))) ∧
  (∀ (s : State) (e : Fin 1088) (f : Ecc) (x : Fields), f ≠ .uncorrectable → PpAt s e 1 .sub x → ∃ t, exec (.ppSub e f) s = .next t ∧ PpWrote (s.fetched f) t e 1 x.rd ((s.ppReg e x.ra) - (s.ppReg e x.rb))) ∧
  (∀ (s : State) (e : Fin 1088) (f : Ecc) (x : Fields), f ≠ .uncorrectable → PpAt s e 1 .adds x → ∃ t, exec (.ppAdds e f) s = .next t ∧ PpWrote (s.fetched f) t e 1 x.rd (BitVec.ofInt 32 (max (-2 ^ 31) (min (2 ^ 31 - 1) ((s.ppReg e x.ra).toInt + (s.ppReg e x.rb).toInt))))) ∧
  (∀ (s : State) (e : Fin 1088) (f : Ecc) (x : Fields), f ≠ .uncorrectable → PpAt s e 1 .subs x → ∃ t, exec (.ppSubs e f) s = .next t ∧ PpWrote (s.fetched f) t e 1 x.rd (BitVec.ofInt 32 (max (-2 ^ 31) (min (2 ^ 31 - 1) ((s.ppReg e x.ra).toInt - (s.ppReg e x.rb).toInt))))) ∧
  (∀ (s : State) (e : Fin 1088) (f : Ecc) (x : Fields), f ≠ .uncorrectable → PpAt s e 2 .mul x → ∃ t, exec (.ppMul e f) s = .next t ∧ PpWrote (s.fetched f) t e 2 x.rd ((s.ppReg e x.ra) * (s.ppReg e x.rb))) ∧
  (∀ (s : State) (e : Fin 1088) (f : Ecc) (x : Fields), f ≠ .uncorrectable → PpAt s e 2 .mulh x → ∃ t, exec (.ppMulh e f) s = .next t ∧ PpWrote (s.fetched f) t e 2 x.rd (BitVec.ofInt 32 ((s.ppReg e x.ra).toInt * (s.ppReg e x.rb).toInt / 2 ^ 32))) ∧
  (∀ (s : State) (e : Fin 1088) (f : Ecc) (x : Fields), f ≠ .uncorrectable → PpAt s e 2 .qmul x → ∃ t, exec (.ppQmul e f) s = .next t ∧ PpWrote (s.fetched f) t e 2 x.rd (BitVec.ofInt 32 (max (-2 ^ 31) (min (2 ^ 31 - 1) ((s.ppReg e x.ra).toInt * (s.ppReg e x.rb).toInt / 2 ^ 16))))) ∧
  (∀ (s : State) (e : Fin 1088) (f : Ecc) (x : Fields), f ≠ .uncorrectable → PpAt s e 18 .div x → ∃ t, exec (.ppDiv e f) s = .next t ∧ PpWrote (s.fetched f) t e 18 x.rd (if (s.ppReg e x.rb) = 0 then (if 0 < (s.ppReg e x.ra).toInt then 0x7FFFFFFF else if (s.ppReg e x.ra).toInt < 0 then 0x80000000 else 0) else BitVec.ofInt 32 ((s.ppReg e x.ra).toInt.tdiv (s.ppReg e x.rb).toInt))) ∧
  (∀ (s : State) (e : Fin 1088) (f : Ecc) (x : Fields), f ≠ .uncorrectable → PpAt s e 1 .and_ x → ∃ t, exec (.ppAnd e f) s = .next t ∧ PpWrote (s.fetched f) t e 1 x.rd ((s.ppReg e x.ra) &&& (s.ppReg e x.rb))) ∧
  (∀ (s : State) (e : Fin 1088) (f : Ecc) (x : Fields), f ≠ .uncorrectable → PpAt s e 1 .or_ x → ∃ t, exec (.ppOr e f) s = .next t ∧ PpWrote (s.fetched f) t e 1 x.rd ((s.ppReg e x.ra) ||| (s.ppReg e x.rb))) ∧
  (∀ (s : State) (e : Fin 1088) (f : Ecc) (x : Fields), f ≠ .uncorrectable → PpAt s e 1 .xor x → ∃ t, exec (.ppXor e f) s = .next t ∧ PpWrote (s.fetched f) t e 1 x.rd ((s.ppReg e x.ra) ^^^ (s.ppReg e x.rb))) ∧
  (∀ (s : State) (e : Fin 1088) (f : Ecc) (x : Fields), f ≠ .uncorrectable → PpAt s e 1 .shl x → ∃ t, exec (.ppShl e f) s = .next t ∧ PpWrote (s.fetched f) t e 1 x.rd ((s.ppReg e x.ra) <<< ((s.ppReg e x.rb).toNat % 32))) ∧
  (∀ (s : State) (e : Fin 1088) (f : Ecc) (x : Fields), f ≠ .uncorrectable → PpAt s e 1 .shr x → ∃ t, exec (.ppShr e f) s = .next t ∧ PpWrote (s.fetched f) t e 1 x.rd ((s.ppReg e x.ra) >>> ((s.ppReg e x.rb).toNat % 32))) ∧
  (∀ (s : State) (e : Fin 1088) (f : Ecc) (x : Fields), f ≠ .uncorrectable → PpAt s e 1 .sar x → ∃ t, exec (.ppSar e f) s = .next t ∧ PpWrote (s.fetched f) t e 1 x.rd ((s.ppReg e x.ra).sshiftRight ((s.ppReg e x.rb).toNat % 32))) ∧
  (∀ (s : State) (e : Fin 1088) (f : Ecc) (x : Fields), f ≠ .uncorrectable → PpAt s e 1 .min x → ∃ t, exec (.ppMin e f) s = .next t ∧ PpWrote (s.fetched f) t e 1 x.rd (if (s.ppReg e x.ra).toInt < (s.ppReg e x.rb).toInt then (s.ppReg e x.ra) else (s.ppReg e x.rb))) ∧
  (∀ (s : State) (e : Fin 1088) (f : Ecc) (x : Fields), f ≠ .uncorrectable → PpAt s e 1 .max x → ∃ t, exec (.ppMax e f) s = .next t ∧ PpWrote (s.fetched f) t e 1 x.rd (if (s.ppReg e x.ra).toInt < (s.ppReg e x.rb).toInt then (s.ppReg e x.rb) else (s.ppReg e x.ra))) ∧
  (∀ (s : State) (e : Fin 1088) (f : Ecc) (x : Fields), f ≠ .uncorrectable → PpAt s e 1 .abs x → ∃ t, exec (.ppAbs e f) s = .next t ∧ PpWrote (s.fetched f) t e 1 x.rd (BitVec.ofInt 32 (min (2 ^ 31 - 1) (max (s.ppReg e x.ra).toInt (-(s.ppReg e x.ra).toInt)))))

/-- R141: each instruction of a period program with an immediate writes its operation on ra and the immediate to rd in one cycle; no other register of the engine, no other engine and nothing else changes, but for the count of a corrected error in the instruction's word (R555). R141: a branch of a period program compares ra and rb; taken it goes to TARGET in 2 cycles, not taken it goes on in 1; JMP is always taken. R143: past instruction 255 there is none, and NOP goes on in 1 cycle. No register changes. Where the spec is silent it follows the model's log, entry 26. -/
def Obligations.PeriodImmediatesAndBranches : Prop :=
  (
  (∀ (s : State) (e : Fin 1088) (f : Ecc) (x : Fields), f ≠ .uncorrectable → PpAt s e 1 .addi x → ∃ t, exec (.ppAddi e f) s = .next t ∧ PpWrote (s.fetched f) t e 1 x.rd ((s.ppReg e x.ra) + x.imm)) ∧
  (∀ (s : State) (e : Fin 1088) (f : Ecc) (x : Fields), f ≠ .uncorrectable → PpAt s e 1 .andi x → ∃ t, exec (.ppAndi e f) s = .next t ∧ PpWrote (s.fetched f) t e 1 x.rd ((s.ppReg e x.ra) &&& x.imm)) ∧
  (∀ (s : State) (e : Fin 1088) (f : Ecc) (x : Fields), f ≠ .uncorrectable → PpAt s e 1 .ori x → ∃ t, exec (.ppOri e f) s = .next t ∧ PpWrote (s.fetched f) t e 1 x.rd ((s.ppReg e x.ra) ||| x.imm)) ∧
  (∀ (s : State) (e : Fin 1088) (f : Ecc) (x : Fields), f ≠ .uncorrectable → PpAt s e 1 .shli x → ∃ t, exec (.ppShli e f) s = .next t ∧ PpWrote (s.fetched f) t e 1 x.rd ((s.ppReg e x.ra) <<< (x.imm.toNat % 32))) ∧
  (∀ (s : State) (e : Fin 1088) (f : Ecc) (x : Fields), f ≠ .uncorrectable → PpAt s e 1 .shri x → ∃ t, exec (.ppShri e f) s = .next t ∧ PpWrote (s.fetched f) t e 1 x.rd ((s.ppReg e x.ra) >>> (x.imm.toNat % 32))) ∧
  (∀ (s : State) (e : Fin 1088) (f : Ecc) (x : Fields), f ≠ .uncorrectable → PpAt s e 1 .sari x → ∃ t, exec (.ppSari e f) s = .next t ∧ PpWrote (s.fetched f) t e 1 x.rd ((s.ppReg e x.ra).sshiftRight (x.imm.toNat % 32))) ∧
  (∀ (s : State) (e : Fin 1088) (f : Ecc) (x : Fields), f ≠ .uncorrectable → PpAt s e 1 .lui x → ∃ t, exec (.ppLui e f) s = .next t ∧ PpWrote (s.fetched f) t e 1 x.rd (x.imm * 0x10000)) ∧
  (∀ (s : State) (e : Fin 1088) (f : Ecc) (x : Fields), f ≠ .uncorrectable → PpAt s e 1 .li x → ∃ t, exec (.ppLi e f) s = .next t ∧ PpWrote (s.fetched f) t e 1 x.rd (x.imm))) ∧
  (
  (∀ (s : State) (e : Fin 1088) (f : Ecc) (x : Fields), f ≠ .uncorrectable → PpAt s e 2 .beq x → s.ppReg e x.ra = s.ppReg e x.rb → ∃ t, exec (.ppBeq e f) s = .next t ∧ PpWent (s.fetched f) t e 2 x.target) ∧
  (∀ (s : State) (e : Fin 1088) (f : Ecc) (x : Fields), f ≠ .uncorrectable → PpAt s e 1 .beq x → ¬ (s.ppReg e x.ra = s.ppReg e x.rb) → ∃ t, exec (.ppBeq e f) s = .next t ∧ PpWent (s.fetched f) t e 1 ((s.eng e).pc + 1)) ∧
  (∀ (s : State) (e : Fin 1088) (f : Ecc) (x : Fields), f ≠ .uncorrectable → PpAt s e 2 .bne x → s.ppReg e x.ra ≠ s.ppReg e x.rb → ∃ t, exec (.ppBne e f) s = .next t ∧ PpWent (s.fetched f) t e 2 x.target) ∧
  (∀ (s : State) (e : Fin 1088) (f : Ecc) (x : Fields), f ≠ .uncorrectable → PpAt s e 1 .bne x → ¬ (s.ppReg e x.ra ≠ s.ppReg e x.rb) → ∃ t, exec (.ppBne e f) s = .next t ∧ PpWent (s.fetched f) t e 1 ((s.eng e).pc + 1)) ∧
  (∀ (s : State) (e : Fin 1088) (f : Ecc) (x : Fields), f ≠ .uncorrectable → PpAt s e 2 .blt x → (s.ppReg e x.ra).toInt < (s.ppReg e x.rb).toInt → ∃ t, exec (.ppBlt e f) s = .next t ∧ PpWent (s.fetched f) t e 2 x.target) ∧
  (∀ (s : State) (e : Fin 1088) (f : Ecc) (x : Fields), f ≠ .uncorrectable → PpAt s e 1 .blt x → ¬ ((s.ppReg e x.ra).toInt < (s.ppReg e x.rb).toInt) → ∃ t, exec (.ppBlt e f) s = .next t ∧ PpWent (s.fetched f) t e 1 ((s.eng e).pc + 1)) ∧
  (∀ (s : State) (e : Fin 1088) (f : Ecc) (x : Fields), f ≠ .uncorrectable → PpAt s e 2 .bge x → (s.ppReg e x.rb).toInt ≤ (s.ppReg e x.ra).toInt → ∃ t, exec (.ppBge e f) s = .next t ∧ PpWent (s.fetched f) t e 2 x.target) ∧
  (∀ (s : State) (e : Fin 1088) (f : Ecc) (x : Fields), f ≠ .uncorrectable → PpAt s e 1 .bge x → ¬ ((s.ppReg e x.rb).toInt ≤ (s.ppReg e x.ra).toInt) → ∃ t, exec (.ppBge e f) s = .next t ∧ PpWent (s.fetched f) t e 1 ((s.eng e).pc + 1)) ∧
  (∀ (s : State) (e : Fin 1088) (f : Ecc) (x : Fields), f ≠ .uncorrectable → PpAt s e 2 .jmp x → ∃ t, exec (.ppJmp e f) s = .next t ∧ PpWent (s.fetched f) t e 2 x.target) ∧
  (∀ (s : State) (e : Fin 1088) (f : Ecc) (x : Fields), f ≠ .uncorrectable → PpAt s e 1 .nop x → ∃ t, exec (.ppNop e f) s = .next t ∧ PpWent (s.fetched f) t e 1 ((s.eng e).pc + 1)))

/-- R136, R141: LD reads local data in one cycle and drawer memory in one to four (R104), and writes the word to rd. A misaligned or unmapped address is a program fault (R142): the run ends and its outputs are discarded. R136, R138, R141: ST writes rd to the word of local data, or to an output, which is staged and not yet in effect; in one cycle, and nothing else of the engine, no other engine and nothing else changes. A store to the read-only inputs or page is a program fault (R142). Where the spec is silent it follows the model's log, entries 4, 26. -/
def Obligations.PeriodLoadsAndStores : Prop :=
  (
  (∀ (s : State) (e : Fin 1088) (f : Ecc) (x : Fields) (n a : Nat) (ecc : Ecc), f ≠ .uncorrectable → PpAt s e 1 .ld x → s.cellOf e = some n → a = (s.ppReg e x.ra + x.imm).toNat → a % 4 = 0 → a < 0x100 →
    ecc ≠ .uncorrectable →
    ∃ t, exec (.ppLd e f ecc) s = .next t ∧ PpWrote ((s.fetched f).fetched ecc) t e 1 x.rd (tabGet (fun _ => 0) (s.eng e).loc (a / 4))) ∧
  (∀ (s : State) (e : Fin 1088) (f : Ecc) (x : Fields) (n a : Nat) (ecc : Ecc), f ≠ .uncorrectable → PpAt s e 4 .ld x → s.cellOf e = some n → a = (s.ppReg e x.ra + x.imm).toNat → a % 4 = 0 →
    0x1000 ≤ a → a < 0x2000 → ecc ≠ .uncorrectable →
    ∃ t c u, exec (.ppLd e f ecc) s = .next t ∧ 1 ≤ c ∧ c ≤ 4 ∧ u = { ((s.fetched f).fetched ecc) with free := s.free + 1 } ∧
      PpWrote u t e c x.rd (BitVec.ofNat 32 (memLe s.drawerMem (4096 * (n / 16) + (a - 0x1000)) 4))) ∧
  (∀ (s : State) (e : Fin 1088) (f : Ecc) (x : Fields) (n a : Nat) (ecc : Ecc), f ≠ .uncorrectable → PpAt s e 1 .ld x → s.cellOf e = some n → a = (s.ppReg e x.ra + x.imm).toNat → a % 4 ≠ 0 ∨ ecc = .uncorrectable →
    ∃ t, exec (.ppLd e f ecc) s = .next t ∧ (t.eng e).running = false ∧ (t.eng e).ppFault = true ∧ (t.eng e).overrun = false ∧ (t.eng e).out = (s.eng e).out ∧
      ∀ k, k ≠ e.val → t.eng k = s.eng k)) ∧
  (
  (∀ (s : State) (e : Fin 1088) (f : Ecc) (x : Fields) (n a : Nat), f ≠ .uncorrectable → PpAt s e 1 .st x → s.cellOf e = some n → a = (s.ppReg e x.ra + x.imm).toNat → a % 4 = 0 → a < 0x100 →
    ∃ t, exec (.ppSt e f) s = .next t ∧ (∀ w, tabGet (fun _ => 0) (t.eng e).loc w = if w = a / 4 then s.ppReg e x.rd else tabGet (fun _ => 0) (s.eng e).loc w) ∧
      t.eng e = { s.eng e with loc := (t.eng e).loc, pc := (s.eng e).pc + 1, cycles := (s.eng e).cycles + 1 } ∧
      (∀ k, k ≠ e.val → t.eng k = s.eng k) ∧ t.lanes = s.lanes ∧ t.noLinks = (s.fetched f).noLinks) ∧
  (∀ (s : State) (e : Fin 1088) (f : Ecc) (x : Fields) (n : Nat), f ≠ .uncorrectable → PpAt s e 1 .st x → s.cellOf e = some n → s.ppReg e x.ra + x.imm = 0x300 →
    ∃ t, exec (.ppSt e f) s = .next t ∧
      t.eng e = { s.eng e with stage := { (s.eng e).stage with duty := s.ppReg e x.rd }, pc := (s.eng e).pc + 1, cycles := (s.eng e).cycles + 1 } ∧
      (∀ k, k ≠ e.val → t.eng k = s.eng k) ∧ t.lanes = s.lanes ∧ t.noLinks = (s.fetched f).noLinks) ∧
  (∀ (s : State) (e : Fin 1088) (f : Ecc) (x : Fields) (n a : Nat), f ≠ .uncorrectable → PpAt s e 1 .st x → s.cellOf e = some n → a = (s.ppReg e x.ra + x.imm).toNat → 0x100 ≤ a → a < 0x300 →
    ∃ t, exec (.ppSt e f) s = .next t ∧ (t.eng e).running = false ∧ (t.eng e).ppFault = true ∧ (t.eng e).out = (s.eng e).out ∧
      ∀ k, k ≠ e.val → t.eng k = s.eng k))

/-- R107, R138, R141: END ends the run and the outputs written in it take effect. R108: a run that passes its budget, 4,096 cycles of 1 ns or the period less 1 us, is stopped, its outputs are discarded and OVERRUN is set; before that instant the command changes nothing. R157: the second run in a row that misses END stalls the engine. R298: EVT makes the event pending in the threads of its mask, unless only threads may raise it. R555: an uncorrectable error in the word of any instruction is a program fault, counted as one. Where the spec is silent it follows the model's log, entry 26. -/
def Obligations.PeriodRunsEnd : Prop :=
  (∀ (s : State) (e : Fin 1088) (f : Ecc) (x : Fields), f ≠ .uncorrectable → PpAt s e 1 .end_ x →
    ∃ t, exec (.ppEnd e f) s = .next t ∧ (t.eng e).out = (s.eng e).stage ∧ (t.eng e).running = false ∧ (t.eng e).ended = true ∧ (t.eng e).ppFault = false ∧
      (t.eng e).overrun = false ∧ (t.eng e).missEnd = 0 ∧ (t.eng e).regs = (s.eng e).regs ∧ (t.eng e).loc = (s.eng e).loc ∧
      (∀ k, k ≠ e.val → t.eng k = s.eng k) ∧ t.drawerMem = s.drawerMem ∧ t.railMem = s.railMem ∧ t.nvm = s.nvm ∧ t.regs = s.regs) ∧
  (∀ (s : State) (e : Fin 1088), (s.eng e).running = true → s.reached ((s.eng e).bound + BitVec.ofNat 64 (16 * s.ppBudget e)) = true →
    ∃ t, exec (.programOverrun e) s = .next t ∧ (t.eng e).out = (s.eng e).out ∧ (t.eng e).running = false ∧ (t.eng e).ended = false ∧ (t.eng e).ppFault = false ∧
      (t.eng e).overrun = true ∧ (t.eng e).missEnd = (s.eng e).missEnd + 1 ∧ (t.eng e).regs = (s.eng e).regs ∧ (t.eng e).loc = (s.eng e).loc ∧
      ((s.cellOf e).isSome = true → 1 ≤ (s.eng e).missEnd → (t.eng e).st = .stalled) ∧
      (∀ k, k ≠ e.val → t.eng k = s.eng k) ∧ t.drawerMem = s.drawerMem ∧ t.railMem = s.railMem ∧ t.nvm = s.nvm ∧ t.regs = s.regs) ∧
  (∀ (s : State) (e : Fin 1088), (s.eng e).running = false ∨ s.reached ((s.eng e).bound + BitVec.ofNat 64 (16 * s.ppBudget e)) = false → exec (.programOverrun e) s = .next s) ∧
  (∀ (s : State) (e : Fin 1088) (f : Ecc) (x : Fields), f ≠ .uncorrectable → PpAt s e 1 .evt x → x.num < 511 → wbit (s.route x.num) 31 = false →
    ∃ t, exec (.ppEvt e f) s = .next t ∧ PendIs s t x.num (s.pend x.num ||| (s.route x.num).setWidth 16) ∧
      t.eng e = { s.eng e with pc := (s.eng e).pc + 1, cycles := (s.eng e).cycles + 1 } ∧ (∀ k, k ≠ e.val → t.eng k = s.eng k) ∧ t.plant.noLinks = (s.fetched f).plant.noLinks) ∧
  (∀ (s : State) (e : Fin 1088) (r : Ecc) (c : Instr), c ∈ periodCommands e .uncorrectable r → c ≠ .programOverrun e → (s.eng e).running = true → s.custom e = true → s.cellInRun e = true → (s.eng e).pc ≤ 255 →
    ∃ t, exec c s = .next t ∧ t.ue = satInc 0xFFFF s.ue ∧ (t.eng e).running = false ∧ (t.eng e).ended = false ∧ (t.eng e).ppFault = true ∧ (t.eng e).out = (s.eng e).out ∧ ∀ k, k ≠ e.val → t.eng k = s.eng k)

/-- R290, R292: each three-register instruction of a thread writes its operation on ra and rb to rd, unless rd is p0, and goes on; no other register of the thread, no other thread and nothing else changes, but for the count of a corrected error in the instruction's word (R555). R290, R292: each instruction of a thread with an immediate writes its operation on ra and the immediate to rd, unless rd is p0, and goes on; no other register of the thread, no other thread and nothing else changes. Where the spec is silent it follows the model's log, entry 37. -/
def Obligations.ThreadRegisterAndImmediateOperations : Prop :=
  (
  (∀ (s : State) (t : Fin 16) (f : Ecc) (y : Fields), f ≠ .uncorrectable → PatAt s t .add y → ∃ u, exec (.patAdd t f) s = .next u ∧ PatWrote (s.fetched f) u t y.rd ((s.patReg t y.ra) + (s.patReg t y.rb))) ∧
  (∀ (s : State) (t : Fin 16) (f : Ecc) (y : Fields), f ≠ .uncorrectable → PatAt s t .sub y → ∃ u, exec (.patSub t f) s = .next u ∧ PatWrote (s.fetched f) u t y.rd ((s.patReg t y.ra) - (s.patReg t y.rb))) ∧
  (∀ (s : State) (t : Fin 16) (f : Ecc) (y : Fields), f ≠ .uncorrectable → PatAt s t .and_ y → ∃ u, exec (.patAnd t f) s = .next u ∧ PatWrote (s.fetched f) u t y.rd ((s.patReg t y.ra) &&& (s.patReg t y.rb))) ∧
  (∀ (s : State) (t : Fin 16) (f : Ecc) (y : Fields), f ≠ .uncorrectable → PatAt s t .or_ y → ∃ u, exec (.patOr t f) s = .next u ∧ PatWrote (s.fetched f) u t y.rd ((s.patReg t y.ra) ||| (s.patReg t y.rb))) ∧
  (∀ (s : State) (t : Fin 16) (f : Ecc) (y : Fields), f ≠ .uncorrectable → PatAt s t .xor y → ∃ u, exec (.patXor t f) s = .next u ∧ PatWrote (s.fetched f) u t y.rd ((s.patReg t y.ra) ^^^ (s.patReg t y.rb))) ∧
  (∀ (s : State) (t : Fin 16) (f : Ecc) (y : Fields), f ≠ .uncorrectable → PatAt s t .shl y → ∃ u, exec (.patShl t f) s = .next u ∧ PatWrote (s.fetched f) u t y.rd ((s.patReg t y.ra) <<< ((s.patReg t y.rb).toNat % 32))) ∧
  (∀ (s : State) (t : Fin 16) (f : Ecc) (y : Fields), f ≠ .uncorrectable → PatAt s t .shr y → ∃ u, exec (.patShr t f) s = .next u ∧ PatWrote (s.fetched f) u t y.rd ((s.patReg t y.ra) >>> ((s.patReg t y.rb).toNat % 32))) ∧
  (∀ (s : State) (t : Fin 16) (f : Ecc) (y : Fields), f ≠ .uncorrectable → PatAt s t .sar y → ∃ u, exec (.patSar t f) s = .next u ∧ PatWrote (s.fetched f) u t y.rd ((s.patReg t y.ra).sshiftRight ((s.patReg t y.rb).toNat % 32))) ∧
  (∀ (s : State) (t : Fin 16) (f : Ecc) (y : Fields), f ≠ .uncorrectable → PatAt s t .mul y → ∃ u, exec (.patMul t f) s = .next u ∧ PatWrote (s.fetched f) u t y.rd ((s.patReg t y.ra) * (s.patReg t y.rb))) ∧
  (∀ (s : State) (t : Fin 16) (f : Ecc) (y : Fields), f ≠ .uncorrectable → PatAt s t .mulh y → ∃ u, exec (.patMulh t f) s = .next u ∧ PatWrote (s.fetched f) u t y.rd (BitVec.ofInt 32 ((s.patReg t y.ra).toInt * (s.patReg t y.rb).toInt / 2 ^ 32))) ∧
  (∀ (s : State) (t : Fin 16) (f : Ecc) (y : Fields), f ≠ .uncorrectable → PatAt s t .min y → ∃ u, exec (.patMin t f) s = .next u ∧ PatWrote (s.fetched f) u t y.rd (if (s.patReg t y.ra).toInt < (s.patReg t y.rb).toInt then (s.patReg t y.ra) else (s.patReg t y.rb))) ∧
  (∀ (s : State) (t : Fin 16) (f : Ecc) (y : Fields), f ≠ .uncorrectable → PatAt s t .max y → ∃ u, exec (.patMax t f) s = .next u ∧ PatWrote (s.fetched f) u t y.rd (if (s.patReg t y.ra).toInt < (s.patReg t y.rb).toInt then (s.patReg t y.rb) else (s.patReg t y.ra))) ∧
  (∀ (s : State) (t : Fin 16) (f : Ecc) (y : Fields), f ≠ .uncorrectable → PatAt s t .slt y → ∃ u, exec (.patSlt t f) s = .next u ∧ PatWrote (s.fetched f) u t y.rd (if (s.patReg t y.ra).toInt < (s.patReg t y.rb).toInt then 1 else 0)) ∧
  (∀ (s : State) (t : Fin 16) (f : Ecc) (y : Fields), f ≠ .uncorrectable → PatAt s t .sltu y → ∃ u, exec (.patSltu t f) s = .next u ∧ PatWrote (s.fetched f) u t y.rd (if (s.patReg t y.ra) < (s.patReg t y.rb) then 1 else 0))) ∧
  (
  (∀ (s : State) (t : Fin 16) (f : Ecc) (y : Fields), f ≠ .uncorrectable → PatAt s t .addi y → ∃ u, exec (.patAddi t f) s = .next u ∧ PatWrote (s.fetched f) u t y.rd ((s.patReg t y.ra) + y.imm)) ∧
  (∀ (s : State) (t : Fin 16) (f : Ecc) (y : Fields), f ≠ .uncorrectable → PatAt s t .andi y → ∃ u, exec (.patAndi t f) s = .next u ∧ PatWrote (s.fetched f) u t y.rd ((s.patReg t y.ra) &&& y.imm)) ∧
  (∀ (s : State) (t : Fin 16) (f : Ecc) (y : Fields), f ≠ .uncorrectable → PatAt s t .ori y → ∃ u, exec (.patOri t f) s = .next u ∧ PatWrote (s.fetched f) u t y.rd ((s.patReg t y.ra) ||| y.imm)) ∧
  (∀ (s : State) (t : Fin 16) (f : Ecc) (y : Fields), f ≠ .uncorrectable → PatAt s t .xori y → ∃ u, exec (.patXori t f) s = .next u ∧ PatWrote (s.fetched f) u t y.rd ((s.patReg t y.ra) ^^^ y.imm)) ∧
  (∀ (s : State) (t : Fin 16) (f : Ecc) (y : Fields), f ≠ .uncorrectable → PatAt s t .shli y → ∃ u, exec (.patShli t f) s = .next u ∧ PatWrote (s.fetched f) u t y.rd ((s.patReg t y.ra) <<< (y.imm.toNat % 32))) ∧
  (∀ (s : State) (t : Fin 16) (f : Ecc) (y : Fields), f ≠ .uncorrectable → PatAt s t .shri y → ∃ u, exec (.patShri t f) s = .next u ∧ PatWrote (s.fetched f) u t y.rd ((s.patReg t y.ra) >>> (y.imm.toNat % 32))) ∧
  (∀ (s : State) (t : Fin 16) (f : Ecc) (y : Fields), f ≠ .uncorrectable → PatAt s t .sari y → ∃ u, exec (.patSari t f) s = .next u ∧ PatWrote (s.fetched f) u t y.rd ((s.patReg t y.ra).sshiftRight (y.imm.toNat % 32))) ∧
  (∀ (s : State) (t : Fin 16) (f : Ecc) (y : Fields), f ≠ .uncorrectable → PatAt s t .lui y → ∃ u, exec (.patLui t f) s = .next u ∧ PatWrote (s.fetched f) u t y.rd (y.imm * 0x10000)) ∧
  (∀ (s : State) (t : Fin 16) (f : Ecc) (y : Fields), f ≠ .uncorrectable → PatAt s t .li y → ∃ u, exec (.patLi t f) s = .next u ∧ PatWrote (s.fetched f) u t y.rd (y.imm)))

/-- R290: a branch of a thread compares ra and rb and goes to word TARGET of pattern code or goes on; JMP goes there always, JR to ra + imm with bits [1:0] 0, CALL leaves the address behind it in the link register. Nothing but the thread, and what the trace records of it, changes. NOP goes on. R291, R555: an uncorrectable error in the word of any instruction is a thread fault, cause 8, and counted. Where the spec is silent it follows the model's log, entry 37. -/
def Obligations.ThreadBranchesAndCalls : Prop :=
  (∀ (s : State) (t : Fin 16) (f : Ecc) (y : Fields), f ≠ .uncorrectable → PatAt s t .beq y → ∃ u, exec (.patBeq t f) s = .next u ∧
    (s.patReg t y.ra = s.patReg t y.rb → PatWent (s.fetched f) u t (4 * y.target)) ∧ (¬ (s.patReg t y.ra = s.patReg t y.rb) → PatWent (s.fetched f) u t ((s.thr t).pc + 4))) ∧
  (∀ (s : State) (t : Fin 16) (f : Ecc) (y : Fields), f ≠ .uncorrectable → PatAt s t .bne y → ∃ u, exec (.patBne t f) s = .next u ∧
    (s.patReg t y.ra ≠ s.patReg t y.rb → PatWent (s.fetched f) u t (4 * y.target)) ∧ (¬ (s.patReg t y.ra ≠ s.patReg t y.rb) → PatWent (s.fetched f) u t ((s.thr t).pc + 4))) ∧
  (∀ (s : State) (t : Fin 16) (f : Ecc) (y : Fields), f ≠ .uncorrectable → PatAt s t .blt y → ∃ u, exec (.patBlt t f) s = .next u ∧
    ((s.patReg t y.ra).toInt < (s.patReg t y.rb).toInt → PatWent (s.fetched f) u t (4 * y.target)) ∧ (¬ ((s.patReg t y.ra).toInt < (s.patReg t y.rb).toInt) → PatWent (s.fetched f) u t ((s.thr t).pc + 4))) ∧
  (∀ (s : State) (t : Fin 16) (f : Ecc) (y : Fields), f ≠ .uncorrectable → PatAt s t .bge y → ∃ u, exec (.patBge t f) s = .next u ∧
    ((s.patReg t y.rb).toInt ≤ (s.patReg t y.ra).toInt → PatWent (s.fetched f) u t (4 * y.target)) ∧ (¬ ((s.patReg t y.rb).toInt ≤ (s.patReg t y.ra).toInt) → PatWent (s.fetched f) u t ((s.thr t).pc + 4))) ∧
  (∀ (s : State) (t : Fin 16) (f : Ecc) (y : Fields), f ≠ .uncorrectable → PatAt s t .bltu y → ∃ u, exec (.patBltu t f) s = .next u ∧
    (s.patReg t y.ra < s.patReg t y.rb → PatWent (s.fetched f) u t (4 * y.target)) ∧ (¬ (s.patReg t y.ra < s.patReg t y.rb) → PatWent (s.fetched f) u t ((s.thr t).pc + 4))) ∧
  (∀ (s : State) (t : Fin 16) (f : Ecc) (y : Fields), f ≠ .uncorrectable → PatAt s t .bgeu y → ∃ u, exec (.patBgeu t f) s = .next u ∧
    (s.patReg t y.rb ≤ s.patReg t y.ra → PatWent (s.fetched f) u t (4 * y.target)) ∧ (¬ (s.patReg t y.rb ≤ s.patReg t y.ra) → PatWent (s.fetched f) u t ((s.thr t).pc + 4))) ∧
  (∀ (s : State) (t : Fin 16) (f : Ecc) (y : Fields), f ≠ .uncorrectable → PatAt s t .jmp y → ∃ u, exec (.patJmp t f) s = .next u ∧ PatWent (s.fetched f) u t (4 * y.target)) ∧
  (∀ (s : State) (t : Fin 16) (f : Ecc) (y : Fields), f ≠ .uncorrectable → PatAt s t .jr y → ∃ u, exec (.patJr t f) s = .next u ∧ PatWent (s.fetched f) u t ((s.patReg t y.ra + y.imm).toNat / 4 * 4)) ∧
  (∀ (s : State) (t : Fin 16) (f : Ecc) (y : Fields), f ≠ .uncorrectable → PatAt s t .call y → ∃ u, exec (.patCall t f) s = .next u ∧ 
    (∀ i, u.patReg t i = if i = y.ra ∧ i ≠ 0 then wordN ((s.thr t).pc + 4) else s.patReg t i) ∧
    u.thr t = { s.thr t with p := (u.thr t).p, f := (u.thr t).f, pc := 4 * y.target } ∧ (∀ m, m ≠ t.val → u.thr m = s.thr m) ∧ u.noThreads = (s.fetched f).noThreads) ∧
  (∀ (s : State) (t : Fin 16) (r : Ecc) (c : Instr), c ∈ threadCommands t .uncorrectable r → (s.thr t).st = .run → (s.thr t).pc ≤ 0xFFFC →
    ∃ u, exec c s = .next u ∧ PatFaulted s u t 8 ∧ u.ue = satInc 0xFFFF s.ue ∧ u.ledger = s.ledger) ∧
  (∀ (s : State) (t : Fin 16) (f : Ecc) (y : Fields), f ≠ .uncorrectable → PatAt s t .nop y → ∃ u, exec (.patNop t f) s = .next u ∧ PatWent (s.fetched f) u t ((s.thr t).pc + 4))

/-- R290, R308: a load of a thread that is aligned and inside ledger memory puts into rd, zero-extended, the bytes as the thread sees them: each from the youngest buffered store that covers it, else from the memory. What any byte of ledger memory shows the thread stays as it was. R291: a misaligned load, or one outside ledger memory, is a thread fault, cause 2, and one that reads a word of ledger memory with an uncorrectable error one of cause 8 (R555). Where the spec is silent it follows the model's log, entry 37. -/
def Obligations.ThreadLoadsSeeOwnStores : Prop :=
  (∀ (s : State) (t : Fin 16) (f : Ecc) (y : Fields) (ecc : Ecc), f ≠ .uncorrectable → PatAt s t .ld y → ecc ≠ .uncorrectable → (s.patReg t y.ra + y.imm).toNat % 4 = 0 → (s.patReg t y.ra + y.imm).toNat + 4 ≤ 0x40000 →
    ∃ u, exec (.patLd t f ecc) s = .next u ∧ PatReached (s.fetched f) u t y.rd (wordN (s.seenLe t (s.patReg t y.ra + y.imm).toNat 4)) ∧ ∀ b, b < 0x40000 → u.seen t b = s.seen t b) ∧
  (∀ (s : State) (t : Fin 16) (f : Ecc) (y : Fields) (ecc : Ecc), f ≠ .uncorrectable → PatAt s t .ldh y → ecc ≠ .uncorrectable → (s.patReg t y.ra + y.imm).toNat % 2 = 0 → (s.patReg t y.ra + y.imm).toNat + 2 ≤ 0x40000 →
    ∃ u, exec (.patLdh t f ecc) s = .next u ∧ PatReached (s.fetched f) u t y.rd (wordN (s.seenLe t (s.patReg t y.ra + y.imm).toNat 2)) ∧ ∀ b, b < 0x40000 → u.seen t b = s.seen t b) ∧
  (∀ (s : State) (t : Fin 16) (f : Ecc) (y : Fields) (ecc : Ecc), f ≠ .uncorrectable → PatAt s t .ldb y → ecc ≠ .uncorrectable → (s.patReg t y.ra + y.imm).toNat + 1 ≤ 0x40000 →
    ∃ u, exec (.patLdb t f ecc) s = .next u ∧ PatReached (s.fetched f) u t y.rd (wordN (s.seenLe t (s.patReg t y.ra + y.imm).toNat 1)) ∧ ∀ b, b < 0x40000 → u.seen t b = s.seen t b) ∧
  (∀ (s : State) (t : Fin 16) (f : Ecc) (y : Fields) (ecc : Ecc), f ≠ .uncorrectable → PatAt s t .ld y → (s.patReg t y.ra + y.imm).toNat % 4 ≠ 0 ∨ 0x40000 < (s.patReg t y.ra + y.imm).toNat + 4 →
    ∃ u, exec (.patLd t f ecc) s = .next u ∧ PatFaulted s u t 2 ∧ u.ledger = s.ledger) ∧
  (∀ (s : State) (t : Fin 16) (f : Ecc) (y : Fields) (ecc : Ecc), f ≠ .uncorrectable → PatAt s t .ldh y → (s.patReg t y.ra + y.imm).toNat % 2 ≠ 0 ∨ 0x40000 < (s.patReg t y.ra + y.imm).toNat + 2 →
    ∃ u, exec (.patLdh t f ecc) s = .next u ∧ PatFaulted s u t 2 ∧ u.ledger = s.ledger) ∧
  (∀ (s : State) (t : Fin 16) (f : Ecc) (y : Fields) (ecc : Ecc), f ≠ .uncorrectable → PatAt s t .ldb y → 0x40000 < (s.patReg t y.ra + y.imm).toNat + 1 →
    ∃ u, exec (.patLdb t f ecc) s = .next u ∧ PatFaulted s u t 2 ∧ u.ledger = s.ledger) ∧
  (∀ (s : State) (t : Fin 16) (f : Ecc) (y : Fields) (i : Nat), f ≠ .uncorrectable → PatAt s t .ld y → (s.patReg t y.ra + y.imm).toNat % 4 = 0 → (s.patReg t y.ra + y.imm).toNat + 4 ≤ 0x40000 → i < 4 → bufByte (s.thr t).buf ((s.patReg t y.ra + y.imm).toNat + i) = none →
    ∃ u, exec (.patLd t f .uncorrectable) s = .next u ∧ PatFaulted s u t 8 ∧ u.ue = satInc 0xFFFF s.ue) ∧
  (∀ (s : State) (t : Fin 16) (f : Ecc) (y : Fields) (i : Nat), f ≠ .uncorrectable → PatAt s t .ldh y → (s.patReg t y.ra + y.imm).toNat % 2 = 0 → (s.patReg t y.ra + y.imm).toNat + 2 ≤ 0x40000 → i < 2 → bufByte (s.thr t).buf ((s.patReg t y.ra + y.imm).toNat + i) = none →
    ∃ u, exec (.patLdh t f .uncorrectable) s = .next u ∧ PatFaulted s u t 8 ∧ u.ue = satInc 0xFFFF s.ue) ∧
  (∀ (s : State) (t : Fin 16) (f : Ecc) (y : Fields) (i : Nat), f ≠ .uncorrectable → PatAt s t .ldb y → (s.patReg t y.ra + y.imm).toNat + 1 ≤ 0x40000 → i < 1 → bufByte (s.thr t).buf ((s.patReg t y.ra + y.imm).toNat + i) = none →
    ∃ u, exec (.patLdb t f .uncorrectable) s = .next u ∧ PatFaulted s u t 8 ∧ u.ue = satInc 0xFFFF s.ue)

/-- R290, R307: a store of a thread puts the low bytes of rd at ra + imm, as the thread sees ledger memory; no other byte that it sees changes. While the store buffer has room ledger memory itself does not change, and a store to a read-only region is a thread fault, cause 3 (R291). Where the spec is silent it follows the model's log, entry 37. -/
def Obligations.ThreadStoresAreBuffered : Prop :=
  (∀ (s : State) (t : Fin 16) (f : Ecc) (y : Fields), f ≠ .uncorrectable → PatAt s t .st y → (s.patReg t y.ra + y.imm).toNat % 4 = 0 → (s.patReg t y.ra + y.imm).toNat < 0x3BE00 →
    ∃ u, exec (.patSt t f) s = .next u ∧ PatReached (s.fetched f) u t 0 0 ∧
      (∀ b, b < 0x40000 → u.seen t b = if (s.patReg t y.ra + y.imm).toNat ≤ b ∧ b < (s.patReg t y.ra + y.imm).toNat + 4 then BitVec.ofNat 8 ((s.patReg t y.rd).toNat / 256 ^ (b - (s.patReg t y.ra + y.imm).toNat)) else s.seen t b) ∧
      ((s.thr t).buf.length < 4 → u.ledger = s.ledger)) ∧
  (∀ (s : State) (t : Fin 16) (f : Ecc) (y : Fields), f ≠ .uncorrectable → PatAt s t .sth y → (s.patReg t y.ra + y.imm).toNat % 2 = 0 → (s.patReg t y.ra + y.imm).toNat < 0x3BE00 →
    ∃ u, exec (.patSth t f) s = .next u ∧ PatReached (s.fetched f) u t 0 0 ∧
      (∀ b, b < 0x40000 → u.seen t b = if (s.patReg t y.ra + y.imm).toNat ≤ b ∧ b < (s.patReg t y.ra + y.imm).toNat + 2 then BitVec.ofNat 8 ((s.patReg t y.rd).toNat / 256 ^ (b - (s.patReg t y.ra + y.imm).toNat)) else s.seen t b) ∧
      ((s.thr t).buf.length < 4 → u.ledger = s.ledger)) ∧
  (∀ (s : State) (t : Fin 16) (f : Ecc) (y : Fields), f ≠ .uncorrectable → PatAt s t .stb y → (s.patReg t y.ra + y.imm).toNat < 0x3BE00 →
    ∃ u, exec (.patStb t f) s = .next u ∧ PatReached (s.fetched f) u t 0 0 ∧
      (∀ b, b < 0x40000 → u.seen t b = if (s.patReg t y.ra + y.imm).toNat ≤ b ∧ b < (s.patReg t y.ra + y.imm).toNat + 1 then BitVec.ofNat 8 ((s.patReg t y.rd).toNat / 256 ^ (b - (s.patReg t y.ra + y.imm).toNat)) else s.seen t b) ∧
      ((s.thr t).buf.length < 4 → u.ledger = s.ledger)) ∧
  (∀ (s : State) (t : Fin 16) (f : Ecc) (y : Fields), f ≠ .uncorrectable → PatAt s t .st y → (s.patReg t y.ra + y.imm).toNat % 4 = 0 → 0x3BE00 ≤ (s.patReg t y.ra + y.imm).toNat → (s.patReg t y.ra + y.imm).toNat + 4 ≤ 0x40000 →
    ∃ u, exec (.patSt t f) s = .next u ∧ PatFaulted s u t 3 ∧ u.ledger = s.ledger) ∧
  (∀ (s : State) (t : Fin 16) (f : Ecc) (y : Fields), f ≠ .uncorrectable → PatAt s t .sth y → (s.patReg t y.ra + y.imm).toNat % 2 = 0 → 0x3BE00 ≤ (s.patReg t y.ra + y.imm).toNat → (s.patReg t y.ra + y.imm).toNat + 2 ≤ 0x40000 →
    ∃ u, exec (.patSth t f) s = .next u ∧ PatFaulted s u t 3 ∧ u.ledger = s.ledger) ∧
  (∀ (s : State) (t : Fin 16) (f : Ecc) (y : Fields), f ≠ .uncorrectable → PatAt s t .stb y → 0x3BE00 ≤ (s.patReg t y.ra + y.imm).toNat → (s.patReg t y.ra + y.imm).toNat + 1 ≤ 0x40000 →
    ∃ u, exec (.patStb t f) s = .next u ∧ PatFaulted s u t 3 ∧ u.ledger = s.ledger)

/-- R290, R308: XCHG and SYNC drain the thread's store buffer first: afterwards ledger memory itself holds what the thread saw, and XCHG has exchanged rd with the word at ra + imm there. R307: STORE_BUFFER_DRAIN takes the oldest store out of a buffer and into the memory, which no thread's own view shows. Where the spec is silent it follows the model's log, entry 37. -/
def Obligations.ExchangeAndDrainPublish : Prop :=
  (∀ (s : State) (t : Fin 16) (f : Ecc) (y : Fields) (ecc : Ecc), f ≠ .uncorrectable → ecc ≠ .uncorrectable → PatAt s t .xchg y → (s.patReg t y.ra + y.imm).toNat % 4 = 0 → (s.patReg t y.ra + y.imm).toNat < 0x3BE00 →
    ∃ u, exec (.patXchg t f ecc) s = .next u ∧ PatReached (s.fetched f) u t y.rd (wordN (s.seenLe t (s.patReg t y.ra + y.imm).toNat 4)) ∧ (u.thr t).buf = [] ∧
      ∀ b, b < 0x40000 → memGet 0 u.ledger b = if (s.patReg t y.ra + y.imm).toNat ≤ b ∧ b < (s.patReg t y.ra + y.imm).toNat + 4 then BitVec.ofNat 8 ((s.patReg t y.rd).toNat / 256 ^ (b - (s.patReg t y.ra + y.imm).toNat)) else s.seen t b) ∧
  (∀ (s : State) (t : Fin 16) (f : Ecc) (y : Fields), f ≠ .uncorrectable → PatAt s t .sync y →
    ∃ u, exec (.patSync t f) s = .next u ∧ PatReached (s.fetched f) u t 0 0 ∧ (u.thr t).buf = [] ∧ ∀ b, b < 0x40000 → memGet 0 u.ledger b = s.seen t b) ∧
  (∀ (s : State) (t : Fin 16) (e : StEntry) (rest : List StEntry), (s.thr t).buf = e :: rest →
    ∃ u, exec (.storeBufferDrain t) s = .next u ∧ u.thr t = { s.thr t with buf := rest } ∧ (∀ m, m ≠ t.val → u.thr m = s.thr m) ∧
      (∀ b, b < 0x40000 → memGet 0 u.ledger b = if e.adr ≤ b ∧ b < e.adr + e.len then BitVec.ofNat 8 (e.data.toNat / 256 ^ (b - e.adr)) else memGet 0 s.ledger b) ∧
      (∀ b, b < 0x40000 → u.seen t b = s.seen t b) ∧ u.noThreads = { s.noThreads with ledger := u.ledger })

/-- R293: WAITE completes at once when its event is pending and no interrupt of the thread takes it: rd receives 0 and the pending bit clears. An event that is not pending, or that an interrupt can take (R297), leaves the thread in WAIT with its wait armed; a thread outside the event's mask completes with BAD_DESC. R294: WAITM arms the mark word at ra + imm, as the thread sees it, and waits; a target that stands at once is noted in the mark. R293: the innermost WAITE of a waiting thread completes when its event is pending and no interrupt takes it, with status 0, and its pending bit clears; at its timeout it completes TIMEOUT (0x0D). R294: the innermost WAITM completes with the status that its mark reported and FIRE takes the fire instant. Each time the thread issues the instruction behind its wait, and no other register changes. R315, R316: when the deadlock condition has held for twice the slot's length, and not before, the WAITE of the highest-numbered waiting thread completes DEADLOCK_BREAK (0x0E). Where the spec is silent it follows the model's log, entry 37. -/
def Obligations.ThreadWaitsAndTheirEnds : Prop :=
  (
  (∀ (s : State) (t : Fin 16) (f : Ecc) (y : Fields), f ≠ .uncorrectable → PatAt s t .waite y → wbit (s.route y.num) t = false →
    ∃ u, exec (.patWaite t f) s = .next u ∧ PatWrote (s.fetched f) u t y.rd 0x0A) ∧
  (∀ (s : State) (t : Fin 16) (f : Ecc) (y : Fields), f ≠ .uncorrectable → PatAt s t .waite y → wbit (s.route y.num) t = true → (s.pend y.num).getLsbD t = true →
    irqTakeable (s.thr t) (s.route y.num) = false →
    ∃ u, exec (.patWaite t f) s = .next u ∧ PatMoved (s.fetched f) u t { (s.thr t).setReg y.rd 0 with pc := (s.thr t).pc + 4 } ∧
      PendIs s u y.num (s.pend y.num &&& ~~~BitVec.ofNat 16 (2 ^ t.val))) ∧
  (∀ (s : State) (t : Fin 16) (f : Ecc) (y : Fields), f ≠ .uncorrectable → PatAt s t .waite y → wbit (s.route y.num) t = true →
    (s.pend y.num).getLsbD t = false ∨ irqTakeable (s.thr t) (s.route y.num) = true →
    ∃ u, exec (.patWaite t f) s = .next u ∧ (∀ e, u.pend e = s.pend e) ∧
      PatMoved (s.fetched f) u t { s.thr t with st := .wait, waits := { on := .event y.num y.rd (s.patReg t y.ra), pc := (s.thr t).pc, level := (s.thr t).level, since := s.time.st } :: (s.thr t).waits }) ∧
  (∀ (s : State) (t : Fin 16) (f : Ecc) (y : Fields) (a : Nat) (w : List Byte) (ecc : Ecc), f ≠ .uncorrectable → ecc ≠ .uncorrectable → PatAt s t .waitm y → a = (s.patReg t y.ra + y.imm).toNat → a % 16 = 0 → a + 16 ≤ 0x40000 →
    w = (List.range 16).map (fun i => s.seen t (a + i)) → s.markBad w = false →
    ∃ u, exec (.patWaitm t f ecc) s = .next u ∧ u.marks = s.marks ++ [s.evalMark (s.markOf (.thread t a) w)] ∧ (u.thr t).st = .wait ∧
      (u.thr t).waits = { on := .mark a y.rd, pc := (s.thr t).pc, level := (s.thr t).level, since := s.time.st } :: (s.thr t).waits ∧ (∀ i, u.patReg t i = s.patReg t i) ∧
      (∀ m, m ≠ t.val → u.thr m = s.thr m) ∧ (∀ b, b < 0x40000 → u.seen t b = s.seen t b) ∧
      u.noThreads = { ((s.fetched f).fetched ecc).noThreads with marks := u.marks, ledger := u.ledger })) ∧
  (
  (∀ (s : State) (t : Fin 16) (w : WaitRec) (rest : List WaitRec) (e rd : Nat) (v : Word), (s.thr t).st = .wait → (s.thr t).waits = w :: rest → w.on = .event e rd v →
    w.result = none → (s.pend e).getLsbD t = true → irqTakeable (s.thr t) (s.route e) = false →
    ∃ u, exec (.waiteComplete t) s = .next u ∧ PatMoved s u t { (s.thr t).setReg rd 0 with st := .run, pc := w.pc + 4, waits := rest } ∧
      PendIs s u e (s.pend e &&& ~~~BitVec.ofNat 16 (2 ^ t.val))) ∧
  (∀ (s : State) (t : Fin 16) (w : WaitRec) (rest : List WaitRec) (e rd : Nat) (v : Word), (s.thr t).st = .wait → (s.thr t).waits = w :: rest → w.on = .event e rd v →
    w.result = none → v ≠ 0 → 16 * v.toNat ≤ (s.time.st - w.since).toNat →
    ∃ u, exec (.waiteTimeout t) s = .next u ∧ PatMoved s u t { (s.thr t).setReg rd 0x0D with st := .run, pc := w.pc + 4, waits := rest } ∧ ∀ k, u.pend k = s.pend k) ∧
  (∀ (s : State) (t : Fin 16) (w : WaitRec) (rest : List WaitRec) (a rd : Nat) (v : Word), (s.thr t).st = .wait → (s.thr t).waits = w :: rest → w.on = .mark a rd →
    w.result = some v →
    ∃ u, exec (.waitmComplete t) s = .next u ∧ PatMoved s u t { (s.thr t).setReg rd v with st := .run, pc := w.pc + 4, waits := rest, fire := w.fire } ∧
      ∀ k, u.pend k = s.pend k) ∧
  (∀ (s : State) (t : Fin 16), s.deadlocked = true → 32000 * s.slotLenAt s.deadSince ≤ (s.time.st - s.deadSince).toNat → thrTakes (s.thr t) = true → (∀ k, t.val < k → k < 16 → thrTakes (s.thr k) = false) →
    ∃ u, exec .deadlockBreak s = .next u ∧ u.deadlock = true ∧ u.broken = BitVec.ofNat 4 t ∧ (u.thr t).st = .run ∧
      ∀ w rest e rd v, (s.thr t).waits = w :: rest → w.on = .event e rd v → rd ≠ 0 → u.patReg t rd = 0x0E ∧ (u.thr t).pc = w.pc + 4) ∧
  (∀ (s : State), s.deadlocked = false ∨ (s.time.st - s.deadSince).toNat < 32000 * s.slotLenAt s.deadSince → exec .deadlockBreak s = .next s))

/-- R298, R299, R308: EMIT drains the thread's stores and then makes its event pending in every thread of the event's mask. R290: EVCLR clears the event's pending bit of its own thread. Both go on; NUM 511 is a thread fault, cause 4 (R291). R302: EV_PEND_WRITE clears the written bits of the event that PATTERN.EV_SEL selects. R302, R303: a claim enters the handler of the selected interrupt: the return address goes to NPC, or to FPC for a fast one, the event's number to IEV, the pc to VBASE + 4 x event, the level bit is set and the event's pending bit of the thread clears. A waiting thread runs. RETI goes back to the return address of the innermost handler and clears its bit; outside a handler it is a thread fault, cause 5 (R291). Where the spec is silent it follows the model's log, entry 37. -/
def Obligations.EventsAndInterrupts : Prop :=
  (
  (∀ (s : State) (t : Fin 16) (f : Ecc) (y : Fields), f ≠ .uncorrectable → PatAt s t .emit y → y.num < 511 →
    ∃ u, exec (.patEmit t f) s = .next u ∧ PendIs s u y.num (s.pend y.num ||| (s.route y.num).setWidth 16) ∧ (u.thr t).pc = (s.thr t).pc + 4 ∧ (u.thr t).st = .run ∧
      (u.thr t).buf = [] ∧ (∀ i, u.patReg t i = s.patReg t i) ∧ (∀ b, b < 0x40000 → memGet 0 u.ledger b = s.seen t b) ∧ u.plant = (s.fetched f).plant) ∧
  (∀ (s : State) (t : Fin 16) (f : Ecc) (y : Fields), f ≠ .uncorrectable → PatAt s t .evclr y → y.num ≠ 511 →
    ∃ u, exec (.patEvclr t f) s = .next u ∧ PatMoved (s.fetched f) u t { s.thr t with pc := (s.thr t).pc + 4 } ∧
      PendIs s u y.num (s.pend y.num &&& ~~~BitVec.ofNat 16 (2 ^ t.val))) ∧
  (∀ (s : State) (t : Fin 16) (f : Ecc) (y : Fields), f ≠ .uncorrectable → PatAt s t .emit y → y.num = 511 → ∃ u, exec (.patEmit t f) s = .next u ∧ PatFaulted s u t 4) ∧
  (∀ (s : State) (t : Fin 16) (f : Ecc) (y : Fields), f ≠ .uncorrectable → PatAt s t .evclr y → y.num = 511 → ∃ u, exec (.patEvclr t f) s = .next u ∧ PatFaulted s u t 4) ∧
  (∀ (s : State) (v : Word) (e : Nat), s.ringsUp = true → e = (s.reg Reg.patternEvSel).toNat % 512 → e ≠ 511 →
    ∃ u, exec (.evPendWrite v) s = .next u ∧ PendIs s u e (s.pend e &&& ~~~v.setWidth 16) ∧ (∀ m, (u.thr m).noSel = (s.thr m).noSel) ∧
      { u.noThreads with evPend := s.evPend } = s.noThreads)) ∧
  (
  (∀ (s : State) (t : Fin 16) (e : Nat), (s.thr t).sel = some (e, false) → thrTakes (s.thr t) = true → e < 511 →
    ∃ u, exec (.interruptClaim t) s = .next u ∧ (u.thr t).st = .run ∧ (u.thr t).npc = wordN (s.thr t).pc ∧ (u.thr t).pc = (s.thr t).vbase + 4 * e ∧
      (u.thr t).ievN = BitVec.ofNat 9 e ∧ (u.thr t).inNormal = true ∧ (u.thr t).inFast = (s.thr t).inFast ∧ (u.thr t).fpc = (s.thr t).fpc ∧
      (∀ i, u.patReg t i = s.patReg t i) ∧ PendIs s u e (s.pend e &&& ~~~BitVec.ofNat 16 (2 ^ t.val)) ∧ (∀ m, m ≠ t.val → u.thr m = s.thr m) ∧
      { u.noThreads with evPend := s.evPend } = s.noThreads) ∧
  (∀ (s : State) (t : Fin 16) (e : Nat), (s.thr t).sel = some (e, true) → thrTakes (s.thr t) = true → e < 511 →
    ∃ u, exec (.interruptClaim t) s = .next u ∧ (u.thr t).st = .run ∧ (u.thr t).fpc = wordN (s.thr t).pc ∧ (u.thr t).pc = (s.thr t).vbase + 4 * e ∧
      (u.thr t).ievF = BitVec.ofNat 9 e ∧ (u.thr t).inFast = true ∧ (u.thr t).inNormal = (s.thr t).inNormal ∧ (u.thr t).npc = (s.thr t).npc ∧
      (u.thr t).p = (s.thr t).p ∧ (u.thr t).f = (s.thr t).f ∧ PendIs s u e (s.pend e &&& ~~~BitVec.ofNat 16 (2 ^ t.val)) ∧ (∀ m, m ≠ t.val → u.thr m = s.thr m) ∧
      { u.noThreads with evPend := s.evPend } = s.noThreads) ∧
  (∀ (s : State) (t : Fin 16) (f : Ecc) (y : Fields), f ≠ .uncorrectable → PatAt s t .reti y → (s.thr t).inFast = true → (s.thr t).waits = [] →
    ∃ u, exec (.patReti t f) s = .next u ∧ PatMoved (s.fetched f) u t { s.thr t with pc := (s.thr t).fpc.toNat / 4 * 4, inFast := false } ∧ ∀ e, u.pend e = s.pend e) ∧
  (∀ (s : State) (t : Fin 16) (f : Ecc) (y : Fields), f ≠ .uncorrectable → PatAt s t .reti y → (s.thr t).inFast = false → (s.thr t).inNormal = true → (s.thr t).waits = [] →
    ∃ u, exec (.patReti t f) s = .next u ∧ PatMoved (s.fetched f) u t { s.thr t with pc := (s.thr t).npc.toNat / 4 * 4, inNormal := false } ∧ ∀ e, u.pend e = s.pend e) ∧
  (∀ (s : State) (t : Fin 16) (f : Ecc) (y : Fields), f ≠ .uncorrectable → PatAt s t .reti y → (s.thr t).inFast = false → (s.thr t).inNormal = false →
    ∃ u, exec (.patReti t f) s = .next u ∧ PatFaulted s u t 5))

/-- R292: MFS puts a special register of the thread into rd; ST_LO latches ST_HI. MTS writes ISTAT's enables, NPC, FPC or NRD from rd. A reserved register, or a read-only one of MTS, is a thread fault, cause 6 (R291). Where the spec is silent it follows the model's log, entry 37. -/
def Obligations.ThreadSpecialRegisters : Prop :=
  (∀ (s : State) (t : Fin 16) (f : Ecc) (y : Fields) (k : Nat), f ≠ .uncorrectable → PatAt s t .mfs y → y.imm.toNat = k → k < 12 → y.rd ≠ 0 →
    ∃ u, exec (.patMfs t f) s = .next u ∧ (∀ i, i ≠ y.rd → u.patReg t i = s.patReg t i) ∧ (u.thr t).pc = (s.thr t).pc + 4 ∧ (∀ m, m ≠ t.val → u.thr m = s.thr m) ∧
      u.noThreads = (s.fetched f).noThreads ∧ (u.thr t).stHi = (if k = 1 then s.time.st.extractLsb' 32 32 else (s.thr t).stHi) ∧
      u.patReg t y.rd = (match k with
        | 0 => wordN t.val
        | 1 => s.time.st.setWidth 32
        | 2 => (s.thr t).stHi
        | 3 => s.plan.slotNow
        | 4 => (s.thr t).fire.setWidth 32
        | 5 => (s.thr t).fire.extractLsb' 32 32
        | 6 => if (s.thr t).inFast then (s.thr t).ievF.setWidth 32 else (s.thr t).ievN.setWidth 32
        | 7 => wordN (b2n (s.thr t).nie + 2 * b2n (s.thr t).fie + 4 * b2n (s.thr t).inNormal + 8 * b2n (s.thr t).inFast)
        | 8 => (s.thr t).npc
        | 9 => (s.thr t).fpc
        | 10 => wordN (s.thr t).nwr
        | _ => wordN (s.thr t).nrd)) ∧
  (∀ (s : State) (t : Fin 16) (f : Ecc) (y : Fields), f ≠ .uncorrectable → PatAt s t .mfs y → 12 ≤ y.imm.toNat → ∃ u, exec (.patMfs t f) s = .next u ∧ PatFaulted s u t 6) ∧
  (∀ (s : State) (t : Fin 16) (f : Ecc) (y : Fields), f ≠ .uncorrectable → PatAt s t .mts y → y.imm = 7 → ∃ u, exec (.patMts t f) s = .next u ∧
    PatMoved (s.fetched f) u t { s.thr t with nie := wbit (s.patReg t y.rd) 0, fie := wbit (s.patReg t y.rd) 1, pc := (s.thr t).pc + 4 } ∧ ∀ e, u.pend e = s.pend e) ∧
  (∀ (s : State) (t : Fin 16) (f : Ecc) (y : Fields), f ≠ .uncorrectable → PatAt s t .mts y → y.imm = 8 → ∃ u, exec (.patMts t f) s = .next u ∧
    PatMoved (s.fetched f) u t { s.thr t with npc := s.patReg t y.rd, pc := (s.thr t).pc + 4 } ∧ ∀ e, u.pend e = s.pend e) ∧
  (∀ (s : State) (t : Fin 16) (f : Ecc) (y : Fields), f ≠ .uncorrectable → PatAt s t .mts y → y.imm = 9 → ∃ u, exec (.patMts t f) s = .next u ∧
    PatMoved (s.fetched f) u t { s.thr t with fpc := s.patReg t y.rd, pc := (s.thr t).pc + 4 } ∧ ∀ e, u.pend e = s.pend e) ∧
  (∀ (s : State) (t : Fin 16) (f : Ecc) (y : Fields), f ≠ .uncorrectable → PatAt s t .mts y → y.imm = 0xB → (s.thr t).held = [] → ∃ u, exec (.patMts t f) s = .next u ∧
    PatMoved (s.fetched f) u t { s.thr t with nrd := (s.patReg t y.rd).toNat % 16, pc := (s.thr t).pc + 4 } ∧ ∀ e, u.pend e = s.pend e) ∧
  (∀ (s : State) (t : Fin 16) (f : Ecc) (y : Fields), f ≠ .uncorrectable → PatAt s t .mts y → ¬ y.imm.toNat ∈ [7, 8, 9, 0xB] → ∃ u, exec (.patMts t f) s = .next u ∧ PatFaulted s u t 6)

/-- R290: HALT drains the thread's stores and halts it behind itself. R314: KICK restarts the watchdog's time when the thread's bit in PATTERN.KICK_EN is set and is ignored otherwise. R313: RSP by an acting device in SOLO writes rb to SETPOINT of rail ra, counts SP_SEQ and gives rd 0; a rail with no active page, or of a fused quarter, gives 0x0A, and a device in no acting role 0x13 (R398). Where the spec is silent it follows the model's log, entry 37. -/
def Obligations.HaltKickAndSetpoint : Prop :=
  (∀ (s : State) (t : Fin 16) (f : Ecc) (y : Fields), f ≠ .uncorrectable → PatAt s t .halt y →
    ∃ u, exec (.patHalt t f) s = .next u ∧ u.thr t = { s.thr t with st := .halted, stAt := s.time.st, pc := (s.thr t).pc + 4, buf := [] } ∧ (∀ m, m ≠ t.val → u.thr m = s.thr m) ∧
      (∀ b, b < 0x40000 → memGet 0 u.ledger b = s.seen t b) ∧ u.noThreads = { (s.fetched f).noThreads with ledger := u.ledger }) ∧
  (∀ (s : State) (t : Fin 16) (f : Ecc) (y : Fields), f ≠ .uncorrectable → PatAt s t .kick y →
    ∃ u, exec (.patKick t f) s = .next u ∧
      u = { (s.fetched f).setThr t { s.thr t with pc := (s.thr t).pc + 4 } with
            sup := if wbit (s.reg Reg.patternKickEn) t then { s.sup with wdtSince := s.cycles, wdtSaid := false } else s.sup }) ∧
  (∀ (s : State) (t : Fin 16) (f : Ecc) (y : Fields) (m : Nat), f ≠ .uncorrectable → PatAt s t .rsp y → m = (s.patReg t y.ra).toNat → s.railOk m = true → (s.rail m).hasPage = true → s.twin.st = .solo →
    ∃ u, exec (.patRsp t f) s = .next u ∧ PatWrote ((s.fetched f).writeSetpoint m (s.patReg t y.rb)) u t y.rd 0) ∧
  (∀ (s : State) (t : Fin 16) (f : Ecc) (y : Fields) (m : Nat), f ≠ .uncorrectable → PatAt s t .rsp y → m = (s.patReg t y.ra).toNat → s.railOk m = false ∨ (s.rail m).hasPage = false →
    ∃ u, exec (.patRsp t f) s = .next u ∧ PatWrote (s.fetched f) u t y.rd 0x0A) ∧
  (∀ (s : State) (t : Fin 16) (f : Ecc) (y : Fields) (m : Nat), f ≠ .uncorrectable → PatAt s t .rsp y → m = (s.patReg t y.ra).toNat → s.railOk m = true → (s.rail m).hasPage = true → s.twin.st = .shadow →
    ∃ u, exec (.patRsp t f) s = .next u ∧ PatWrote (s.fetched f) u t y.rd 0x13)

/-- R309, R310: GRANT checks the record at ra + imm, as the thread's stores left it: posted, it is in the request table with the thread's lowest free tag, which rd receives; a bad address or record gives BAD_DESC, no free tag BUSY and a device in no acting role TWIN_ROLE, and nothing is posted. R312: GREL asks for the release of the thread's own grant of that tag; of any other tag rd receives 0x0A. Where the spec is silent it follows the model's log, entries 37, 47. -/
def Obligations.ThreadGrants : Prop :=
  (∀ (s : State) (t : Fin 16) (f : Ecc) (y : Fields) (a g : Nat) (ecc : Ecc), f ≠ .uncorrectable → ecc ≠ .uncorrectable → PatAt s t .grant y → a = (s.patReg t y.ra + y.imm).toNat → a % 32 = 0 → a < 0x3BE00 →
    s.requestBad (((s.fetched f).drainAll t).ledgerBytes a 32) = false → s.twin.st = .solo ∨ s.twin.st = .active → s.patTag t = some g →
    ∃ u, exec (.patGrant t f ecc) s = .next u ∧ PatWrote ((((s.fetched f).drainAll t).fetched ecc).postRequest (requestOf g (some t) (a + 0x20) (((s.fetched f).drainAll t).ledgerBytes a 32))) u t y.rd (wordN g)) ∧
  (∀ (s : State) (t : Fin 16) (f : Ecc) (y : Fields) (a : Nat) (ecc : Ecc), f ≠ .uncorrectable → PatAt s t .grant y → a = (s.patReg t y.ra + y.imm).toNat → a % 32 ≠ 0 ∨ 0x3BE00 ≤ a →
    ∃ u, exec (.patGrant t f ecc) s = .next u ∧ PatWrote ((s.fetched f).drainAll t) u t y.rd 0x0A000000) ∧
  (∀ (s : State) (t : Fin 16) (f : Ecc) (y : Fields) (a : Nat) (ecc : Ecc), f ≠ .uncorrectable → ecc ≠ .uncorrectable → PatAt s t .grant y → a = (s.patReg t y.ra + y.imm).toNat → a % 32 = 0 → a < 0x3BE00 →
    s.requestBad (((s.fetched f).drainAll t).ledgerBytes a 32) = false → s.twin.st = .solo ∨ s.twin.st = .active → s.patTag t = none →
    ∃ u, exec (.patGrant t f ecc) s = .next u ∧ PatWrote (((s.fetched f).drainAll t).fetched ecc) u t y.rd 0x08000000) ∧
  (∀ (s : State) (t : Fin 16) (f : Ecc) (y : Fields) (a : Nat) (ecc : Ecc), f ≠ .uncorrectable → ecc ≠ .uncorrectable → PatAt s t .grant y → a = (s.patReg t y.ra + y.imm).toNat → a % 32 = 0 → a < 0x3BE00 →
    s.requestBad (((s.fetched f).drainAll t).ledgerBytes a 32) = false → s.twin.st = .shadow →
    ∃ u, exec (.patGrant t f ecc) s = .next u ∧ PatWrote (((s.fetched f).drainAll t).fetched ecc) u t y.rd 0x13000000) ∧
  (∀ (s : State) (t : Fin 16) (f : Ecc) (y : Fields) (k : Grant), f ≠ .uncorrectable → PatAt s t .grel y → s.twin.st = .solo ∨ s.twin.st = .active → k ∈ s.plan.grants → k.tag = (s.patReg t y.ra).toNat →
    k.thread = some t.val → k.ended = false →
    ∃ u, exec (.patGrel t f) s = .next u ∧ PatWrote { (s.fetched f) with plan := { s.plan with releases := s.plan.releases ++ [(k.tag, none)] } } u t y.rd 0) ∧
  (∀ (s : State) (t : Fin 16) (f : Ecc) (y : Fields), f ≠ .uncorrectable → PatAt s t .grel y → s.twin.st = .solo ∨ s.twin.st = .active →
    (∀ k ∈ s.plan.grants, k.tag = (s.patReg t y.ra).toNat → k.thread = some t.val → k.ended = true) →
    ∃ u, exec (.patGrel t f) s = .next u ∧ PatWrote (s.fetched f) u t y.rd 0x0A) ∧
  (∀ (s : State) (t : Fin 16) (f : Ecc) (y : Fields) (a : Nat), f ≠ .uncorrectable → PatAt s t .grant y → a = (s.patReg t y.ra + y.imm).toNat → a % 32 = 0 → a < 0x3BE00 →
    ∃ u, exec (.patGrant t f .uncorrectable) s = .next u ∧ PatFaulted s u t 8 ∧ u.plan = s.plan)

/-- R105, R172, R174, R177: at a boundary of the lead the hardware words of the rail close: P_MEAS and the energy accumulator hold what the cells' summaries of the period measured (the roundings are the model's, log entry 7), and the envelope of the closed period, 110 % of PMAX and PMIN, is judged. Before the boundary has come nothing changes. R173: at b + PUB_DELAY the lead's staged words are published if its run has ENDed, and are discarded otherwise, with PUB_LATE; no other word but RAIL_FLAGS changes. Where the spec is silent it follows the model's log, entries 7, 45. -/
def Obligations.LeadBoundaryAndPublication : Prop :=
  (∀ (s : State) (m : Fin 64) (x : LeadMeas) (e : Nat) (b : DWord), s.leadDue m = some e → b = BitVec.ofNat 64 (e + s.leadOff m) →
    ∃ t, exec (.leadBoundary m x) s = .next t ∧ t.rmLe m 0x00 4 = toTwos 32 (s.railPower m b) ∧
      t.rmLe m 0x10 8 = toTwos 64 (roundDiv ((s.rail m).eFine + s.railEnergy m b) 1000000000000) ∧ (t.rail m).pMeas = s.railPower m b ∧
      ((t.rail m).envWarn = true ↔ 11 * rpPmax (s.rail m).active < 10 * s.railPower m b ∨ 10 * s.railPower m b < 11 * rpPmin (s.rail m).active) ∧
      (t.rail m).edge = some (BitVec.ofNat 64 e) ∧ (t.rail m).leadAt = b ∧ t.drawerMem = s.drawerMem ∧ t.nvm = s.nvm ∧ t.time.st = s.time.st) ∧
  (∀ (s : State) (m : Fin 64) (x : LeadMeas), s.leadDue m = none → exec (.leadBoundary m x) s = .next s) ∧
  (∀ (s : State) (m : Fin 64), s.pubDue m = true → (s.rail m).leadEnded = true → ((s.rail m).endAt - (s.rail m).leadAt).toNat ≤ rpPubDelay (s.rail m).active → ((s.rail m).pubStage.map (·.1)).Nodup →
    (∀ e ∈ (s.rail m).pubStage, 0xC0 ≤ e.1 ∧ e.1 < 0x100) →
    ∃ t, exec (.railPublication m) s = .next t ∧ t.rail m = { s.rail m with pubStage := [], pubLate := false, pubDone := true } ∧
      (∀ e ∈ (s.rail m).pubStage, memGet 0 t.railMem (4096 * m + e.1) = e.2) ∧
      (∀ a, (∀ e ∈ (s.rail m).pubStage, a ≠ 4096 * m + e.1) → (a < 4096 * m + 0x48 ∨ 4096 * m + 0x4C ≤ a) → memGet 0 t.railMem a = memGet 0 s.railMem a)) ∧
  (∀ (s : State) (m : Fin 64), s.pubDue m = true → (s.rail m).leadEnded = false ∨ rpPubDelay (s.rail m).active < ((s.rail m).endAt - (s.rail m).leadAt).toNat →
    ∃ t, exec (.railPublication m) s = .next t ∧ t.rail m = { s.rail m with pubStage := [], pubLate := true, pubDone := true } ∧
      (∀ a, (a < 4096 * m + 0x48 ∨ 4096 * m + 0x4C ≤ a) → memGet 0 t.railMem a = memGet 0 s.railMem a)) ∧
  (∀ (s : State) (m : Fin 64), s.pubDue m = false → exec (.railPublication m) s = .next s)

/-- R170: PREARM_HOLD after the last provisional pass an ARMED rail with no started grant is in STANDBY again. R178: a rail whose envelope has been breached in ENV_DWELL consecutive periods is held in ENV_TRIP, with its SAFETY bit, and its grants end (R267). R182, R184: a burst that has lasted BURST_MAX x T ends into the detector's hold-off, which ends after UNDERSHOOT_HOLDOFF lead periods. None of these happens before its time. Where the spec is silent it follows the model's log, entries 45, 54. -/
def Obligations.PrearmTripAndBurst : Prop :=
  (∀ (s : State) (m : Fin 64), (s.rail m).st = .armed → s.grantOn m = false → rpPrearmHold (s.rail m).active ≤ ((s.rail m).leadAt - (s.rail m).provAt).toNat →
    ∃ t, exec (.prearmHoldExpiry m) s = .next t ∧ t.rail m = { s.rail m with st := .standby, prov := false } ∧ (∀ k, k ≠ m.val → t.rail k = s.rail k) ∧
      t.plan = s.plan ∧ t.railMem = s.railMem ∧ t.drawerMem = s.drawerMem) ∧
  (∀ (s : State) (m : Fin 64), (s.rail m).st ≠ .armed ∨ s.grantOn m = true ∨ ((s.rail m).leadAt - (s.rail m).provAt).toNat < rpPrearmHold (s.rail m).active → exec (.prearmHoldExpiry m) s = .next s) ∧
  (∀ (s : State) (m : Fin 64), (s.rail m).hasPage = true → (s.rail m).st ≠ .off → (s.rail m).st ≠ .envTrip → rpDwell (s.rail m).active ≤ (s.rail m).envCount →
    ∃ t, exec (.envTrip m) s = .next t ∧ (t.rail m).st = .envTrip ∧ (t.rail m).envWarn = true ∧ (t.rail m).active = (s.rail m).active ∧ t.safetyStat.getLsbD 4 = true ∧
      (∀ g ∈ t.plan.grants, g.rail = m.val → g.aborted = true) ∧ t.railMem = s.railMem) ∧
  (∀ (s : State) (m : Fin 64), (s.rail m).burst = true → rpK16 (s.rail m).burstPage 0x114 * (s.rail m).tAct / 65536 ≤ (s.time.st - (s.rail m).burstAt).toNat →
    ∃ t, exec (.burstEnd m) s = .next t ∧ t.rail m = { s.rail m with burst := false, burstPage := [], holdoff := true, holdN := 0 } ∧ (∀ k, k ≠ m.val → t.rail k = s.rail k) ∧
      (∀ n ∈ rpCells m (s.rail m).burstPage, (s.lane n).burst = true → (t.lane n).burstTill.isSome = true) ∧ t.engines = s.engines ∧ t.railMem = s.railMem) ∧
  (∀ (s : State) (m : Fin 64), (s.rail m).burst = false ∨ (s.time.st - (s.rail m).burstAt).toNat < rpK16 (s.rail m).burstPage 0x114 * (s.rail m).tAct / 65536 →
    exec (.burstEnd m) s = .next s) ∧
  (∀ (s : State) (m : Fin 64), (s.rail m).holdoff = true → rpK16 (s.rail m).active 0x112 ≤ (s.rail m).holdN →
    exec (.undershootHoldoffEnd m) s = .next (s.setRail m { s.rail m with holdoff := false })) ∧
  (∀ (s : State) (m : Fin 64), (s.rail m).holdN < rpK16 (s.rail m).active 0x112 → exec (.undershootHoldoffEnd m) s = .next s)

/-- R187, R188: an edge of SYNC_IN measures the period and counts, for each FEEDER with SYNC_EN, edges spaced within its tolerance of T; a missing edge counts against it, and the third in a row clears SYNCED and starts the glide back to T. A glide that has reached T ends, and no other does. R200: with LIMIT_TTL a store whose limits have not been renewed is BLOCKED with LIMITS_STALE, but stays in a hand-over. R197: TAPER_TIME below I_TAPER in CV is TAPER_DONE. Where the spec is silent it follows the model's log, entries 28, 45. -/
def Obligations.SyncTaperAndStaleLimits : Prop :=
  (∀ (s : State) (e : DWord), s.sync.lastEdge = some e → 0 < (s.time.st - e).toNat → (s.time.st - e).toNat < 2 ^ 24 →
    ∃ t, exec .syncInEdge s = .next t ∧ t.sync = { s.sync with lastEdge := some s.time.st, period := (s.time.st - e).setWidth 24 } ∧
      (s.railsWf → ∀ m, (s.rail m).isKind 1 = false ∨ rpFlag (s.rail m).active 0 = false → t.rail m = s.rail m)) ∧
  (∀ (s : State) (m : Fin 64), s.railsWf → (s.rail m).acquired = true → s.edgeMissed (s.rail m) = true → 2 ≤ (s.rail m).syncMiss →
    ∃ t, exec .syncEdgeMissing s = .next t ∧ t.sync = { s.sync with lost := true } ∧
      t.rail m = { s.rail m with synced := false, glide := (s.rail m).tAct != rpPeriod (s.rail m).active, syncN := 0, syncMiss := 0 }) ∧
  (∀ (s : State) (m : Fin 64), s.railsWf → (s.rail m).acquired = true → s.edgeMissed (s.rail m) = true → (s.rail m).syncMiss < 2 →
    ∃ t, exec .syncEdgeMissing s = .next t ∧ t.rail m = { s.rail m with syncMiss := (s.rail m).syncMiss + 1 }) ∧
  (∀ (s : State) (m : Fin 64), (s.rail m).glide = true → (s.rail m).tAct = rpPeriod (s.rail m).active →
    exec (.glideComplete m) s = .next (s.setRail m { s.rail m with glide := false })) ∧
  (∀ (s : State) (m : Fin 64), (s.rail m).tAct ≠ rpPeriod (s.rail m).active → exec (.glideComplete m) s = .next s) ∧
  (∀ (s : State) (m : Fin 64), (s.rail m).isKind 3 = true → (s.rail m).st = .run → (s.rail m).sub = 2 →
    (∃ a, (s.rail m).taperAt = some a ∧ 16000000000 * leAt (s.rail m).active 0x10E 2 ≤ (s.time.st - a).toNat) →
    ∃ t, exec (.taperDone m) s = .next t ∧ t.rail m = { s.rail m with sub := 3, vreg := false, chgEvt := setBit (s.rail m).chgEvt 2 true } ∧
      (∀ k, k ≠ m.val → t.rail k = s.rail k) ∧ { t.inner with rails := s.rails } = s.inner) ∧
  (∀ (s : State) (m : Fin 64), (s.rail m).isKind 3 = true → rpTtl (s.rail m).active ≠ 0 → (s.rail m).limitsStale = false → 16000000000 * rpTtl (s.rail m).active ≤ (s.time.st - (s.rail m).renewAt).toNat →
    ∃ t, exec (.limitsStale m) s = .next t ∧
      (t.rail m).sub = (if (s.rail m).st = .run ∧ (s.rail m).sub ≠ 5 ∧ (s.rail m).sub ≠ 6 then 7 else (s.rail m).sub) ∧
      t.rail m = { s.rail m with limitsStale := true, chgEvt := setBit (s.rail m).chgEvt 5 true, sub := (t.rail m).sub } ∧
      (∀ k, k ≠ m.val → t.rail k = s.rail k) ∧ { t.inner with rails := s.rails } = s.inner)

/-- R193, R194: a source in its window for SRC_QUAL_TIME is QUALIFIED and one that closes its loops is ONLINE, its loops' state at zero; when a lost source is back after the hand-over the stores that took go to RETURNING. R195, R201: a syncing or online source is marked lost once its trip input or its window says so; an ONLINE one starts the hand-over, and every store that may take is to enter TAKING at its next boundary. R202: four periods in band end the hand-over; one slot without that makes it late. Where the spec is silent it follows the model's log, entry 45. -/
def Obligations.SourcesAndHandover : Prop :=
  (∀ (s : State) (m : Fin 64), (s.rail m).isKind 0 = true → (s.rail m).sub = 1 → (s.rail m).inWindow = true → rpQualTime (s.rail m).active ≤ (s.time.st - (s.rail m).qualAt).toNat →
    exec (.sourceQualified m) s = .next (s.setRail m { s.rail m with sub := 2 })) ∧
  (∀ (s : State) (m : Fin 64), (s.rail m).isKind 0 = true → (s.rail m).st = .run → (s.rail m).sub = 3 → (s.rail m).lost = false → s.ho.on = true ∨ m.val ∉ s.ho.lost →
    exec (.sourceOnline m) s = .next (((s.setRail m { s.rail m with sub := 4 }).rmPutI m 0x100 8 0).rmPutI m 0x110 8 0)) ∧
  (∀ (s : State) (m : Fin 64) (k : Nat), (s.rail m).isKind 0 = true → (s.rail m).st = .run → (s.rail m).sub = 3 → (s.rail m).lost = false → s.ho.on = false → m.val ∈ s.ho.lost →
    s.railsWf → k ∈ s.takers.map (·.1) →
    ∃ t, exec (.sourceOnline m) s = .next t ∧ (t.rail m).sub = 4 ∧ (t.rail k).sub = 6 ∧ t.railMem = ((s.rmPutI m 0x100 8 0).rmPutI m 0x110 8 0).railMem) ∧
  (∀ (s : State) (m : Fin 64) (byTrip : Bool), (s.rail m).isKind 0 = true → (s.rail m).st = .run → (s.rail m).sub = 3 → (s.rail m).lost = false → s.lossHolds m byTrip = true →
    exec (.sourceLoss m byTrip) s = .next (s.setRail m { s.rail m with lost := true, lossByTrip := byTrip, lostPower := -(s.rail m).pMeas })) ∧
  (∀ (s : State) (m : Fin 64) (byTrip : Bool) (k : Nat), (s.rail m).isKind 0 = true → (s.rail m).st = .run → (s.rail m).sub = 4 → (s.rail m).lost = false → s.lossHolds m byTrip = true → k ≠ m.val →
    s.railsWf → (s.rail k).isKind 3 = true → s.mayTake k (s.rail k) = true → (s.rail k).st = .standby ∨ (s.rail k).st = .armed →
    ∃ t, exec (.sourceLoss m byTrip) s = .next t ∧ (t.rail m).lost = true ∧ (t.rail m).lossByTrip = byTrip ∧ t.ho.on = true ∧ t.ho.count = 0 ∧ m.val ∈ t.ho.lost ∧
      (t.rail k).takeReq = true) ∧
  (∀ (s : State), s.ho.on = true → 4 ≤ s.ho.count →
    ∃ t, exec .handoverDone s = .next t ∧ t.ho = { s.ho with on := false, count := 0 } ∧ t.railMem = s.railMem) ∧
  (∀ (s : State), s.ho.on = false ∨ s.ho.count < 4 → exec .handoverDone s = .next s) ∧
  (∀ (s : State) (m : Fin 64) (byTrip : Bool), s.lossHolds m byTrip = false → exec (.sourceLoss m byTrip) s = .next s) ∧
  (∀ (s : State), s.ho.on = true → s.ho.late = false → 16000 * s.plan.slotLen ≤ (s.time.st - s.ho.since).toNat →
    ∃ t, exec .hoLate s = .next t ∧ t.ho = { s.ho with late := true } ∧ t.railMem = s.railMem) ∧
  (∀ (s : State), (s.time.st - s.ho.since).toNat < 16000 * s.plan.slotLen → exec .hoLate s = .next s)

/-- R157, R103: a serving engine that has missed END twice in a row, or sent no HEARTBEAT for 8 us, is STALLED and halted, with bit 2 of SAFETY.STAT; no other engine changes; an engine that has done neither does not stall. R158, R598: with AUTO_RELIEF and the relief engine of the drawer free, it takes the stalled cell at a boundary of it at least 2 us after the stall and not before: cleared registers and local data, the cell's image, and the last applied DUTY, MODE and RANGE_REQ of the cell's drawer-memory slot. Where the spec is silent it follows the model's log, entries 19, 26. -/
def Obligations.EngineStallAndColdTakeover : Prop :=
  (∀ (s : State) (n : Fin 1024), (s.lane n).st = .run → (s.cell n).relief = .own → (s.eng n).st ≠ .stalled → 2 ≤ (s.eng n).missEnd ∨ 128000 ≤ (s.time.st - (s.lane n).hbAt).toNat →
    ∃ t, exec (.engineStall n) s = .next t ∧ t.eng n = { s.eng n with st := .stalled, running := false, stallAt := s.time.st } ∧ (∀ k, k ≠ n.val → t.eng k = s.eng k) ∧
      t.safetyStat = setBit s.safetyStat 2 true ∧ { t.inner with engines := s.engines, safetyStat := s.safetyStat } = s.inner) ∧
  (∀ (s : State) (n : Fin 1024), (s.eng (s.serving n)).missEnd < 2 → (s.time.st - (s.lane n).hbAt).toNat < 128000 → exec (.engineStall n) s = .next s) ∧
  (∀ (s : State) (n : Fin 1024), (s.eng n).st = .stalled → cpFlag (s.cell n).active 4 = true → (s.eng (1024 + n / 16)).carries = none →
    (s.cell n).relief = .own → s.enclosed n = false → (s.eng n).stallAt.toNat + 32000 ≤ s.cellEdge n s.time.st.toNat →
    ∃ t, exec (.coldTakeover n) s = .next t ∧ (t.cell n).relief = .cold ∧
      (let g := t.eng (1024 + n / 16)
       g.st = .run ∧ g.carries = some n.val ∧ g.regs = [] ∧ g.loc = [] ∧ g.image = (s.eng n).image ∧ g.out = g.stage ∧
         g.out.duty = BitVec.ofNat 32 (memLe s.drawerMem (4096 * (n.val / 16) + 128 * (n.val % 16) + 64) 4) ∧
         g.out.mode = BitVec.ofNat 32 (memLe s.drawerMem (4096 * (n.val / 16) + 128 * (n.val % 16) + 68) 4) ∧
         g.out.rangeReq = BitVec.ofNat 32 (memLe s.drawerMem (4096 * (n.val / 16) + 128 * (n.val % 16) + 72) 4)) ∧
      (∀ k, k ≠ 1024 + n.val / 16 → t.eng k = s.eng k) ∧ (∀ k, k ≠ n.val → t.cell k = s.cell k) ∧
      { t with engines := s.engines, cells := s.cells } = s) ∧
  (∀ (s : State) (n : Fin 1024), s.cellEdge n s.time.st.toNat < (s.eng n).stallAt.toNat + 32000 → exec (.coldTakeover n) s = .next s)

/-- R151: a RELIEVE of a cell whose lane is not in RUN is BAD_DESC, one into a closed selvedge ISOLATED, one while the drawer's relief engine carries a cell BUSY; any other is accepted and binds that engine to the cell, which so carries one at most; with an image it first waits for the staging buffer. R152: at the end of the serving engine's run, however it ended, its registers and local data are copied. R153, R154, R156: the takeover boundary is the commit point and completes the operation OK, with RESULT bit 0 the mismatch for a RELIEVE and 0 for a HANDBACK (R333); after a RELIEVE the cell engine is RELIEVED, after a HANDBACK the relief engine is free. R337: without it the operation times out after 10 ms, and not before, and the cell stays with the engine it had. Where the spec is silent it follows the model's log, entry 19. -/
def Obligations.ReliefAndHandback : Prop :=
  (∀ s o op n, Starts s o 0x82 op → n = op.u16 8 →
    ((s.lane n).st ≠ .run → ∃ t, exec (.relieve o) s = .next t ∧ Ends s o stBadDesc 0 t) ∧
    ((s.lane n).st = .run → s.enclosed n = true ∨ (s.cell n).relief = .relieved → ∃ t, exec (.relieve o) s = .next t ∧ Ends s o stIsolated 0 t) ∧
    ((s.lane n).st = .run → s.enclosed n = false → (s.cell n).relief ≠ .relieved → (s.eng (1024 + n / 16)).carries ≠ none →
      ∃ t, exec (.relieve o) s = .next t ∧ Ends s o stBusy 0 t)) ∧
  (∀ s o op n, Starts s o 0x82 op → n = op.u16 8 → n < 1024 → (s.lane n).st = .run → s.enclosed n = false → (s.cell n).relief = .own →
    (s.eng (1024 + n / 16)).carries = none → op.u64 0x10 = 0 →
    ∃ t, exec (.relieve o) s = .next t ∧ (t.cell n).relief = .starting o false 1 false ∧ (t.eng (1024 + n / 16)).carries = some n ∧
      (t.eng (1024 + n / 16)).image = (s.eng n).image ∧ (t.eng (1024 + n / 16)).regs = [] ∧ (∀ k, k ≠ 1024 + n / 16 → t.eng k = s.eng k) ∧
      (∀ k, k ≠ n → t.cell k = s.cell k) ∧ Accepts { s with engines := t.engines, cells := t.cells } o t) ∧
  (∀ s o op n, Starts s o 0x82 op → n = op.u16 8 → (s.lane n).st = .run → s.enclosed n = false → (s.cell n).relief = .own →
    (s.eng (1024 + n / 16)).carries = none → op.u64 0x10 ≠ 0 →
    ∃ t, exec (.relieve o) s = .next t ∧ Accepts { s with sec := { s.sec with staging := s.sec.staging ++ [o] } } o t) ∧
  (∀ s o op n, Starts s o 0x83 op → n = op.u16 8 → n < 1024 → s.enclosed n = false → (s.cell n).relief = .relieved ∨ (s.cell n).relief = .cold →
    ∃ t, exec (.handback o) s = .next t ∧ (t.cell n).relief = .starting o true 1 false ∧ (t.eng n).st = .relieved ∧ (t.eng n).image = (s.eng n).image ∧
      (t.eng n).regs = [] ∧ (∀ k, k ≠ n → t.eng k = s.eng k ∧ t.cell k = s.cell k) ∧ Accepts { s with engines := t.engines, cells := t.cells } o t) ∧
  (∀ (s : State) (k : Fin 64) (n o : Nat) (back mis : Bool), (s.eng (1024 + k.val)).carries = some n → n / 16 = k.val → n < 1024 →
    (s.cell n).relief = .starting o back 2 mis → (s.eng (if back then 1024 + k.val else n)).finished = true → (s.eng (if back then 1024 + k.val else n)).running = false →
    ∃ t, exec (.reliefStateCopy k) s = .next t ∧ (t.cell n).relief = .starting o back 3 mis ∧
      (let src := if back then 1024 + k.val else n
       let dst := if back then n else 1024 + k.val
       t.eng dst = { s.eng dst with regs := (s.eng src).regs, loc := (s.eng src).loc, lowJoined := (s.eng src).lowJoined } ∧ ∀ e, e ≠ dst → t.eng e = s.eng e) ∧
      (∀ e, e ≠ n → t.cell e = s.cell e) ∧ { t with engines := s.engines, cells := s.cells } = s) ∧
  (∀ (s : State) (k : Fin 64) (n o : Nat) (op : Op) (back mis : Bool), (s.eng (1024 + k.val)).carries = some n → n / 16 = k.val → n < 1024 →
    (s.cell n).relief = .starting o back 5 mis → GoesOn s o (if back then 0x83 else 0x82) op →
    ∃ t, exec (.takeoverBoundary k) s = .next t ∧ Ends { s with engines := t.engines, cells := t.cells } o stOk (if back then 0 else b2n mis) t ∧
      (t.cell n).relief = (if back then .own else .relieved) ∧
      (if back then t.eng (1024 + k.val) = {} else (t.eng n).st = .relieved ∧ (t.eng n).running = false ∧ (t.eng (1024 + k.val)).st = .run) ∧
      (∀ e, e ≠ n → e ≠ 1024 + k.val → t.eng e = s.eng e) ∧ (∀ e, e ≠ n → t.cell e = s.cell e)) ∧
  (∀ s o op n (back mis : Bool) step, GoesOn s o (if back then 0x83 else 0x82) op → n = op.u16 8 → (s.cell n).relief = .starting o back step mis → s.reached (op.since + 160000000) = true →
    ∃ t, exec (.reliefTimeout o) s = .next t ∧ Ends { s with engines := t.engines, cells := t.cells, sec := t.sec } o stTimeout 0 t ∧
      (t.cell n).relief = (if back then .relieved else .own) ∧ (back = false → t.eng (1024 + n / 16) = {}) ∧
      (∀ e, e ≠ 1024 + n / 16 → t.eng e = s.eng e) ∧ (∀ e, e ≠ n → t.cell e = s.cell e) ∧ t.sec.staging = s.sec.staging.filter (· ≠ o)) ∧
  (∀ s o op, s.findOp o = some op → s.reached (op.since + 160000000) = false → exec (.reliefTimeout o) s = .next s)

/-- R117: at DUTY_MAX with the high side on and no off-edge sent, the guard sends one and counts an intervention; before that it does not. R114, R116, R518: a guard word is written before the seal is verified while no lane is in RUN; else the write sets WR_REJ and nothing else. R148, R353: a closing health record starts the next interval with its sums at 0. R105, R106, R142: at a boundary of its own the cell's engine's period index advances and the guard's period ends: its hits are kept as those of the last period, and without an intervention in the period its count starts anew; with no boundary due nothing changes. R116, R555: an uncorrectable error in the guard's limits takes the lane out of RUN and puts its engine OFF. Where the spec is silent it follows the model's log, entries 6, 26. -/
def Obligations.EngineBoundaryAndGuard : Prop :=
  (∀ (s : State) (n : Fin 1024), (s.lane n).st = .run → s.dutyOver n = true → s.guards n ≠ [] →
    ∃ t, exec (.guardDutyLimit n) s = .next t ∧ (t.lane n).hits = setBit (s.lane n).hits 0 true ∧ (t.lane n).interv = true ∧ (t.lane n).holdHi = true ∧
      (t.lane n).holdLo = (s.lane n).holdLo ∧ DnCmd.guardEdge 1 (cpGuardProf (s.cell n).active) true ∈ (t.lane n).dnq ∧
      (∀ k, k ≠ n.val → t.lane k = s.lane k) ∧ { t with lanes := s.lanes } = s) ∧
  (∀ (s : State) (n : Fin 1024), s.dutyOver n = false → exec (.guardDutyLimit n) s = .next s) ∧
  (∀ (s : State) (n : Fin 1024) (a : Nat), (s.lane n).highSince s.time.st.toNat = some a → (s.lane n).firstOff true s.time.st.toNat = none →
    (s.dutyOver n = true ↔ a + (s.guardFor n).dutyMax * s.periodOf n / 65536 ≤ s.time.st.toNat)) ∧
  (∀ (s : State) (v : Word), s.ringsUp = true → s.guardOtp = true ∨ s.nvm.sealedNow = true ∨ s.anyRun = true → exec (.guardDataWrite v) s = .next { s with guardRej := true }) ∧
  (∀ (s : State) (v : Word), s.ringsUp = true → s.guardOtp = false → s.nvm.sealedNow = false → s.anyRun = false →
    ∃ t, exec (.guardDataWrite v) s = .next t ∧
      t.guardSram = tabSet (fun _ => 0) s.guardSram (fld (s.reg Reg.engineGuardWin) 6 0 + 128 * b2n (wbit (s.reg Reg.engineGuardWin) 7)) v ∧
      t.guardRej = s.guardRej ∧ (roleOf s.twin = 0 → t.lanes = s.lanes) ∧ { t.noLinks with guardSram := s.guardSram, guardUe := s.guardUe } = s.noLinks) ∧
  (∀ (s : State) (v : Word), s.ringsUp = false → exec (.guardDataWrite v) s = .next s) ∧
  (∀ (s : State) (n : Fin 1024) (h : HealthEst) (x : BitVec 16), (s.cell n).active ≠ [] → cpFlag (s.cell n).active 3 = true → s.cellStopped n = false → (s.cell n).health.temp = some x →
    cpHealthUnits (s.cell n).active ≤ (s.time.st - (s.cell n).health.since).toNat →
    ∃ t, exec (.healthRecordClose n h) s = .next t ∧ (t.cell n).health = (s.cell n).health.next s.time.st h s.analyticsOff (s.serving n != n.val) ∧
      (t.cell n).health.since = s.time.st ∧ (t.cell n).health.guard = 0 ∧ (t.cell n).health.dt = 0 ∧ (t.cell n).health.temp = none ∧ (t.cell n).health.hi = {} ∧ (t.cell n).health.lo = {} ∧
      t.cell n = { s.cell n with health := (t.cell n).health } ∧ (∀ k, k ≠ n.val → t.cell k = s.cell k) ∧ { t.inner with cells := s.cells } = s.inner) ∧
  (∀ (s : State) (n : Fin 1024) (h : HealthEst), (s.time.st - (s.cell n).health.since).toNat < cpHealthUnits (s.cell n).active → exec (.healthRecordClose n h) s = .next s) ∧
  (∀ (s : State) (n : Fin 1024) (f : Ecc) (b : DWord), s.cellDue n = some b → f ≠ .uncorrectable → s.senseOf n = none → (s.cell n).relief = .own → (s.eng (1024 + n / 16)).carries ≠ some n.val →
    (s.eng n).running = false → (s.cell n).swapOp = none →
    ∃ t, exec (.cellPeriodBoundary n f) s = .next t ∧ (t.eng n).pindex = (s.eng n).pindex + 1 ∧ (t.eng n).bound = b ∧ (t.eng n).ended = false ∧
      (t.eng n).pc = (if (t.eng n).running then 0 else (s.eng n).pc) ∧ (t.eng n).outNow = (s.eng n).out ∧ (t.eng n).out = (s.eng n).out ∧
      (t.lane n).hitsLast = (s.lane n).hits ∧ (t.lane n).hits = 0 ∧ (t.lane n).interv = false ∧
      (t.lane n).intervN = (if (s.lane n).interv then (s.lane n).intervN + 1 else 0) ∧
      (∀ k, k ≠ n.val → t.lane k = s.lane k ∧ t.eng k = s.eng k ∧ t.cell k = s.cell k) ∧ (t.cell n).active = (s.cell n).active ∧ (t.cell n).relief = .own ∧
      (t.cell n).health.guard = (if (s.lane n).interv then satInc 0xFFFF (s.cell n).health.guard else (s.cell n).health.guard) ∧
      t.rails = s.rails ∧ t.plan = s.plan ∧ t.time = s.time ∧ t.nvm = s.nvm ∧
      (∀ a, a < 4096 * (n.val / 16) + 128 * (n.val % 16) ∨ 4096 * (n.val / 16) + 128 * (n.val % 16) + 80 ≤ a → memGet 0 t.drawerMem a = memGet 0 s.drawerMem a)) ∧
  (∀ (s : State) (n : Fin 1024) (b : DWord), s.cellDue n = some b →
    ∃ t, exec (.cellPeriodBoundary n .uncorrectable) s = .next t ∧ (t.lane n).st = .ready ∧ (t.eng n).st = .off ∧ (t.eng n).running = false ∧ n.val ∈ t.guardUe ∧ t.ue = satInc 0xFFFF s.ue ∧
      (∀ k, k ≠ n.val → t.lane k = s.lane k)) ∧
  (∀ (s : State) (n : Fin 1024) (f : Ecc), s.cellDue n = none → exec (.cellPeriodBoundary n f) s = .next s)

/-- R208, R210, R212 to R215: an edge of PPS in mode PPS, 1 s within 300 us after the one before it, is accepted: it sets PPS_ERR and the steering target and moves the discipline state; with AUTO_STEP in ACQUIRING an error above 1 us steps ST once. An edge at another distance only sets PPS_REJ. After 3 s without an accepted edge ACQUIRING or TRACKING goes to HOLDOVER, and not before; in SLEEP nothing steers. R214: STEP loads ST_SET only while every lane is OFF or LOCKING; the stamps of the time base move with ST (the model's choice, log entry 28). R209: ST_LO latches ST_HI. A write or read that the host's bus does not reach changes nothing. Where the spec is silent it follows the model's log, entries 7, 28. -/
def Obligations.TimeBaseDiscipline : Prop :=
  (∀ (s : State) (f e : Int) (p : DWord), s.steer = 1 → s.controls = true → s.time.firstEdge = false → s.time.lastEdge = some p →
    15995200000 ≤ (s.time.st - p).toNat → (s.time.st - p).toNat ≤ 16004800000 → wbit (s.reg Reg.timeDiscCtl) 30 = false →
    e = ppsError s.time.st (fld (s.reg Reg.timePpsOfs) 29 0) →
    ∃ t, exec (.ppsEdge f) s = .next t ∧ t.time.lastEdge = some s.time.st ∧ t.time.goodAt = s.time.st ∧ t.time.st = s.time.st ∧ t.time.ppsErr = clampI (-2147483648) 2147483647 (roundDiv e 16) ∧
      t.time.freqTarget = steerTarget f e (fld (s.reg Reg.timeDiscCtl) 23 16) ∧
      (s.time.disc = .free → t.time.disc = .free) ∧ (s.time.disc = .holdover → t.time.disc = .acquiring) ∧
      (s.time.disc = .tracking → t.time.disc = (if 16000 < e.natAbs then .acquiring else .tracking)) ∧
      (s.time.disc = .acquiring → t.time.disc = (if e.natAbs ≤ 1600 ∧ 7 ≤ s.time.goodEdges then .tracking else .acquiring)) ∧
      { t.plant with time := s.time } = s.plant) ∧
  (∀ (s : State) (f e : Int) (p : DWord), s.steer = 1 → s.controls = true → s.time.lastEdge = some p → 15995200000 ≤ (s.time.st - p).toNat →
    (s.time.st - p).toNat ≤ 16004800000 → wbit (s.reg Reg.timeDiscCtl) 30 = true → s.time.disc = .acquiring → s.time.autoDone = false →
    e = ppsError s.time.st (fld (s.reg Reg.timePpsOfs) 29 0) → 16000 < e.natAbs →
    ∃ t, exec (.ppsEdge f) s = .next t ∧ t.time.disc = .acquiring ∧ t.time.autoDone = true ∧ t.time.lastEdge = some t.time.st ∧
      (if s.mayStep then t.time.st = s.time.st - BitVec.ofInt 64 e else t.time.st = s.time.st ∧ t.time.stepRej = true)) ∧
  (∀ (s : State) (f : Int) (p : DWord), s.steer = 1 → s.controls = true → s.time.firstEdge = false → s.time.lastEdge = some p →
    (s.time.st - p).toNat < 15995200000 ∨ 16004800000 < (s.time.st - p).toNat →
    exec (.ppsEdge f) s = .next { s with time := { s.time with ppsRej := true, lastEdge := some s.time.st } }) ∧
  (∀ (s : State) (f : Int), s.steer ≠ 1 ∨ s.controls = false → exec (.ppsEdge f) s = .next s) ∧
  (∀ (s : State), s.controls = true → 48000000000 ≤ (s.time.st - s.time.goodAt).toNat → s.time.disc = .acquiring ∨ s.time.disc = .tracking →
    exec .discHoldover s = .next { s with time := { s.time with disc := .holdover, freqAdj := s.time.adjAtEdge, freqTarget := s.time.adjAtEdge } }) ∧
  (∀ (s : State), s.controls = false ∨ (s.time.st - s.time.goodAt).toNat < 48000000000 → exec .discHoldover s = .next s) ∧
  (∀ (s : State) (v : Word), s.ringsUp = true → wbit v 31 = true → fld v 29 28 = fld (s.reg Reg.timeDiscCtl) 29 28 →
    ∃ t d, exec (.stStep v) s = .next t ∧ d = (s.reg Reg.timeStSetHi ++ s.reg Reg.timeStSetLo : BitVec 64) - s.time.st ∧
      t.time = (if ∀ e ∈ s.lanes, e.2.st = .off ∨ e.2.st = .locking then
          { s.time with st := (s.reg Reg.timeStSetHi ++ s.reg Reg.timeStSetLo : BitVec 64), frac := 0, lastEdge := s.time.lastEdge.map (· + d), goodAt := s.time.goodAt + d }
        else { s.time with stepRej := true }) ∧
      { t with time := s.time, encs := s.encs, cycs := s.cycs, marks := s.marks } = s.setReg Reg.timeDiscCtl 0 (v &&& 0x70FFFF00)) ∧
  (∀ (s : State) (v : Word), s.ringsUp = true → wbit v 31 = false → fld v 29 28 ≠ fld (s.reg Reg.timeDiscCtl) 29 28 →
    ∃ t, exec (.discModeSet v) s = .next t ∧
      t.time = { s.time with disc := if fld v 29 28 = 1 ∨ fld v 29 28 = 2 then .acquiring else .free, firstEdge := true, goodEdges := 0, autoDone := false, goodAt := s.time.st, adjAtEdge := s.time.freqAdj } ∧
      { t with time := s.time } = s.setReg Reg.timeDiscCtl 0 (v &&& 0x70FFFF00)) ∧
  (∀ (s : State), s.ringsUp = true → exec .stLoRead s =
    .next { s with time := { s.time with stHi := s.time.st.extractLsb' 32 32 }, host := { s.host with rdata := s.time.st.setWidth 32 } }) ∧
  (∀ (s : State) (v : Word), s.ringsUp = false → exec (.stStep v) s = .next s ∧ exec (.discModeSet v) s = .next s ∧ exec .stLoRead s = .next s)

/-- R217 to R224: a transition counts with DIR_INV, the 32-bit turn count changing at multiples of CPR, and A and B together are a FAULT with CAUSE 1; a Z edge zeroes the count the first time and later faults a source more than 2 counts off; an SSI frame gives the position or a FAULT with its cause, and the sixteenth good frame VALID; at every multiple of 16,384 ST units an enabled source is sampled, once; a write of ENC_CFG starts the source anew; ENC_ANGLE latches turn and speed. In SLEEP no source counts or samples. Where the spec is silent it follows the model's log, entry 28. -/
def Obligations.AngleSources : Prop :=
  (∀ (s : State) (k : Fin 16) (cfg : Word) (cpr : Nat) (up : Bool), s.controls = true → cfg = s.reg Reg.timeEncCfg k → cpr = fld cfg 23 0 → encType cfg = 1 → 4 ≤ cpr → (s.enc k).st ≠ .off →
    ∃ t, exec (.encCount k (if up then .up else .down)) s = .next t ∧
      (let e := s.enc k
       let c : Int := e.count + (if up = wbit cfg 29 then -1 else 1)
       (t.enc k).count = (if c = cpr then 0 else if c < 0 then (cpr : Int) - 1 else c) ∧
         (t.enc k).turn = asSigned 32 (toTwos 32 (if c = cpr then e.turn + 1 else if c < 0 then e.turn - 1 else e.turn)) ∧
         t.enc k = { e with count := (t.enc k).count, turn := (t.enc k).turn, angle := encAngle (t.enc k).count cpr, cntPrev := e.cntAt, cntAt := s.time.st, cntUp := (up != wbit cfg 29), nCounts := e.nCounts + 1 }) ∧
      (∀ j, j ≠ k.val → t.enc j = s.enc j) ∧ { t with encs := s.encs } = s) ∧
  (∀ (s : State) (k : Fin 16), s.controls = true → encType (s.reg Reg.timeEncCfg k) = 1 → 4 ≤ fld (s.reg Reg.timeEncCfg k) 23 0 → (s.enc k).st ≠ .off →
    ∃ t, exec (.encCount k .both) s = .next t ∧ (t.enc k).st = .fault ∧ (t.enc k).cause = 1 ∧ (t.enc k).count = (s.enc k).count ∧ (∀ j, j ≠ k.val → t.enc j = s.enc j)) ∧
  (∀ (s : State) (k : Fin 16), s.controls = true → encType (s.reg Reg.timeEncCfg k) = 1 → wbit (s.reg Reg.timeEncCfg k) 28 = true → 4 ≤ fld (s.reg Reg.timeEncCfg k) 23 0 → (s.enc k).st ≠ .off →
    ((s.enc k).zSeen = false ∨ (s.enc k).st = .fault →
      ∃ t, exec (.encZEdge k) s = .next t ∧ t.enc k = { s.enc k with count := 0, angle := 0, hist := [], zSeen := true, st := .valid } ∧
        (∀ j, j ≠ k.val → t.enc j = s.enc j) ∧ { t with encs := s.encs, marks := s.marks } = s) ∧
    ((s.enc k).zSeen = true → (s.enc k).st ≠ .fault → 2 < (s.enc k).count → (s.enc k).count + 2 < fld (s.reg Reg.timeEncCfg k) 23 0 →
      ∃ t, exec (.encZEdge k) s = .next t ∧ (t.enc k).st = .fault ∧ (t.enc k).cause = 2 ∧ ∀ j, j ≠ k.val → t.enc j = s.enc j)) ∧
  (∀ (s : State) (k : Fin 16) (b : Bool) (raw : DWord) (w : Word) (nst nmt nlow : Nat), s.controls = true → w = s.reg Reg.timeEncSsi k → encType (s.reg Reg.timeEncCfg k) = 2 → (s.enc k).st ≠ .off →
    (∀ a, (s.enc k).frameAt = some a → max 4 (fld w 6 0) ≤ s.ticksSince a) →
    ssiBad w = false → nst = (if fld w 22 18 = 0 then 32 else fld w 22 18) → nmt = fld w 17 13 → nlow = b2n (wbit w 11) + b2n (wbit w 10) →
    (let dec := fun (x n : Nat) => if wbit w 12 then ungray x n else x
     let angle : Word := BitVec.ofNat 32 (dec (raw.toNat / 2 ^ nlow % 2 ^ nst) nst * 2 ^ (32 - nst))
     let turn : Int := if nmt = 0 then 0 else asSigned nmt (dec (raw.toNat / 2 ^ (nlow + nst) % 2 ^ nmt) nmt)
     let pos := turn * 4294967296 + angle.toNat
     let err := wbit w 11 && bitOf raw.toNat (b2n (wbit w 10))
     let odd := wbit w 10 && countTrue ((List.range (nmt + nst + nlow)).map (bitOf raw.toNat)) % 2 == 1
     let ext := (s.enc k).goodPos + travel (s.enc k).speed (s.time.st - (s.enc k).goodFrameAt).toNat
     let far := (s.enc k).goodFrames ≠ 0 ∧ 16777216 < (encDiff (s.reg Reg.timeEncCfg k) w pos ext).natAbs
     if b = false ∨ err = true ∨ odd = true ∨ far then
       ∃ t, exec (.ssiFrame k b raw) s = .next t ∧ (t.enc k).st = .fault ∧ (t.enc k).goodFrames = 0 ∧ (t.enc k).frameAt = some s.time.st ∧
         (t.enc k).cause = (if b = false then 3 else if err then 4 else if odd then 5 else 6) ∧ ∀ j, j ≠ k.val → t.enc j = s.enc j
     else ∃ t, exec (.ssiFrame k b raw) s = .next t ∧
       t.enc k = { s.enc k with turn := turn, angle := angle, frameAt := some s.time.st, goodPos := pos, goodFrameAt := s.time.st, goodFrames := (s.enc k).goodFrames + 1,
                                st := if 15 ≤ (s.enc k).goodFrames then .valid else (s.enc k).st } ∧
       (∀ j, j ≠ k.val → t.enc j = s.enc j) ∧ { t with encs := s.encs, marks := s.marks } = s)) ∧
  (∀ (s : State), s.controls = true → tabWf (fun _ => ({} : Enc)) s.encs = true → ∃ t, exec .angleTick s = .next t ∧
    (∀ k, (s.enc k).st = .off ∨ ((s.enc k).hist ≠ [] ∧ s.ticksSince (s.enc k).sampleAt = 0) → t.enc k = s.enc k) ∧
    (∀ k, (s.enc k).st ≠ .off → (s.enc k).hist = [] ∨ s.ticksSince (s.enc k).sampleAt ≠ 0 →
      t.enc k = { s.enc k with hist := (((s.enc k).pos, (s.enc k).nCounts) :: (s.enc k).hist).take 65, sample := (s.enc k).pos, sampleAt := BitVec.ofNat 64 (s.time.st.toNat / 16384 * 16384), speed := (t.enc k).speed }) ∧
    { t with encs := s.encs, marks := s.marks } = s) ∧
  (∀ (s : State) (v : Word), s.ringsUp = true → ∃ t, exec (.encCfgWrite v) s = .next t ∧ t.reg Reg.timeEncCfg s.encSel = v &&& 0xFEFFFFFF ∧
    (t.enc s.encSel).st = (if encType (v &&& 0xFEFFFFFF) = 1 then (if fld v 23 0 < 4 then .fault else if wbit v 28 then .relative else .valid) else if encType (v &&& 0xFEFFFFFF) = 2 then .fault else .off) ∧
    (∀ j, j ≠ s.encSel → t.enc j = s.enc j) ∧
    ((∀ m ∈ s.marks, m.kind ≠ 1 ∨ m.src ≠ s.encSel) → { t with encs := s.encs } = s.setReg Reg.timeEncCfg s.encSel (v &&& 0xFEFFFFFF))) ∧
  (∀ (s : State), s.ringsUp = true → ∃ t, exec .encAngleRead s = .next t ∧ t.host = { s.host with rdata := wordI (s.enc s.encSel).sample } ∧
    t.enc s.encSel = { s.enc s.encSel with turnLatch := wordI (Int.fdiv (s.enc s.encSel).sample 4294967296), speedLatch := wordI (s.enc s.encSel).speed } ∧
    (∀ j, j ≠ s.encSel → t.enc j = s.enc j) ∧ { t with encs := s.encs, host := s.host } = s) ∧
  (∀ (s : State) (v : Word), s.ringsUp = false → exec (.encCfgWrite v) s = .next s ∧ exec .encAngleRead s = .next s) ∧
  (∀ (s : State) (k : Fin 16) (mv : QuadMove) (b : Bool) (raw : DWord), s.controls = false →
    exec (.encCount k mv) s = .next s ∧ exec (.encZEdge k) s = .next s ∧ exec (.ssiFrame k b raw) s = .next s ∧ exec .angleTick s = .next s)

/-- R228: a TRACKING cycle source whose amplitude has been lost for 2 ms enters HOLDOVER; when its hold time has passed it is INVALID, and no mark stays armed on it (R234). R231, R233, R234: a mark fires when its instant has come: it reports to its consumer with its outcome word and fire instant, and is armed again one PERIOD further, past the targets missed, if it repeats, else not. An ST mark that is not past when armed fires at its target. None of these happens before its time. Where the spec is silent it follows the model's log, entry 28. -/
def Obligations.CyclesAndMarks : Prop :=
  (∀ (s : State) (k : Fin 4) (a : DWord), s.controls = true → (s.cyc k).st = .tracking → (s.cyc k).lowAt = some a → 32000000 ≤ (s.time.st - a).toNat →
    ∃ t, exec (.cycAmplitudeLoss k) s = .next t ∧ (t.cyc k).st = .holdover ∧ (t.cyc k).rate = (s.cyc k).heldRate ∧ (t.cyc k).heldAt = s.time.st ∧
      (∀ j, j ≠ k.val → t.cyc j = s.cyc j) ∧ { t with cycs := s.cycs, marks := s.marks } = s) ∧
  (∀ (s : State) (k : Fin 4), (∀ a, (s.cyc k).lowAt = some a → (s.time.st - a).toNat < 32000000) → exec (.cycAmplitudeLoss k) s = .next s) ∧
  (∀ (s : State) (k : Fin 4), s.controls = true → (s.cyc k).st = .holdover → s.holdTime k ≤ (s.time.st - (s.cyc k).heldAt).toNat →
    ∃ t, exec (.cycHoldExpiry k) s = .next t ∧ t.cyc k = { s.cyc k with st := .invalid, broke := true } ∧ (∀ j, j ≠ k.val → t.cyc j = s.cyc j) ∧
      t.marks = s.marks.filter (fun m => !(m.kind.toNat == 2 && m.src == k.val))) ∧
  (∀ (s : State) (k : Fin 4), (s.time.st - (s.cyc k).heldAt).toNat < s.holdTime k → exec (.cycHoldExpiry k) s = .next s) ∧
  (∀ (s : State) (i : Nat) (m : Mark) (fire : DWord) (missed th adr : Nat) (late : Bool), s.controls = true → s.marks[i]? = some m → s.markDue m = some (fire, missed, late) → m.who = .thread th adr → m.period = 0 →
    ∃ t, exec (.markFire i) s = .next t ∧ t.marks = s.marks.eraseIdx i ∧
      t.thr th = { ((s.thr th).latch (fun r => r.isMark adr) ((markWord (b2n late) (m.kind.toNat == 2 && (s.cyc m.src).st == .holdover) missed).setWidth 16 ++ (0 : BitVec 16)) fire) with stAt := s.time.st } ∧
      (∀ k, k ≠ th → t.thr k = s.thr k) ∧ { t with threads := s.threads, marks := s.marks } = s) ∧
  (∀ (s : State) (i : Nat) (m : Mark) (fire : DWord) (missed : Nat) (late : Bool), s.controls = true → s.marks[i]? = some m → s.markDue m = some (fire, missed, late) → m.who = .housekeeping → m.period ≠ 0 →
    ∃ t n, exec (.markFire i) s = .next t ∧ t.sup = { s.sup with hkDue := s.sup.hkDue ++ [s.cycles + fld (s.reg Reg.supHkTrig) 15 0] } ∧ t.marks = s.marks.eraseIdx i ++ [s.evalMark n] ∧
      n = { m with target := if m.dir = 2 then m.target - BitVec.ofNat 64 (m.period.toNat * (missed + 1)) else m.target + BitVec.ofNat 64 (m.period.toNat * (missed + 1)), due := none, late := none } ∧
      { t with sup := s.sup, marks := s.marks } = s) ∧
  (∀ (s : State) (m : Mark), m.kind = 0 → m.late = none → m.period = 0 → s.markDue m = if s.reached m.target then some (m.target, 0, false) else none) ∧
  (∀ (s : State) (i : Nat) (m : Mark), s.marks[i]? = some m → s.controls = false ∨ s.markDue m = none → exec (.markFire i) s = .next s)

/-- R237, R239, R244, R272: while slots run, the command that finds the running slot's end come starts the next slot at that instant with its number, puts the slot configuration into force that the pass took, and closes every rail's energy into E_LAST. The committed slot's result is taken up; a slot without one is carried. Before that instant nothing changes. R241, R267: from its commit lead before the next slot on, one pass commits that slot and takes in every pending request and release; a release of a decided grant completes OK with that slot. Before that, or once that pass has run, nothing changes. A SHADOW runs no pass. Where the spec is silent it follows the model's log, entry 47. -/
def Obligations.SlotsAndPassStart : Prop :=
  (∀ (s : State) (c : Word) (now : DWord) (mark : Option DWord), s.planRuns = true → s.twin.st ≠ .joining → s.nextBoundary = some (c, now, mark) → s.reached now = true →
    ∃ t, exec .slotBoundary s = .next t ∧ t.plan.slotNow = c ∧ t.plan.slotStart = now ∧ t.plan.cfgLive = s.plan.lenNext.getD s.plan.cfgLive ∧
      t.plan.lenNext = none ∧ t.plan.next = none ∧ t.plan.pass = s.plan.pass ∧ (s.twin.st ≠ .shadow → c = s.plan.slotNow + 1 ∧ (now, mark) = s.slotEnd) ∧
      ((∃ k ts cs, s.plan.next = some (k, ts, cs) ∧ k ≠ c) ∨ (s.plan.next = none ∧ s.roleActs = true) → t.plan.carried = true) ∧
      ((∃ ts cs, s.plan.next = some (c, ts, cs)) → t.plan.carried = s.plan.carried) ∧
      (s.railsWf → ∀ m, (t.rail m).eLast = (s.rail m).eacc ∧ (t.rail m).eacc = 0 ∧ (t.rail m).st = (s.rail m).st ∧ (t.rail m).active = (s.rail m).active) ∧
      (mark = none → t.cycs = s.cycs) ∧ t.time = s.time ∧ t.nvm = s.nvm ∧ t.sup = s.sup ∧ t.lanes = s.lanes ∧ t.engines = s.engines ∧ t.railMem = s.railMem ∧ t.drawerMem = s.drawerMem) ∧
  (∀ (s : State), s.planRuns = false ∨ s.nextBoundary = none ∨ (∃ c now mark, s.nextBoundary = some (c, now, mark) ∧ s.reached now = false) → exec .slotBoundary s = .next s) ∧
  (∀ (s : State), s.planRuns = true → s.passDue = true → s.roleActs = true → s.plan.pass = none →
    ∃ t, exec .passStart s = .next t ∧
      t.plan.pass = some { slot := s.plan.slotNow + 1, from_ := s.time.st, restarted := false, requests := s.plan.reqs, releases := s.plan.releases } ∧ t.plan.passDone = some (s.plan.slotNow + 1) ∧
      t.plan.reqs = [] ∧ t.plan.releases = [] ∧ (∀ r ∈ s.plan.releases, ∀ g ∈ t.plan.grants, g.tag = r.1 → g.aborted = true) ∧ { t.plant with plan := s.plan } = s.plant) ∧
  (∀ s o op tag, s.planRuns = true → s.passDue = true → s.roleActs = true → s.plan.pass = none → s.plan.releases = [(tag, some o)] → GoesOn s o 0x21 op →
    ∃ t, exec .passStart s = .next t ∧
      Ends { s with plan := t.plan } o (if s.plan.grants.any (fun g => g.tag == tag && !g.ended) then stOk else stBadDesc)
        (if s.plan.grants.any (fun g => g.tag == tag && !g.ended) then (s.plan.slotNow + 1).toNat else 0) t) ∧
  (∀ (s : State), s.planRuns = true → s.passDue = true → s.twin.st = .shadow →
    exec .passStart s = .next { s with plan := { s.plan with reqs := [], passDone := some (s.plan.slotNow + 1) }, twin := { s.twin with taken := s.plan.reqs, passBegun := true } }) ∧
  (∀ (s : State), s.planRuns = false ∨ s.passDue = false ∨ (s.roleActs = true ∧ s.plan.pass ≠ none) → exec .passStart s = .next s)

/-- R262: at the end of a pass every host request that the pass took in has ended. R259: arbitration withdraws no grant that has started; it changes its power only. R272, R284: the result is committed for the pass's slot, unless that slot has begun or a restarted pass has come too late; then the targets stand. R555: an uncorrectable error in what the planner reads is a SAFETY reset, and no pass ends. Where the spec is silent it follows the model's log, entries 34, 35, 36, 47. -/
def Obligations.PassEndsEveryRequest : Prop :=
  (∀ (s : State) (p : Pass) (e : Ecc), s.plan.pass = some p → e ≠ .uncorrectable → (∀ a ∈ s.ops, ∀ b ∈ s.ops, a.tag = b.tag → a = b) →
    ∃ t, exec (.passEnd e) s = .next t ∧ t.plan.pass = none ∧
      (∀ g ∈ p.requests, g.thread = none → g.tag < planTag → t.noneLeft g.tag) ∧
      (∀ g ∈ s.plan.grants, g.started = true → g.aborted = false → g.ended = false → ∃ g' ∈ t.plan.grants, g' = { g with current := g'.current }) ∧
      (p.slot ≠ s.plan.slotNow → p.restarted = false → ∃ ts cs, t.plan.next = some (p.slot, ts, cs)) ∧
      (p.slot = s.plan.slotNow → t.plan.next = s.plan.next) ∧
      t.plan.slotNow = s.plan.slotNow ∧ t.plan.reqs = s.plan.reqs ∧ t.plan.lenNext = some (s.reg Reg.planSlotCfg) ∧
      (∀ m, (t.rail m).portions = (s.rail m).portions ∧ (t.rail m).st = (s.rail m).st) ∧ t.time = s.time ∧ t.lanes = s.lanes ∧ t.engines = s.engines) ∧
  (∀ (s : State) (e : Ecc), s.plan.pass = none → exec (.passEnd e) s = .next s) ∧
  (∀ (s : State) (p : Pass), s.plan.pass = some p → s.pwr.st ≠ .off → s.pwr.episode = false → s.alignedTwin = false →
    ∃ t, exec (.passEnd .uncorrectable) s = .next t ∧ t.pwr.episode = true ∧ RstSrc.safety ∈ t.pwr.raised ∧ t.pwr.taken = true ∧ t.time.st = s.time.st)

/-- R278, R279, R283: a falling trip input latches; where it is not enabled or shedding is OFF that is all beside its hardware source. An enabled one sheds at once: on every paged rail but a SOURCE each class portion falls at least to (255 - v)/255 of itself, v being the class's byte of the entry; a running pass starts again with every request, and the entry stays in force until a pass that began after the edge is committed. R253: a request record that breaks a rule completes BAD_DESC; R241: any other waits for its pass, as a release does. Where the spec is silent it follows the model's log, entry 47. -/
def Obligations.TripShedAndGrantRequests : Prop :=
  (∀ (s : State) (i : Fin 8), bitOf (fld (s.reg Reg.planShedCfg) 15 8) i = false ∨ s.shedMode = 2 →
    ∃ t, exec (.genTripNFall i) s = .next t ∧ t.plan = { s.plan with latch := setBit s.plan.latch i true, level := setBit s.plan.level i true } ∧ { t.plant with plan := s.plan } = s.plant) ∧
  (∀ (s : State) (i : Fin 8), bitOf (fld (s.reg Reg.planShedCfg) 15 8) i = true → s.shedMode ≠ 2 → s.railsWf →
    ∃ t, exec (.genTripNFall i) s = .next t ∧ t.plan.latch = setBit s.plan.latch i true ∧ t.plan.shedActive = setBit s.plan.shedActive i true ∧ t.plan.nextAfterTrip = setBit s.plan.nextAfterTrip i false ∧
      (∀ m c, c < 8 → (s.rail m).hasPage = true → rpKind (s.rail m).active ≠ 0 →
        (t.rail m).portions.getD c 0 ≤ (s.rail m).portions.getD c 0 * (255 - (s.shedEntry i).getD c 0) / 255) ∧
      (∀ p, s.plan.pass = some p → ∃ q, t.plan.pass = some q ∧ q.restarted = true ∧ q.slot = s.plan.slotNow + 1 ∧ q.requests = p.requests ++ s.plan.reqs) ∧
      (s.plan.pass = none → t.plan.pass = none) ∧ t.time = s.time ∧ t.lanes = s.lanes ∧ t.engines = s.engines ∧ t.nvm = s.nvm) ∧
  (∀ s o op, Starts s o 0x20 op → s.requestBad (slice op.desc 8 32) = true → ∃ t, exec (.grantRequest o) s = .next t ∧ Ends s o stBadDesc 0 t) ∧
  (∀ s o op, Starts s o 0x20 op → s.requestBad (slice op.desc 8 32) = false →
    ∃ t, exec (.grantRequest o) s = .next t ∧
      Accepts { s with plan := { s.plan with reqs := s.plan.reqs ++ [requestOf o none (op.u64 0x28) (slice op.desc 8 32)] } } o t) ∧
  (∀ s o op, Starts s o 0x21 op →
    ∃ t, exec (.grantRelease o) s = .next t ∧ Accepts { s with plan := { s.plan with releases := s.plan.releases ++ [(op.u16 8, some o)] } } o t)

/-- R328 to R331: NUDGE, and the poll once its interval has passed, read the doorbell page at DB_BASE while the rings are served; a read that fails sets DB_ERR. Its tails and heads are taken, ring by ring, but one that is not below the ring's size, or that claims more than the ring can hold, puts that ring in ERROR with cause 1. R326, R334, R343: the descriptor of the SQ whose turn it is is copied whole: it comes in flight, or completes BAD_DESC, or with a tag in flight is dropped, and its ring is the one its tier served last (R327); R359, R381: an extent likewise. A failed read puts the ring in ERROR with cause 2. Where the spec is silent it follows the model's log, entries 6, 14, 52. -/
def Obligations.DoorbellsAndDescriptors : Prop :=
  (∀ (s : State), s.ringsUp = true → exec .nudge s = .next (s.emit (.hostRead s.dbBase 0x230))) ∧
  (∀ (s : State), s.ringsUp = true → s.reached s.pollAt = true →
    ∃ t, exec .doorbellPoll s = .next t ∧ t.out = .hostRead s.dbBase 0x230 :: s.out ∧ t.pollAt = s.time.st + BitVec.ofNat 64 (8000 * (fld (s.reg Reg.hostDbPoll) 6 0 + 1)) ∧
      { t with out := s.out, host := { t.host with polledAt := s.host.polledAt } } = s) ∧
  (∀ (s : State), s.ringsUp = true → s.reached s.pollAt = false → exec .doorbellPoll s = .next s) ∧
  (∀ (s : State) (d : HostRead), s.ringsUp = false → exec .nudge s = .next s ∧ exec .doorbellPoll s = .next s ∧ exec (.doorbellReadComplete d) s = .next s) ∧
  (∀ (s : State), s.ringsUp = true → exec (.doorbellReadComplete .failed) s = .next { s with host := { s.host with dbErr := true } }) ∧
  (∀ (s : State) (b : List Byte), s.ringsUp = true → ∃ t, exec (.doorbellReadComplete (.data b)) s = .next t ∧ t.inner = s.inner ∧ t.ops = s.ops ∧
    (∀ k v, (∃ q, q < 64 ∧ k = q ∧ v = leAt b (4 * q) 4) ∨ (∃ a, a < 8 ∧ k = 192 + a ∧ v = leAt b (0x210 + 4 * a) 4) →
      t.ring k = (let r := s.ring k
        if r.live = false then r
        else if s.ringSize k ≤ v ∨ s.ringSize k ≤ s.ringHeld k + (v + s.ringSize k - r.prod) % s.ringSize k then { r with st := 2, cause := 1 }
        else { r with prod := v })) ∧
    (∀ q, q < 64 → t.ring (64 + q) = (let k := 64 + q
        let r := s.ring k
        let v := leAt b (0x100 + 4 * q) 4
        if r.live = false then r
        else if s.ringSize k ≤ v ∨ s.ringHeld k < (v + s.ringSize k - r.cons) % s.ringSize k then { r with st := 2, cause := 1 }
        else { r with cons := v }))) ∧
  (∀ (s : State) (q : Fin 64), s.mayFetch = true → s.sqReady q = true → s.sqTurn q = true →
    ∃ t, exec (.descriptorFetch q .failed) s = .next t ∧ t.ring q = { s.ring q with st := 2, cause := 2 } ∧ t.ops = s.ops ∧ Out.hostRead (s.ringBase q + 64 * (s.ring q).cons) 64 ∈ t.out ∧ t.inner = s.inner) ∧
  (∀ (s : State) (q : Fin 64) (b : List Byte) (tag : Nat), s.mayFetch = true → s.sqReady q = true → s.sqTurn q = true → tag = leAt b 2 2 % 4096 →
    ∃ t, exec (.descriptorFetch q (.data b)) s = .next t ∧ t.inner = s.inner ∧ (t.ring q).cons = ((s.ring q).cons + 1) % s.ringSize q ∧ (t.ring q).st = (s.ring q).st ∧
      Out.hostRead (s.ringBase q + 64 * (s.ring q).cons) 64 ∈ t.out ∧ t.rrLast (s.sqHigh q) = q ∧
      ((s.inPatBlock tag = true ∨ s.tagFlight tag = true) → t.ops = s.ops) ∧
      (s.inPatBlock tag = false → s.tagFlight tag = false →
        if s.badDesc b then Ends s tag stBadDesc 0 t else t.ops = s.ops ++ [{ tag := tag, sq := q, desc := b }])) ∧
  (∀ (s : State) (a : Fin 8), s.ringsUp = true → wbit (s.reg Reg.hostCtl) 0 = true → (s.ring (192 + a.val)).live = true → s.ringHeld (192 + a.val) ≠ 0 →
    (∃ t, exec (.extentFetch a .failed) s = .next t ∧ t.ring (192 + a.val) = { s.ring (192 + a.val) with st := 2, cause := 2 } ∧ t.extents = s.extents ∧
      Out.hostRead (s.ringBase (192 + a.val) + 32 * (s.ring (192 + a.val)).cons) 32 ∈ t.out ∧ t.inner = s.inner) ∧
    (∀ b, extentBad b = true → ∃ t, exec (.extentFetch a (.data b)) s = .next t ∧ (t.ring (192 + a.val)).st = 2 ∧ (t.ring (192 + a.val)).cause = 1 ∧ t.extents = s.extents ∧ t.inner = s.inner) ∧
    (∀ b, extentBad b = false → (∀ x ∈ s.aqExtents a, heldHits s.cap.held x.freeAt.1 x.freeAt.2 = false) →
      ∃ t, exec (.extentFetch a (.data b)) s = .next t ∧ (t.ring (192 + a.val)).cons = ((s.ring (192 + a.val)).cons + 1) % s.ringSize (192 + a.val) ∧ t.plant = s.plant ∧
        (let e : Extent := { bus := leAt b 0 8, len := leAt b 8 4, arch := leAt b 0x10 8, used := 0 }
         t.aqExtents a = s.aqExtents a ++ (if heldHits s.cap.held e.freeAt.1 e.freeAt.2 then [] else [e])) ∧ (t.aqExtents a ≠ [] → a.val ∉ t.cap.stalledAq))) ∧
  (∀ (s : State) (q : Fin 64) (d : HostRead), s.mayFetch = false ∨ s.sqReady q = false ∨ s.sqTurn q = false → exec (.descriptorFetch q d) s = .next s)

/-- R342, R352, R481: completion records and held event records that wait are written, in their order, as long as the link is up and slots are free. R354: when COAL_T has passed since the first unsignalled record and the ring still holds unread ones, the ring's vector is sent, or waits in the PBA while it is masked. R331, R358: a disabled ring is enabled with both indices at 0, or shows BAD_CFG; a ring in ERROR stays there when EN is written 0; R357: a CQ to which an enabled SQ is bound cannot be disabled. Where the spec is silent it follows the model's log, entries 14, 20, 52. -/
def Obligations.RingsAndRecords : Prop :=
  (∀ (s : State) (q : Fin 64), (s.ring (64 + q.val)).live = true → s.ringIn (64 + q.val) → s.linkOn = true →
    ∃ t, exec (.cqRecordRelease q) s = .next t ∧ t.cqWaiting q = (s.cqWaiting q).drop (s.ringFree (64 + q.val)) ∧
      (t.ring (64 + q.val)).prod = ((s.ring (64 + q.val)).prod + min (s.cqWaiting q).length (s.ringFree (64 + q.val))) % s.ringSize (64 + q.val) ∧
      (∀ k, k ≠ q.val → t.cqWaiting k = s.cqWaiting k) ∧ t.inner = s.inner) ∧
  (∀ (s : State), (s.ring 128).live = true → s.ringIn 128 → s.linkOn = true →
    ∃ t, exec .eqRecordRelease s = .next t ∧ t.eqHeld = s.eqHeld.drop (s.ringFree 128) ∧ (t.eqHeld.length < 2048 → t.host.fetchStop = false) ∧ t.inner = s.inner) ∧
  (∀ (s : State) (k : Fin 65), s.linkOn = true → s.coalDue (64 + k.val) = true →
    ∃ t, exec (.msixCoalTimer k) s = .next t ∧ t.ring (64 + k.val) = { s.ring (64 + k.val) with unsig := 0 } ∧
      (if s.host.msixMask.contains (fld (s.ringCfg (64 + k.val)) 9 4) then t.out = s.out ∧ t.host = { s.host with pba := insertN s.host.pba (fld (s.ringCfg (64 + k.val)) 9 4) }
        else Out.msix (fld (s.ringCfg (64 + k.val)) 9 4) ∈ t.out ∧ t.host = s.host) ∧
      (∀ j, j ≠ 64 + k.val → t.ring j = s.ring j) ∧ t.inner = s.inner) ∧
  (∀ (s : State) (k : Fin 65), s.linkOn = false ∨ s.coalDue (64 + k.val) = false → exec (.msixCoalTimer k) s = .next s) ∧
  (∀ (s : State) (v : Word), s.ringsUp = false → exec (.ringEnable v) s = .next s ∧ exec (.ringDisable v) s = .next s) ∧
  (∀ (s : State) (v : Word) (k : Nat) (u : State), s.ringsUp = true → s.ringSel = some k → (s.ring k).en = false → wbit v 31 = true → u = s.setReg Reg.hostRingCfg k (v &&& ringCfgMask k) →
    exec (.ringEnable v) s = .next (u.setRing k (if u.ringBadCfg k then { s.ring k with cause := 3 } else { en := true, st := 1, cause := (s.ring k).cause, phase := decide (64 ≤ k ∧ k ≤ 128) }))) ∧
  (∀ (s : State) (v : Word) (k : Nat), s.ringsUp = true → s.ringSel = some k → (s.ring k).en = true → wbit v 31 = false →
    exec (.ringDisable v) s = .next (s.setRing k
      (if 64 ≤ k ∧ k < 128 ∧ (List.range 64).any (fun q => (s.ring q).en && s.cqOf q == k - 64) = true then { s.ring k with cause := 3 } else { s.ring k with en := false, st := if (s.ring k).st = 2 then 2 else 0 })))

/-- R13: a write sets the RW bits of a register, and its RWS bits while the device is not sealed, and changes no other register; a register that is not in the map, or that its window does not show, ignores it. A W1C bit of SAFETY.STAT clears where a 1 is written. R566: an RC field is returned and clears. R565: a malformed read returns 0, and a malformed access is counted. R31: a write that the management firmware serves waits, in its order, while the firmware is away (DEDUCED, log entry 55). R357: RESET_KEY raises the HOST reset. R480, R481: PERST# low takes the host's link down; with its enable set PERST# rising wakes the device from SLEEP. Where the spec is silent it follows the model's log, entries 16, 17, 55. -/
def Obligations.RegisterAccess : Prop :=
  (∀ (s : State) (p : Path) (off r ix : Nat) (w : RegRow) (v : Word), s.busReg p off = some r → commandReg r = false → regRowAt r = some w → s.winIx p w.win = some ix → s.writeWaits p r = false →
    ∃ t, exec (.registerWrite p off v) s = .next t ∧ t.reg r ix = mergeBits (s.writeMask r ix w v) (s.reg r ix) v ∧
      (s.isSealed = true → w.rw = 0 → t.reg r ix = s.reg r ix) ∧ (∀ o j, regKey o j ≠ regKey r ix → t.reg o j = s.reg o j) ∧
      (r = Reg.safetyStat → t.safetyStat = s.safetyStat &&& ~~~v.setWidth 7) ∧ t.time.st = s.time.st ∧ t.lanes = s.lanes ∧ t.engines = s.engines ∧ t.nvm.mem = s.nvm.mem) ∧
  (∀ (s : State) (p : Path) (off : Nat) (v : Word), s.busReg p off = none → exec (.registerWrite p off v) s = .next s) ∧
  (∀ (s : State) (p : Path) (off r : Nat) (w : RegRow) (v : Word), s.busReg p off = some r → commandReg r = false → regRowAt r = some w → s.winIx p w.win = none → s.writeWaits p r = false →
    exec (.registerWrite p off v) s = .next s) ∧
  (∀ (s : State) (p : Path) (off r : Nat) (v : Word), s.busReg p off = some r → s.writeWaits p r = true →
    exec (.registerWrite p off v) s = .next { s with sec := { s.sec with fwWrites := s.sec.fwWrites ++ [(r, v)] } }) ∧
  (∀ (s : State) (off : Nat) (v : Word), s.fwAway = false →
    (s.busReg .bar0 off = some Reg.linkLaneCtl → exec (.registerWrite .bar0 off v) s = exec (.laneEnWrite v) s) ∧
    (s.busReg .bar0 off = some Reg.timeDiscCtl → exec (.registerWrite .bar0 off v) s = exec (.discModeSet v) s) ∧
    (s.busReg .bar0 off = some Reg.hostCtl → exec (.registerWrite .bar0 off v) s = exec (.hostResetKey v) s) ∧
    (s.busReg .bar0 off = some Reg.hostRingCfg → exec (.registerWrite .bar0 off v) s = exec (.ringEnable v) s)) ∧
  (∀ (s : State) (off : Nat), s.busReg .bar0 off = none → exec (.rcRegisterRead .bar0 off) s = .next { s with host := { s.host with rdata := 0 } }) ∧
  (∀ (s : State) (off : Nat),
    (s.busReg .bar0 off = some Reg.safetyEcc → exec (.rcRegisterRead .bar0 off) s = .next { s with ue := 0, ce := 0, host := { s.host with rdata := s.regValue .bar0 Reg.safetyEcc } }) ∧
    (s.busReg .bar0 off = some Reg.globalAccErr → exec (.rcRegisterRead .bar0 off) s = .next { s with host := { s.host with accErr := 0, rdata := s.regValue .bar0 Reg.globalAccErr } }) ∧
    (s.busReg .bar0 off = some Reg.hostEvStat → exec (.rcRegisterRead .bar0 off) s = .next { s with host := { s.host with heldLost := 0, lossyLost := 0, rdata := s.regValue .bar0 Reg.hostEvStat } })) ∧
  (∀ (s : State) (wr : Bool) (v : Word), s.ringsUp = false → exec (.malformedAccess wr) s = .next s ∧ exec (.hostResetKey v) s = .next s) ∧
  (∀ (s : State) (wr : Bool), s.ringsUp = true → exec (.malformedAccess wr) s = .next { s with host := { s.host with accErr := satInc 0xFFFF s.host.accErr, rdata := if wr then s.host.rdata else 0 } }) ∧
  (∀ (s : State) (v : Word), s.ringsUp = true → fld v 31 24 ≠ 0xA5 → exec (.hostResetKey v) s = .next (s.setReg Reg.hostCtl 0 (v &&& 1))) ∧
  (∀ (s : State) (v : Word), fld v 31 24 = 0xA5 → s.ringsUp = true → ∃ t, exec (.hostResetKey v) s = .next t ∧ t.pwr.episode = true ∧ RstSrc.host ∈ t.pwr.raised) ∧
  (∀ (s : State), exec (.perst false) s = .next { s with host := { s.host with perst := true } }) ∧
  (∀ (s : State), wbit (s.reg Reg.supWakeCfg) 2 = false → ∃ t, exec (.perst true) s = .next t ∧ t.host.perst = false ∧ { t.inner with host := s.inner.host } = s.inner) ∧
  (∀ (s : State), wbit (s.reg Reg.supWakeCfg) 2 = true → s.pwr.st = .sleep → s.pwr.wakeUp = false → (∃ k, 2 ≤ k ∧ k ≤ 12 ∧ s.sup.en.getLsbD (k - 1) = false) →
    ∃ t, exec (.perst true) s = .next t ∧ t.pwr.wakeUp = true ∧ t.pwr.wakeCause = 7)

/-- R477, R478: POWER to RUN or TRIM is OK in RUN, TRIM and PARK, and NOT_READY elsewhere; a device that leaves PARK does not stay PARKED on any lane. POWER to PARK is BUSY while a rail is ARMED, in RUN or in ENV_TRIP on a device that leads; else it parks the lanes in RUN and READY, ends the twin role and completes OK. R479: POWER to SLEEP is NOT_READY outside PARK and BUSY while anything is undrained or in flight; else it freezes every thread and completes OK, SP keeping its count and pattern memory its words. Where the spec is silent it follows the model's log, entry 40. -/
def Obligations.PowerStates : Prop :=
  (∀ s o op, Starts s o 0x03 op → s.mayPower = false →
    (op.u8 8 = 0 → ∃ t, exec (.powerRun o) s = .next t ∧ Ends s o stNotReady 0 t) ∧ (op.u8 8 = 1 → ∃ t, exec (.powerTrim o) s = .next t ∧ Ends s o stNotReady 0 t) ∧
    (op.u8 8 = 2 → ∃ t, exec (.powerPark o) s = .next t ∧ Ends s o stNotReady 0 t)) ∧
  (∀ s o op, Starts s o 0x03 op → s.pwr.st = .run ∨ s.pwr.st = .trim →
    (op.u8 8 = 0 → ∃ t, exec (.powerRun o) s = .next t ∧ t.posted o stOk 0 0 ∧ t.noneLeft o ∧ t.plant = { s with pwr := { s.pwr with st := .run } }.plant) ∧
    (op.u8 8 = 1 → ∃ t, exec (.powerTrim o) s = .next t ∧ t.posted o stOk 0 0 ∧ t.noneLeft o ∧ t.plant = { s with pwr := { s.pwr with st := .trim } }.plant)) ∧
  (∀ s o op, Starts s o 0x03 op → s.pwr.st = .park → tabWf (fun _ => ({} : Lane)) s.lanes = true →
    (op.u8 8 = 0 → ∃ t, exec (.powerRun o) s = .next t ∧ t.posted o stOk 0 0 ∧ t.noneLeft o ∧ t.pwr.st = .run ∧ ∀ n, (t.lane n).st ≠ .parked) ∧
    (op.u8 8 = 1 → ∃ t, exec (.powerTrim o) s = .next t ∧ t.posted o stOk 0 0 ∧ t.noneLeft o ∧ t.pwr.st = .trim ∧ ∀ n, (t.lane n).st ≠ .parked)) ∧
  (∀ s o op, Starts s o 0x03 op → op.u8 8 = 2 → s.pwr.st = .park → ∃ t, exec (.powerPark o) s = .next t ∧ Ends s o stOk 0 t) ∧
  (∀ s o op, Starts s o 0x03 op → op.u8 8 = 2 → s.pwr.st = .run ∨ s.pwr.st = .trim → s.railsBusy = true → ∃ t, exec (.powerPark o) s = .next t ∧ Ends s o stBusy 0 t) ∧
  (∀ s o op, Starts s o 0x03 op → op.u8 8 = 2 → s.pwr.st = .run ∨ s.pwr.st = .trim → s.railsBusy = false → tabWf (fun _ => ({} : Lane)) s.lanes = true →
    ∃ t, exec (.powerPark o) s = .next t ∧ t.posted o stOk 0 0 ∧ t.noneLeft o ∧ t.pwr.st = .park ∧ t.twin.st = .off ∧ t.time.st = s.time.st ∧
      ∀ n, (t.lane n).st = (if (s.lane n).st = .ready ∨ (s.lane n).st = .run then .parked else (s.lane n).st)) ∧
  (∀ s o op, Starts s o 0x03 op → op.u8 8 = 3 → s.pwr.st ≠ .park → ∃ t, exec (.powerSleep o) s = .next t ∧ Ends s o stNotReady 0 t) ∧
  (∀ s o op, Starts s o 0x03 op → op.u8 8 = 3 → s.pwr.st = .park → s.sleepBusy o = true → ∃ t, exec (.powerSleep o) s = .next t ∧ Ends s o stBusy 0 t) ∧
  (∀ s o op, Starts s o 0x03 op → op.u8 8 = 3 → s.pwr.st = .park → s.sleepBusy o = false → s.traceEn = false → s.cap.drain = [] → 6 < s.sup.top →
    (s.ring (64 + s.cqOf op.sq)).live = true → s.ringFree (64 + s.cqOf op.sq) ≠ 0 →
    ∃ t, exec (.powerSleep o) s = .next t ∧ t.posted o stOk 0 0 ∧ t.noneLeft o ∧ t.pwr.st = .sleep ∧ (∀ k, k < 16 → (t.thr k).st = .frozen) ∧
      t.time = s.time ∧ t.patMem = s.patMem ∧ t.plan.grants = s.plan.grants ∧ t.nvm = s.nvm)

/-- R600, R333: RAIL_START, RAIL_STOP, RAIL_RELEASE and RAIL_LIMITS are NOT_READY in the states that R600 names and OK at once where nothing is to be done; else they wait for the lead boundary of their rail. RAIL_SETPOINT writes SETPOINT and counts SP_SEQ up by 1, which it returns; RAIL_SETPOINT_AT arms a mark. On an ACTIVE device each waits first for its apply instant, 2 us after it is accepted (R397); the oldest takes effect then, and not before. Where the spec is silent it follows the model's log, entries 13, 45. -/
def Obligations.RailOperations : Prop :=
  (∀ s o op, Starts s o 0x10 op →
    ((s.rail (op.u8 8)).st = .off ∨ (s.rail (op.u8 8)).st = .envTrip → ∃ t, exec (.railStart o) s = .next t ∧ Ends s o stNotReady 0 t) ∧
    ((s.rail (op.u8 8)).st = .standby ∨ (s.rail (op.u8 8)).st = .armed ∨ (s.rail (op.u8 8)).st = .run → ∃ t, exec (.railStart o) s = .next t ∧ Ends s o stOk 0 t) ∧
    ((s.rail (op.u8 8)).st = .stopped → s.twin.st ≠ .active →
      ∃ t, exec (.railStart o) s = .next t ∧ Accepts (s.setRail (op.u8 8) { s.rail (op.u8 8) with reqs := (s.rail (op.u8 8)).reqs ++ [o] }) o t) ∧
    ((s.rail (op.u8 8)).st = .stopped → s.twin.st = .active →
      ∃ t, exec (.railStart o) s = .next t ∧ Accepts { s with twin := { s.twin with applyQ := s.twin.applyQ ++ [(s.applyAt, .op o)] } } o t)) ∧
  (∀ s o op, Starts s o 0x11 op →
    ((s.rail (op.u8 8)).st = .off ∨ (s.rail (op.u8 8)).st = .envTrip → ∃ t, exec (.railStop o) s = .next t ∧ Ends s o stNotReady 0 t) ∧
    ((s.rail (op.u8 8)).st = .stopped → ∃ t, exec (.railStop o) s = .next t ∧ Ends s o stOk 0 t) ∧
    ((s.rail (op.u8 8)).st = .standby ∨ (s.rail (op.u8 8)).st = .armed ∨ (s.rail (op.u8 8)).st = .run → s.twin.st ≠ .active →
      ∃ t, exec (.railStop o) s = .next t ∧ Accepts (s.setRail (op.u8 8) { s.rail (op.u8 8) with reqs := (s.rail (op.u8 8)).reqs ++ [o] }) o t)) ∧
  (∀ s o op, Starts s o 0x12 op → s.twin.st ≠ .active →
    ∃ t, exec (.railSetpoint o) s = .next t ∧ t.rmLe (op.u8 8) 0x80 4 = op.u32 0xC ∧ t.rmLe (op.u8 8) 0x84 4 = (s.rmLe (op.u8 8) 0x84 4 + 1) % 2 ^ 32 ∧
      t.rail (op.u8 8) = { s.rail (op.u8 8) with spNew := true } ∧ (∀ k, k ≠ op.u8 8 → t.rail k = s.rail k) ∧
      (∀ a, (a < 4096 * op.u8 8 + 0x80 ∨ 4096 * op.u8 8 + 0x88 ≤ a) → memGet 0 t.railMem a = memGet 0 s.railMem a) ∧
      Ends { s with railMem := t.railMem, rails := t.rails } o stOk (t.rmLe (op.u8 8) 0x84 4) t) ∧
  (∀ s o op, Starts s o 0x12 op → s.twin.st = .active →
      ∃ t, exec (.railSetpoint o) s = .next t ∧ Accepts { s with twin := { s.twin with applyQ := s.twin.applyQ ++ [(s.applyAt, .op o)] } } o t) ∧
  (∀ s o op, Starts s o 0x13 op →
    ((s.markBad (slice op.desc 0x10 16) || !zerosAt op.desc 0x1C 4) = true → ∃ t, exec (.railSetpointAt o) s = .next t ∧ Ends s o stBadDesc 0 t) ∧
    ((s.markBad (slice op.desc 0x10 16) || !zerosAt op.desc 0x1C 4) = false → s.twin.st ≠ .active →
      ∃ t, exec (.railSetpointAt o) s = .next t ∧
        Accepts { s.setRail (op.u8 8) { s.rail (op.u8 8) with reqs := (s.rail (op.u8 8)).reqs ++ [o] } with marks := s.marks ++ [s.evalMark (s.markOf (.setpoint o) (slice op.desc 0x10 16))] } o t)) ∧
  (∀ s o op, Starts s o 0x14 op →
    ((s.rail (op.u8 8)).st ≠ .envTrip → ∃ t, exec (.railRelease o) s = .next t ∧ Ends s o stNotReady 0 t) ∧
    ((s.rail (op.u8 8)).st = .envTrip → s.twin.st ≠ .active →
      ∃ t, exec (.railRelease o) s = .next t ∧ Accepts (s.setRail (op.u8 8) { s.rail (op.u8 8) with reqs := (s.rail (op.u8 8)).reqs ++ [o] }) o t)) ∧
  (∀ s o op, Starts s o 0x15 op →
    (op.u16 0x1E = 0 ∨ 3600 < op.u16 0x1E ∨ ((s.rail (op.u8 8)).hasPage = true ∧ (s.rail (op.u8 8)).isKind 3 = false) → ∃ t, exec (.railLimits o) s = .next t ∧ Ends s o stBadDesc 0 t) ∧
    (1 ≤ op.u16 0x1E → op.u16 0x1E ≤ 3600 → (s.rail (op.u8 8)).hasPage = false ∨ (s.rail (op.u8 8)).isKind 3 = true →
      ((s.rail (op.u8 8)).st = .off → ∃ t, exec (.railLimits o) s = .next t ∧ Ends s o stNotReady 0 t) ∧
      ((s.rail (op.u8 8)).st ≠ .off → s.twin.st ≠ .active →
        ∃ t, exec (.railLimits o) s = .next t ∧ Accepts (s.setRail (op.u8 8) { s.rail (op.u8 8) with reqs := (s.rail (op.u8 8)).reqs ++ [o] }) o t))) ∧
  (∀ (s : State) (due : DWord) (m : Nat) (v : Word) (rest : List (DWord × Apply)), s.twin.applyQ = (due, .rsp m v) :: rest → s.reached due = true →
    ∃ t, exec .applyInstant s = .next t ∧ t.twin = { s.twin with applyQ := rest } ∧ t.rmLe m 0x80 4 = v.toNat ∧ t.rmLe m 0x84 4 = (s.rmLe m 0x84 4 + 1) % 2 ^ 32 ∧
      t.rail m = { s.rail m with spNew := true } ∧ { t with rails := s.rails, railMem := s.railMem, twin := s.twin } = s) ∧
  (∀ (s : State) (o : Nat) (op : Op) (due : DWord) (rest : List (DWord × Apply)), s.twin.applyQ = (due, .op o) :: rest → s.reached due = true → s.findOp o = some op → op.done = false → op.code ≠ 0x12 → op.code ≠ 0x13 →
    ∃ t, exec .applyInstant s = .next t ∧ t = ({ s with twin := { s.twin with applyQ := rest } }.setRail (op.u8 8) { s.rail (op.u8 8) with reqs := (s.rail (op.u8 8)).reqs ++ [o] })) ∧
  (∀ (s : State) (due : DWord) (d : List Byte) (rest : List (DWord × Apply)), s.twin.applyQ = (due, .peerOp d) :: rest → s.reached due = true → byteAt d 0 ≠ 0x12 → byteAt d 0 ≠ 0x13 →
    ∃ t, exec .applyInstant s = .next t ∧ t.rail (byteAt d 8) = { s.rail (byteAt d 8) with reqs := (s.rail (byteAt d 8)).reqs ++ [8192 + leAt d 2 2 % 4096] } ∧
      (∀ k, k ≠ byteAt d 8 → t.rail k = s.rail k) ∧ { t.inner with rails := s.rails, twin := s.twin } = s.inner) ∧
  (∀ (s : State) (o : Nat) (op : Op) (due : DWord) (rest : List (DWord × Apply)), s.twin.applyQ = (due, .op o) :: rest → s.reached due = true → s.findOp o = some op → op.done = false → op.code = 0x12 → o < planTag →
    ∃ t, exec .applyInstant s = .next t ∧ t.rmLe (op.u8 8) 0x80 4 = op.u32 0xC ∧ t.rmLe (op.u8 8) 0x84 4 = (s.rmLe (op.u8 8) 0x84 4 + 1) % 2 ^ 32 ∧ t.rail (op.u8 8) = { s.rail (op.u8 8) with spNew := true } ∧
      Ends { s with railMem := t.railMem, rails := t.rails, twin := { s.twin with applyQ := rest } } o stOk (t.rmLe (op.u8 8) 0x84 4) t) ∧
  (∀ (s : State) (due : DWord) (a : Apply) (rest : List (DWord × Apply)), s.twin.applyQ = [] ∨ (s.twin.applyQ = (due, a) :: rest ∧ s.reached due = false) → exec .applyInstant s = .next s)

/-- R302, R333: THREAD_START runs a thread from its entry with every register 0, handlers disabled and no wait or mark of its own left, whatever state it was in, the cause of its last fault kept (R318); THREAD_HALT halts one and returns its pc; PAT_EVENT raises an event or clears its pending bits in the threads named. R344, R355, R526: operand data is read once the operation may start, and arrives whole, or the operation ends MEDIA_ERROR; a PAT_LOAD then waits for the staging buffer. Where the spec is silent it follows the model's log, entry 15. -/
def Obligations.ThreadHostOperations : Prop :=
  (∀ s o op, Starts s o 0x30 op → ∃ t, exec (.patLoad o) s = .next t ∧ Accepts { s with sec := { s.sec with staging := s.sec.staging ++ [o] } } o t) ∧
  (∀ s o op, Starts s o 0x31 op →
    (op.u16 0xC % 4 ≠ 0 ∨ ledgerRo ≤ 256 * fld (s.thrCfg (op.u8 8)) 17 8 → ∃ t, exec (.threadStart o) s = .next t ∧ Ends s o stBadDesc 0 t) ∧
    (op.u16 0xC % 4 = 0 → 256 * fld (s.thrCfg (op.u8 8)) 17 8 < ledgerRo →
      ∃ t, exec (.threadStart o) s = .next t ∧ t.posted o stOk 0 0 ∧ t.noneLeft o ∧
        (let x := t.thr (op.u8 8)
         x.st = .run ∧ x.pc = op.u16 0xC ∧ x.p = [] ∧ x.f = [] ∧ x.nie = false ∧ x.fie = false ∧ x.inNormal = false ∧ x.inFast = false ∧ x.npc = 0 ∧ x.fpc = 0 ∧
           x.nrd = 0 ∧ x.cause = (s.thr (op.u8 8)).cause ∧ x.waits = [] ∧ x.vbase = 0x800 * fld (s.thrCfg (op.u8 8)) 31 27 ∧ x.nbase = 0x100 * fld (s.thrCfg (op.u8 8)) 17 8 ∧ x.gev = fld (s.thrCfg (op.u8 8)) 26 18) ∧
        (∀ k, k ≠ op.u8 8 → (t.thr k).st = (s.thr k).st ∧ (t.thr k).pc = (s.thr k).pc ∧ (t.thr k).p = (s.thr k).p ∧ (t.thr k).f = (s.thr k).f) ∧
        (∀ m ∈ t.marks, ∀ a, m.who ≠ .thread (op.u8 8) a) ∧ { t.plant with marks := s.marks } = s.plant)) ∧
  (∀ s o op, Starts s o 0x32 op →
    ∃ t, exec (.threadHalt o) s = .next t ∧ t.posted o stOk 0 ((s.thr (op.u8 8)).pc % 2 ^ 16) ∧ t.noneLeft o ∧ (t.thr (op.u8 8)).st = .halted ∧
      (t.thr (op.u8 8)).pc = (s.thr (op.u8 8)).pc ∧ (t.thr (op.u8 8)).waits = [] ∧ (∀ k, k ≠ op.u8 8 → t.thr k = s.thr k) ∧ { t.plant with marks := s.marks } = s.plant) ∧
  (∀ s o op, Starts s o 0x33 op → op.u8 0xA = 0 → op.u16 8 < 511 →
    ∃ t, exec (.patEventRaise o) s = .next t ∧ t.posted o stOk 0 0 ∧ t.noneLeft o ∧ t.plant = s.plant ∧
      (if wbit (s.route (op.u16 8)) 31 then (∀ e, t.pend e = s.pend e) ∧ t.foreign = true else PendIs s t (op.u16 8) (s.pend (op.u16 8) ||| (s.route (op.u16 8)).setWidth 16))) ∧
  (∀ s o op, Starts s o 0x33 op → op.u8 0xA = 1 →
    ∃ t, exec (.patEventClear o) s = .next t ∧ t.posted o stOk 0 0 ∧ t.noneLeft o ∧ t.plant = s.plant ∧
      PendIs s t (op.u16 8) (s.pend (op.u16 8) &&& ~~~BitVec.ofNat 16 (op.u16 0xC))) ∧
  (∀ s o op, s.findOp o = some op → op.done = false → op.data = none → dataLen op.desc ≠ 0 → o < planTag → s.mayStart op = true →
    (∃ t, exec (.operandReadComplete o .failed) s = .next t ∧ Ends s o stMediaError 0 t) ∧
    (∀ b, b.length = dataLen op.desc → ∃ t, exec (.operandReadComplete o (.data b)) s = .next t ∧ t.findOp o = some { op with data := some b } ∧ t.inner = s.inner)) ∧
  (∀ (s : State) (o : Nat) (op : Op) (d : HostRead), s.findOp o = some op → op.done = true ∨ op.data ≠ none ∨ dataLen op.desc = 0 ∨ s.mayStart op = false → exec (.operandReadComplete o d) s = .next s)

/-- R367, R374, R377, R375, R379, R382, R384: the capture operations check in the order the spec gives and end with the status it names; else a configured bobbin is IDLE, an armed one ARMED with nothing recorded, a triggered one waits for its window, a read returns the object's bytes, a release frees the oldest object, a bind moves bobbins to an archive queue, an archive release frees a held range, and TRACE_CTL takes its record. R374: a window whose last step has been stored becomes an object, LOCKED; R376: a full chunk becomes an object and recording goes on. R380, R381: what fits of the draining object is written to the extent in front, which is then used up; R382: at the end of a drain the object is gone and its archive ranges are held. R384, R386: once TACK_INT has passed since the last periodic one, and not before, a TACK record counts the tack sequence on. Where the spec is silent it follows the model's log, entries 14, 38. -/
def Obligations.CaptureOperationsAndEngine : Prop :=
  (
  (∀ s o op c b, Starts s o 0x40 op → op.data = some c → b = op.u8 8 →
    ∃ t, exec (.bobbinCfg o) s = .next t ∧
      (if s.bobBad b c then Ends s o stBadDesc 0 t else if s.bobIso b then Ends s o stIsolated 0 t
        else if (s.bob b).st ≠ .unconfigured ∧ (s.bob b).st ≠ .idle then Ends s o stBusy 0 t else if bobTooLarge c then Ends s o stTooLarge 0 t
        else Ends { s with bobs := t.bobs } o stOk 0 t ∧ t.bob b = { cfg := c, st := .idle, bound := (s.bob b).bound, seq := (s.bob b).seq, missed := (s.bob b).missed } ∧
          ∀ k, k ≠ b → t.bob k = s.bob k)) ∧
  (∀ s o op b, Starts s o 0x41 op → b = op.u8 8 →
    ∃ t, exec (.bobbinArm o) s = .next t ∧
      (if s.armBad b then Ends s o stBadDesc 0 t else if (s.bob b).cfg = [] then Ends s o stNotReady 0 t else if s.bobIso b then Ends s o stIsolated 0 t
        else if (s.bob b).st = .post ∨ (s.bob b).st = .locked ∨ s.bobDrains b = true then Ends s o stBusy 0 t
        else if (s.bob b).st = .armed ∨ (s.bob b).st = .gap then Ends s o stOk 0 t
        else if 1024 * (s.armedRate (bobRate (s.bob b).cfg)).2 < (s.armedRate (bobRate (s.bob b).cfg)).1 then Ends s o stTooLarge 0 t
        else Ends { s with bobs := t.bobs, marks := t.marks } o stOk 0 t ∧ (t.bob b).st = .armed ∧ (t.bob b).cfg = (s.bob b).cfg ∧ (t.bob b).hits = [] ∧ (t.bob b).frames = [] ∧
          (t.bob b).objects = (s.bob b).objects ∧ ∀ k, k ≠ b → t.bob k = s.bob k)) ∧
  (∀ s o op b, Starts s o 0x42 op → b = op.u8 8 →
    ∃ t, exec (.bobbinTrigger o) s = .next t ∧
      (if (s.bob b).mode ≠ 0 ∨ (s.bob b).cfg = [] ∨ (s.bob b).st = .idle then Ends s o stNotReady 0 t else if s.bobIso b then Ends s o stIsolated 0 t
        else if (s.bob b).st ≠ .armed ∨ (s.bob b).trigOp ≠ none then Ends s o stBusy 0 t
        else Accepts (s.setBob b { (s.bob b).hit 4 s.time.st with trigOp := some o }) o t)) ∧
  (∀ s o op b, Starts s o 0x43 op → b = op.u8 8 →
    ((s.bob b).objects ≠ [] → s.bobIso b = true → ∀ e, ∃ t, exec (.bobbinRead o e) s = .next t ∧ Ends s o stIsolated 0 t) ∧
    ((s.bob b).objects = [] → ∀ e, ∃ t, exec (.bobbinRead o e) s = .next t ∧ Ends s o stNotReady 0 t) ∧
    (∀ obj l size n, s.bobIso b = false → (s.bob b).objects = obj :: l → size = obj.size (s.bob b).cfg → n = min (op.u32 0x18) (size - op.u64 0x10) →
      (∃ t, exec (.bobbinRead o .ok) s = .next t ∧ Ends s o (if size < op.u64 0x10 + op.u32 0x18 then stPartial else stOk) n t ∧
        Out.hostWrite (op.u64 0x20) (obj.read b (s.bob b).cfg (op.u64 0x10) n) ∈ t.out) ∧
      (∃ t k, exec (.bobbinRead o .uncorrectable) s = .next t ∧ k ≤ n ∧ t.cap.ue = true ∧ Ends { s with bobs := t.bobs, cap := t.cap, free := t.free } o stMediaError k t))) ∧
  (∀ s o op b, Starts s o 0x44 op → b = op.u8 8 →
    (s.bobIso b = true → ∃ t, exec (.bobbinRelease o) s = .next t ∧ Ends s o stIsolated 0 t) ∧
    (s.bobIso b = false → s.bobDrains b = true → ∃ t, exec (.bobbinRelease o) s = .next t ∧ Ends s o stBusy 0 t) ∧
    (s.bobIso b = false → s.bobDrains b = false → (s.bob b).mode = 0 → (s.bob b).trigOp = none → (s.bob b).objects ≠ [] ∨ (s.bob b).st = .armed ∨ (s.bob b).st = .post ∨ (s.bob b).st = .gap →
      ∃ t, exec (.bobbinRelease o) s = .next t ∧ t.posted o stOk 0 0 ∧ t.noneLeft o ∧
        t.bob b = { cfg := (s.bob b).cfg, st := .idle, bound := (s.bob b).bound, seq := (s.bob b).seq, missed := (s.bob b).missed } ∧ { t.plant with marks := s.marks } = s.plant)) ∧
  (∀ s o op, Starts s o 0x45 op →
    ((List.range 8).any (fun b => bitOf (op.u8 9) b && s.bobIso b) = true → ∃ t, exec (.archiveBind o) s = .next t ∧ Ends s o stIsolated 0 t) ∧
    ((List.range 8).any (fun b => bitOf (op.u8 9) b && s.bobIso b) = false →
      ∃ t, exec (.archiveBind o) s = .next t ∧ t.posted o stOk 0 0 ∧ t.noneLeft o ∧ t.plant = s.plant ∧
        ∀ b, b < 8 → (t.bob b).bound = (if bitOf (op.u8 9) b then some (op.u8 8) else if (s.bob b).bound = some (op.u8 8) then none else (s.bob b).bound))) ∧
  (∀ s o op, Starts s o 0x46 op → archRangeOk op.desc = false → ∃ t, exec (.archiveRelease o) s = .next t ∧ Ends s o stBadDesc 0 t) ∧
  (∀ s o op, Starts s o 0x46 op → op.u64 8 % 4096 = 0 → op.u64 0x10 % 4096 = 0 → op.u64 8 + op.u64 0x10 ≤ 2 ^ 52 →
    ∃ t, exec (.archiveRelease o) s = .next t ∧ t.posted o stOk 0 0 ∧ t.noneLeft o ∧ t.plant = s.plant ∧
      ∀ x, (∃ r ∈ t.cap.held, r.1 ≤ x ∧ x < r.1 + r.2) ↔ (∃ r ∈ s.cap.held, r.1 ≤ x ∧ x < r.1 + r.2) ∧ ¬(op.u64 8 ≤ x ∧ x < op.u64 8 + op.u64 0x10)) ∧
  (∀ s o op r, Starts s o 0x47 op → r = slice op.desc 8 16 →
    (traceCtlOk op.desc = false ∨ byteAt (s.bob (byteAt r 3 % 8)).cfg 1 ≠ 2 → ∃ t, exec (.traceCtl o) s = .next t ∧ Ends s o stBadDesc 0 t) ∧
    (traceCtlOk op.desc = true → byteAt (s.bob (byteAt r 3 % 8)).cfg 1 = 2 → s.bobIso (byteAt r 3 % 8) = true → ∃ t, exec (.traceCtl o) s = .next t ∧ Ends s o stIsolated 0 t) ∧
    (traceCtlOk op.desc = true → byteAt (s.bob (byteAt r 3 % 8)).cfg 1 = 2 → s.bobIso (byteAt r 3 % 8) = false →
      ∃ t, exec (.traceCtl o) s = .next t ∧ t.posted o stOk 0 0 ∧ t.noneLeft o ∧ t.cap.traceCtl = r ∧ t.plant = s.plant))) ∧
  (
  (∀ (s : State) (b : Fin 8) (f : Nat), (s.bob b).st = .post → (s.bob b).sf = some f → ((s.bob b).trigStep + bobPost (s.bob b).cfg) * bobDec (s.bob b).cfg ≤ f + 1 →
    ∃ t, exec (.windowCommit b) s = .next t ∧ (t.bob b).st = .locked ∧ (t.bob b).seq = (s.bob b).seq + 1 ∧ (t.bob b).cfg = (s.bob b).cfg ∧
      (∃ x, (t.bob b).objects = (s.bob b).objects ++ [x] ∧ x.seq = (s.bob b).seq ∧ x.stTrig = (s.bob b).stTrig ∧ x.post = bobPost (s.bob b).cfg ∧ x.trig = (s.bob b).trig ∧ x.drained = 0) ∧
      t.plant = s.plant) ∧
  (∀ (s : State) (b : Fin 8) (f a : Nat), (s.bob b).st = .armed → (s.bob b).mode = 1 → (s.bob b).sf = some f → (s.bob b).since = some a →
    (a + bobChunk (s.bob b).cfg) * bobDec (s.bob b).cfg ≤ f + 1 →
    ∃ t, exec (.chunkCommit b) s = .next t ∧ (t.bob b).seq = (s.bob b).seq + 1 ∧ t.plant = s.plant ∧
      (∃ x, (t.bob b).objects = (s.bob b).objects ++ [x] ∧ x.seq = (s.bob b).seq ∧ x.first = a ∧ x.post = bobChunk (s.bob b).cfg ∧ x.gap = (s.bob b).gap ∧ x.drained = 0) ∧
      ((t.bob b).st = .armed ∨ (t.bob b).st = .gap)) ∧
  (∀ (s : State) (a : Fin 8) (b q : Nat) (e : Extent) (l : List Extent) (x : Object), s.draining a = some (b, q) → s.aqExtents a = e :: l → s.objOf b q = some x → s.bulkOff = false →
    e.len - e.used ≤ s.unitsLeft b x →
    ∃ t, exec (.extentDone a .ok) s = .next t ∧ t.aqExtents a = l ∧ t.plant = s.plant ∧
      Out.archive (e.bus + 4096 * e.used) (e.arch + 4096 * e.used) x.drained (4096 * (e.len - e.used)) x ∈ t.out ∧
      t.objOf b q = some { x with drained := x.drained + 4096 * (e.len - e.used), pieces := x.pieces ++ [(e.arch + 4096 * e.used, 4096 * (e.len - e.used))] }) ∧
  (∀ (s : State) (a : Fin 8) (b q : Nat) (x : Object), s.draining a = some (b, q) → s.objOf b q = some x → s.bulkOff = false → (s.bob b).mode = 0 → (s.bob b).st = .locked →
    s.unitsLeft b x ≤ (match s.aqExtents a with | e :: _ => e.len - e.used | [] => 0) →
    ∃ t, exec (.drainComplete a) s = .next t ∧ t.objOf b q = none ∧ (a.val, b, q) ∉ t.cap.drain ∧ { t.plant with marks := s.marks } = s.plant ∧
      (t.bob b).st = (if bobFlag (s.bob b).cfg 1 then .armed else .idle) ∧ ∀ p ∈ x.pieces, ∀ y, p.1 ≤ y → y < p.1 + p.2 → ∃ r ∈ t.cap.held, r.1 ≤ y ∧ y < r.1 + r.2) ∧
  (∀ (s : State), s.traceEn = true → s.cap.halted = false → s.reached s.tackDue = true →
    ∃ t, exec .traceTack s = .next t ∧ t.cap.tackSeq = s.cap.tackSeq + 1 ∧ t.cap.tackAt = s.time.st ∧ t.cap.lastAt = s.time.st ∧ t.cap.traceCtl = s.cap.traceCtl ∧ t.plant = s.plant) ∧
  (∀ (s : State), s.traceEn = false ∨ s.cap.halted = true ∨ s.reached s.tackDue = false → exec .traceTack s = .next s))

/-- R144, R336: STAGE_CELL and STAGE_RAIL check the page: one that breaks a rule is BAD_DESC and discards the staged copy; after the seal a rail page off its envelope is DENIED; while a swap of the target waits they are BUSY; else the page becomes the staged copy. R335, R33: a SWAP without a staged page is BAD_DESC; a cell that runs and a rail with a page take theirs at a boundary, the operation waiting; a cell or rail without boundaries takes it at once, and then the operation completes with the time of the swap; R597: on a trained lane that had no page it completes once the late configuration is done. What is staged after the order does not change what was ordered. Where the spec is silent it follows the model's log, entries 21, 46. -/
def Obligations.StagedPagesAndSwaps : Prop :=
  (∀ s o op c n, Starts s o 0x50 op → op.data = some c → n = op.u16 8 →
    ∃ t, exec (.stageCell o) s = .next t ∧ (∀ k, k ≠ n → t.cell k = s.cell k) ∧
      (if s.cellPageOk n c = false then
          Ends { s with cells := t.cells } o stBadDesc 0 t ∧ t.cell n = { s.cell n with staged := [] }
        else if (s.cell n).swapOp ≠ none then Ends s o stBusy 0 t
        else Ends { s with cells := t.cells } o stOk 0 t ∧ t.cell n = { s.cell n with staged := c })) ∧
  (∀ s o op c m, Starts s o 0x51 op → op.data = some c → m = op.u8 8 →
    ∃ t, exec (.stageRail o) s = .next t ∧ (∀ k, k ≠ m → t.rail k = s.rail k) ∧
      (if s.railPageOk m c = false then
          Ends { s with rails := t.rails } o stBadDesc 0 t ∧ t.rail m = { s.rail m with staged := [] }
        else if s.envelopeBad m c then Ends s o stDenied 0 t else if (s.rail m).swapOp ≠ none then Ends s o stBusy 0 t
        else Ends { s with rails := t.rails } o stOk 0 t ∧ t.rail m = { s.rail m with staged := c })) ∧
  (∀ s o op n, Starts s o 0x52 op → op.u8 8 = 0 → n = op.u16 0xA →
    ((s.cell n).staged = [] → ∃ t, exec (.swapCell o) s = .next t ∧ Ends s o stBadDesc 0 t) ∧
    ((s.cell n).staged ≠ [] → (s.cell n).swapOp ≠ none → ∃ t, exec (.swapCell o) s = .next t ∧ Ends s o stBusy 0 t) ∧
    ((s.cell n).staged ≠ [] → (s.cell n).swapOp = none → s.cellRuns n = true →
      ∃ t, exec (.swapCell o) s = .next t ∧ Accepts (s.setCell n { s.cell n with swapOp := some o, swapPage := (s.cell n).staged }) o t) ∧
    ((s.cell n).staged ≠ [] → (s.cell n).swapOp = none → s.cellRuns n = false → (s.lane n).live = false ∨ (s.cell n).active ≠ [] → s.swapWaits o = false →
      ∃ t, exec (.swapCell o) s = .next t ∧ (t.cell n).active = (s.cell n).staged ∧ (t.cell n).staged = [] ∧ (t.cell n).swapOp = none ∧ (t.cell n).relief = (s.cell n).relief ∧ (∀ k, k ≠ n → t.cell k = s.cell k) ∧
        t.posted o stOk 0 (s.time.st.toNat % 2 ^ 32) ∧ t.noneLeft o ∧ { t.inner with cells := s.cells, engines := s.engines, lanes := s.lanes } = s.inner) ∧
    ((s.cell n).staged ≠ [] → (s.cell n).swapOp = none → s.cellRuns n = false → (s.lane n).live = true → (s.cell n).active = [] → cpShortLow (s.cell n).staged = false ∨ bitOf (((s.lane n).auxOf 0xE).getD 0) 15 = true →
      ∃ t p, exec (.swapCell o) s = .next t ∧ (t.cell n).active = (s.cell n).staged ∧ (t.lane n).lateOp = some o ∧ (t.lane n).cfgMode = (if (s.lane n).hasMaster then 4 else 3) ∧
        (t.lane n).st = (s.lane n).st ∧ t.findOp o = some p ∧ p.done = false)) ∧
  (∀ s o op m, Starts s o 0x52 op → op.u8 8 = 2 → m = op.u16 0xA →
    ((s.rail m).staged = [] → ∃ t, exec (.swapRail o) s = .next t ∧ Ends s o stBadDesc 0 t) ∧
    ((s.rail m).staged ≠ [] → (s.rail m).swapOp ≠ none ∨ (s.rail m).swapBusy (s.rail m).staged = true → ∃ t, exec (.swapRail o) s = .next t ∧ Ends s o stBusy 0 t) ∧
    ((s.rail m).staged ≠ [] → (s.rail m).swapOp = none → (s.rail m).swapBusy (s.rail m).staged = false → (s.rail m).hasPage = true →
      ∃ t, exec (.swapRail o) s = .next t ∧ Accepts (s.setRail m { s.rail m with swapOp := some (o, false), swapPage := (s.rail m).staged }) o t) ∧
    ((s.rail m).staged ≠ [] → (s.rail m).swapOp = none → (s.rail m).hasPage = false → (s.rail m).st = .off → s.swapWaits o = false → (∀ x ∈ s.marks, x.who ≠ .setpoint o) →
      ∃ t, exec (.swapRail o) s = .next t ∧ (t.rail m).active = (s.rail m).staged ∧ (t.rail m).staged = [] ∧ (t.rail m).swapOp = none ∧ (t.rail m).st = .stopped ∧
        (∀ k, k ≠ m → t.rail k = s.rail k) ∧ t.posted o stOk 0 (s.time.st.toNat % 2 ^ 32) ∧ t.noneLeft o)) ∧
  (∀ s o op m, Starts s o 0x52 op → op.u8 8 = 1 → m = op.u16 0xA → (s.rail m).staged ≠ [] → (s.rail m).swapOp = none → (s.rail m).swapBusy (s.rail m).staged = false → (s.rail m).hasPage = true →
    (∀ n ∈ s.swapCells m, (s.cell n).staged ≠ [] ∧ (s.cell n).swapOp = none ∧ s.cellRuns n = true) →
    ∃ t, exec (.swapRailAll o) s = .next t ∧ t.rail m = { s.rail m with swapOp := some (o, decide (s.swapCells m ≠ [])), swapPage := (s.rail m).staged } ∧ (∀ k, k ≠ m → t.rail k = s.rail k) ∧
      (∀ n, t.cell n = if n ∈ s.swapCells m then { s.cell n with swapOp := some o, swapPage := (s.cell n).staged } else s.cell n) ∧ Accepts { s with rails := t.rails, cells := t.cells } o t)

/-- R62, R337: a PROFILE_LOAD of profile 0 is BUSY unless the cell shows SAFE, and so is any while another loads; else the block becomes the lane's; 1 ms after its first commit without the matching PROF_CRC, and not before, it times out. R491, R493: NVM_READ returns the bytes there are, or those before a page with an uncorrectable error. R507, R508, R497: a write of a protected page, or an append to rings 0 to 2, is DENIED; R494: else the page program runs, and at its end the page holds the data and the operation is OK; a failed one is MEDIA_ERROR and leaves every other page alone. R499: NVM_RING_READ returns a valid slot or is PARTIAL. Where the spec is silent it follows the model's log, entries 43, 46. -/
def Obligations.ProfilesAndNvm : Prop :=
  (∀ s o op c n, Starts s o 0x53 op → op.data = some c → n = op.u16 8 →
    ((bitOf (op.u16 0xC) 0 = true ∧ (s.lane n).status.getLsbD 10 = false) ∨ (s.lane n).profOp ≠ none → ∃ t, exec (.profileLoad o) s = .next t ∧ Ends s o stBusy 0 t) ∧
    ((bitOf (op.u16 0xC) 0 = false ∨ (s.lane n).status.getLsbD 10 = true) → (s.lane n).profOp = none →
      ∃ t, exec (.profileLoad o) s = .next t ∧ (t.lane n).profOp = some o ∧ (t.lane n).profBlock = profMerge (s.lane n).profBlock c (op.u16 0xC) ∧
        (t.lane n).st = (s.lane n).st ∧ (∀ k, k ≠ n → t.lane k = s.lane k) ∧ Accepts { s with lanes := t.lanes } o t)) ∧
  (∀ s o op, s.liveOp o 0x53 = some op → op.committed = true → s.reached (op.since + 16000000) = true → o < planTag →
    ∃ t, exec (.profileLoadTimeout o) s = .next t ∧ Ends (s.setLane (op.u16 8) { s.lane (op.u16 8) with profOp := none }) o stTimeout 0 t) ∧
  (∀ (s : State) (o : Nat) (op : Op), s.liveOp o 0x53 = some op → op.committed = false ∨ s.reached (op.since + 16000000) = false → exec (.profileLoadTimeout o) s = .next s) ∧
  (∀ s o op n e, Starts s o 0x60 op → s.nvmBusy = false → n = min (op.u32 0xC) (0x100000 - op.u32 8) → e ≠ .uncorrectable ∨ n = 0 →
    ∃ t, exec (.nvmRead o e) s = .next t ∧ Ends s o (if n < op.u32 0xC then stPartial else stOk) n t ∧ Out.hostWrite (op.u64 0x10) (memRead 0xFF s.nvm.mem (op.u32 8) n) ∈ t.out) ∧
  (∀ s o op n, Starts s o 0x60 op → s.nvmBusy = false → n = min (op.u32 0xC) (0x100000 - op.u32 8) → n ≠ 0 →
    ∃ t k, exec (.nvmRead o .uncorrectable) s = .next t ∧ k ≤ n ∧ Ends { s with free := t.free } o stMediaError k t ∧ Out.hostWrite (op.u64 0x10) (memRead 0xFF s.nvm.mem (op.u32 8) k) ∈ t.out) ∧
  (∀ s o op c, Starts s o 0x61 op → op.data = some c →
    (s.pageDenied (op.u16 8) = true → ∃ t, exec (.nvmWrite o) s = .next t ∧ Ends s o stDenied 0 t) ∧
    (s.pageDenied (op.u16 8) = false → s.nvm.job = none → s.sup.brace = false → s.nvm.waitSup = [] → s.nvm.waitHost = [] →
      ∃ t, exec (.nvmWrite o) s = .next t ∧ Accepts { s with nvm := { s.nvm with job := some { owner := .host o, page := op.u16 8, data := fitTo 256 c } } } o t) ∧
    (s.pageDenied (op.u16 8) = false → s.nvm.job ≠ none →
      ∃ t, exec (.nvmWrite o) s = .next t ∧ Accepts { s with nvm := { s.nvm with waitHost := s.nvm.waitHost ++ [o] } } o t)) ∧
  (∀ s o op c, Starts s o 0x62 op → op.data = some c →
    (op.u16 0xC = 0 ∨ 240 < op.u16 0xC → ∃ t, exec (.nvmAppend o) s = .next t ∧ Ends s o stBadDesc 0 t) ∧
    (1 ≤ op.u16 0xC → op.u16 0xC ≤ 240 → op.u8 8 < 3 → ∃ t, exec (.nvmAppend o) s = .next t ∧ Ends s o stDenied 0 t) ∧
    (1 ≤ op.u16 0xC → op.u16 0xC ≤ 240 → 3 ≤ op.u8 8 → s.nvm.job = none → s.sup.brace = false → s.nvm.waitSup = [] → s.nvm.waitHost = [] →
      ∃ t, exec (.nvmAppend o) s = .next t ∧
        Accepts { s with nvm := { s.nvm with job := some { owner := .host o, page := ringPage (op.u8 8) (s.nextSlot (op.u8 8)).1, data := slotMake (s.nextSlot (op.u8 8)).2 (c.take (op.u16 0xC)) } } } o t)) ∧
  (∀ s o op, Starts s o 0x63 op → s.nvmBusy = false → ∃ t, exec (.nvmRingRead o .uncorrectable) s = .next t ∧ Ends s o stMediaError 0 t) ∧
  (∀ s o op e, Starts s o 0x63 op → s.nvmBusy = false → e ≠ .uncorrectable →
    ∃ t, exec (.nvmRingRead o e) s = .next t ∧
      (match s.olderSlot (op.u8 8) (op.u16 0xC) with
        | some i => Ends s o stOk 256 t ∧ Out.hostWrite (op.u64 0x10) (s.slotBytes (op.u8 8) i) ∈ t.out
        | none => Ends s o stPartial 0 t)) ∧
  (∀ s o op page data, GoesOn s o 0x61 op → s.nvm.job = some { owner := .host o, page := page, data := data } → s.nvm.waitSup = [] → s.nvm.waitHost = [] → data.length = 256 →
    (∃ t, exec (.nvmProgramDone true) s = .next t ∧ memRead 0xFF t.nvm.mem (256 * page) 256 = data ∧
      (∀ a, a < 256 * page ∨ 256 * page + 256 ≤ a → memGet 0xFF t.nvm.mem a = memGet 0xFF s.nvm.mem a) ∧
      t.posted o stOk 0 (op.value % 2 ^ 64) ∧ t.noneLeft o ∧ t.inner = { s with nvm := { s.nvm with job := none, mem := t.nvm.mem } }.inner) ∧
    (∃ t, exec (.nvmProgramDone false) s = .next t ∧
      (∀ a, a < 256 * page ∨ 256 * page + 256 ≤ a → memGet 0xFF t.nvm.mem a = memGet 0xFF s.nvm.mem a) ∧
      t.posted o stMediaError 0 0 ∧ t.noneLeft o ∧ t.inner = { s with free := t.free, nvm := { s.nvm with job := none, mem := t.nvm.mem } }.inner))

/-- R530, R531: a CHALLENGE that may be drawn becomes the live one and is written to the host with a fresh nonce, the device's identity and its life cycle; it overtakes every RESPONSE that has started, and 60 s later it expires. R532: after 8 failed RESPONSEs every CHALLENGE is DENIED. R533: a RESPONSE uses the live challenge up: a right signature reopens the device, any other is DENIED and counted. R541, R542: RNG_READ writes the bytes as they are drawn and ends with LEN of them; at a health failure it ends PARTIAL with those drawn before. R517, R518: a LC_TRANSITION that the state does not allow is DENIED, and BUSY while another runs; else its rows are programmed. Where the spec is silent it follows the model's log, entries 4, 8, 44. -/
def Obligations.SecurityOperations : Prop :=
  (∀ s o op, Starts s o 0x70 op →
    (∀ st, s.challengeStatus = some st → ∃ t, exec (.challenge o) s = .next t ∧ Ends s o st 0 t) ∧
    (8 ≤ s.sec.respFails → ∃ t, exec (.challenge o) s = .next t ∧ Ends s o stDenied 0 t) ∧
    (s.challengeStatus = none →
      ∃ t c, exec (.challenge o) s = .next t ∧ c.length = 32 ∧ leAt c 16 8 = (s.otpRead 0).toNat ∧ byteAt c 25 = s.sec.respFails % 256 ∧
        Ends { s with free := s.free + 16, sec := { s.sec with chal := some c, chalAt := s.cycles } } o stOk 0 t ∧ Out.hostWrite (op.u64 8) c ∈ t.out ∧
        ∀ p ∈ t.ops, p.code = 0x71 → p.accepted = true → p.done = false → p.applied = true)) ∧
  (∀ s o op, Starts s o 0x71 op → op.data = none → ∃ t, exec (.response o) s = .next t ∧ Accepts s o t) ∧
  (∀ s o op sig, Starts s o 0x71 op ∨ GoesOn s o 0x71 op → op.data = some sig →
    ∃ t, exec (.response o) s = .next t ∧
      (if op.applied then Ends { s with sec := { s.sec with respFails := satInc 15 s.sec.respFails } } o stDenied 0 t
        else if s.responseGood sig then Ends { s with sec := { s.sec with chal := none }, nvm := { s.nvm with reopened := true } } o stOk 0 t
        else Ends { s with sec := { s.sec with chal := none, respFails := satInc 15 s.sec.respFails } } o stDenied 0 t)) ∧
  (∀ (s : State), exec .challengeExpiry s = .next (if s.passed s.sec.chalAt (60000 * msCycles) then { s with sec := { s.sec with chal := none } } else s)) ∧
  (∀ s o op drawn, Starts s o 0x72 op →
    (op.u16 8 = 0 ∨ 4096 < op.u16 8 → ∃ t, exec (.rngRead o drawn) s = .next t ∧ Ends s o stBadDesc 0 t) ∧
    (1 ≤ op.u16 8 → op.u16 8 ≤ 4096 → s.sec.rngReady = false → ∃ t, exec (.rngRead o drawn) s = .next t ∧ Ends s o stNotReady 0 t)) ∧
  (∀ s o op drawn m, (Starts s o 0x72 op ∧ 1 ≤ op.u16 8 ∧ op.u16 8 ≤ 4096 ∧ s.sec.rngReady = true) ∨ GoesOn s o 0x72 op → op.step ≤ op.u16 8 → m = min drawn (op.u16 8 - op.step) →
    ∃ t b, exec (.rngRead o drawn) s = .next t ∧ b.length = m ∧ Out.hostWrite (op.u64 0x10 + op.step) b ∈ t.out ∧
      (if op.step + m < op.u16 8 then Accepts { s with free := s.free + m } o t ∧ ∃ p, t.findOp o = some p ∧ p.step = op.step + m
        else Ends { s with free := s.free + m } o stOk (op.u16 8) t)) ∧
  (∀ s o op, s.rngRuns = true → GoesOn s o 0x72 op → s.ops.filter (fun p => p.code == 0x72 && p.accepted && !p.done) = [op] →
    ∃ t, exec .trngHealthFail s = .next t ∧ Ends { s with sec := { s.sec with rngReady := false, rngFails := satInc 0xFFFF s.sec.rngFails } } o stPartial (op.step % 2 ^ 64) t) ∧
  (∀ s o op, Starts s o 0x73 op →
    (5 < op.u8 8 → ∃ t, exec (.lcTransition o) s = .next t ∧ Ends s o stBadDesc 0 t) ∧
    (op.u8 8 ≤ 5 → (op.u8 8 = 3 → s.nvm.lc = .integration → (s.keyHash.any (· != 0)) = true ∧ s.guardsGood = true) →
      (s.lcDenied (op.u8 8) = true → ∃ t, exec (.lcTransition o) s = .next t ∧ Ends s o stDenied 0 t) ∧
      (s.lcDenied (op.u8 8) = false → (s.nvm.lcJob ≠ none ∨ (op.u8 8 = 3 ∧ s.anyRun = true)) → ∃ t, exec (.lcTransition o) s = .next t ∧ Ends s o stBusy 0 t) ∧
      (s.lcDenied (op.u8 8) = false → s.nvm.lcJob = none → op.u8 8 ≠ 3 ∨ s.anyRun = false →
        ∃ t, exec (.lcTransition o) s = .next t ∧ Accepts { s with nvm := { s.nvm with lcJob := some (o, s.lcRows (op.u8 8)) } } o t)))

/-- R483: QUARANTINE of a closed selvedge is ISOLATED, and BUSY without its precondition; else it waits, and at its instant the selvedge closes, which ends every operation under way inside it and completes it OK; 10 ms without that and it times out, nothing closed. R487: QUARANTINE_END opens a closed selvedge; of a cell engine that relief has put inside its own it is ISOLATED (R154). R488: TWOWIRE_CYCLE of the quarantined two-wire block takes its island down; 10 ms later the island is up again, without HANG, and it completes. Where the spec is silent it follows the model's log, entry 19. -/
def Obligations.QuarantineAndIsland : Prop :=
  (∀ s o op, Starts s o 0x80 op →
    (s.selvClosed (op.u8 8) (op.u16 0xA) = true → ∃ t, exec (.quarantine o) s = .next t ∧ Ends s o stIsolated 0 t) ∧
    (s.selvClosed (op.u8 8) (op.u16 0xA) = false → op.u8 0xC ≠ 1 → s.quarantineOk (op.u8 8) (op.u16 0xA) = false → ∃ t, exec (.quarantine o) s = .next t ∧ Ends s o stBusy 0 t) ∧
    (s.selvClosed (op.u8 8) (op.u16 0xA) = false → (∃ v ∈ s.pwr.selv, v.kind = op.u8 8 ∧ v.index = op.u16 0xA) → ∃ t, exec (.quarantine o) s = .next t ∧ Ends s o stBusy 0 t) ∧
    ((∀ v ∈ s.pwr.selv, v.kind ≠ op.u8 8 ∨ v.index ≠ op.u16 0xA) → op.u8 0xC = 1 ∨ s.quarantineOk (op.u8 8) (op.u16 0xA) = true →
      ∃ t, exec (.quarantine o) s = .next t ∧
        Accepts { s with pwr := { s.pwr with selv := s.pwr.selv ++ [{ kind := op.u8 8, index := op.u16 0xA, force := op.u8 0xC == 1, op := o, closed := false }] } } o t)) ∧
  (∀ s o op v, GoesOn s o 0x80 op → s.pwr.selv.find? (fun v => v.op == o && !v.closed) = some v → s.selvReady v.kind v.index = true →
    ∃ t, exec (.selvedgeClose o) s = .next t ∧ t.selvClosed v.kind v.index = true ∧ t.posted o stOk 0 0 ∧ t.noneLeft o ∧
      (∀ p ∈ s.ops, p.names v.kind v.index = true → p.accepted = true → p.done = false → p.tag < planTag → t.noneLeft p.tag)) ∧
  (∀ s o op v, GoesOn s o 0x80 op → s.pwr.selv.find? (fun v => v.op == o && !v.closed) = some v → s.selvReady v.kind v.index = false → exec (.selvedgeClose o) s = .next s) ∧
  (∀ s o op, GoesOn s o 0x80 op → s.reached (op.since + 160000000) = false → exec (.quarantineTimeout o) s = .next s) ∧
  (∀ s o op v, GoesOn s o 0x80 op → s.pwr.selv.find? (fun v => v.op == o && !v.closed) = some v → s.reached (op.since + 160000000) = true →
    ∃ t, exec (.quarantineTimeout o) s = .next t ∧ Ends { s with pwr := { s.pwr with selv := s.pwr.selv.filter fun v => v.closed || v.op != o } } o stTimeout 0 t) ∧
  (∀ s o op, Starts s o 0x81 op →
    (s.selvClosed (op.u8 8) (op.u16 0xA) = false → ∃ t, exec (.quarantineEnd o) s = .next t ∧ Ends s o (if op.u8 8 = 0 ∧ s.engineAway (op.u16 0xA) = true then stIsolated else stNotReady) 0 t) ∧
    (s.selvClosed (op.u8 8) (op.u16 0xA) = true → op.u8 8 = 3 → s.pwr.islandOp ≠ none → ∃ t, exec (.quarantineEnd o) s = .next t ∧ Ends s o stBusy 0 t) ∧
    (s.selvClosed (op.u8 8) (op.u16 0xA) = true → op.u8 8 ≠ 3 ∨ s.pwr.islandOp = none →
      ∃ t, exec (.quarantineEnd o) s = .next t ∧ t.selvClosed (op.u8 8) (op.u16 0xA) = false ∧
        Ends { s with pwr := t.pwr, lanes := t.lanes, engines := t.engines, bobs := t.bobs } o stOk 0 t)) ∧
  (∀ s o op, Starts s o 0x85 op →
    (s.selvClosed 3 0 = false ∨ s.pwr.islandOp ≠ none → ∃ t, exec (.twowireCycle o) s = .next t ∧ Ends s o stBusy 0 t) ∧
    (s.selvClosed 3 0 = true → s.pwr.islandOp = none → ∃ t, exec (.twowireCycle o) s = .next t ∧ Accepts { s with pwr := { s.pwr with island := false, islandOp := some o } } o t)) ∧
  (∀ s o op, GoesOn s o 0x85 op → s.pwr.islandOp = some o → s.reached (op.since + 160000000) = false → exec .twowireIslandUp s = .next s) ∧
  (∀ s o op, GoesOn s o 0x85 op → s.pwr.islandOp = some o → s.reached (op.since + 160000000) = true →
    ∃ t, exec .twowireIslandUp s = .next t ∧ Ends { s with pwr := { s.pwr with island := true, islandOp := none }, sec := { s.sec with hang := false, twPtr := 0, twLatch := 0 } } o stOk 0 t)

/-- R526, R527, R154: an image waits for the staging buffer. Read whole, it is checked on the staged copy: a failed read is MEDIA_ERROR; an image that does not pass, a target inside a closed selvedge (ISOLATED) and an engine that may not take one (BUSY) end it with the status that comes first in the order of R356, and else it is installed from there: pattern words from address 0, an engine's program, a relief engine's program, or the other firmware bank. R528: when both lockstep pairs run the new firmware, the banks change and the load completes OK; a pair that fails its self-check raises the SAFETY reset. Where the spec is silent it follows the model's log, entries 8, 19. -/
def Obligations.ImageLoads : Prop :=
  (∀ s o op, Starts s o 0x84 op → op.u8 8 = 0 → ∃ t, exec (.imageLoadEngine o) s = .next t ∧ Accepts { s with sec := { s.sec with staging := s.sec.staging ++ [o] } } o t) ∧
  (∀ s o op, Starts s o 0x84 op → op.u8 8 = 1 → ∃ t, exec (.imageLoadFirmware o) s = .next t ∧ Accepts { s with sec := { s.sec with staging := s.sec.staging ++ [o] } } o t) ∧
  (∀ (s u : State) o op, s.findOp o = some op → op.done = false → o < planTag → s.sec.staging.head? = some o → s.sec.staged = none →
    u = { s with sec := { s.sec with staging := s.sec.staging.filter (· ≠ o) } } →
    (∃ t, exec (.imageStaged o .failed) s = .next t ∧ Ends u o stMediaError 0 t) ∧
    (∀ b st, s.imageStatus b (imageKind op) = some st → s.imageTarget op = none ∨ st = stBadDesc → ∃ t, exec (.imageStaged o (.data b)) s = .next t ∧ Ends u o st 0 t) ∧
    (∀ b, s.imageStatus b (imageKind op) = some stDenied → s.imageTarget op ≠ some stBadDesc → ∃ t, exec (.imageStaged o (.data b)) s = .next t ∧ Ends u o stDenied 0 t) ∧
    (∀ b st, s.imageStatus b (imageKind op) = none ∨ s.imageStatus b (imageKind op) = some stTooLarge → s.imageTarget op = some st → ∃ t, exec (.imageStaged o (.data b)) s = .next t ∧ Ends u o st 0 t) ∧
    (∀ b, op.code = 0x30 → ∃ t, exec (.imageStaged o (.data b)) s = .next t ∧ (s.imageStatus b (imageKind op) = none → Ends { u with patMem := t.patMem } o stOk ((imageWords b).length % 2 ^ 64) t ∧
        ∀ i, tabGet (fun _ => 0) t.patMem i = if i < (imageWords b).length then (imageWords b).getD i 0 else tabGet (fun _ => 0) s.patMem i)) ∧
    (∀ b, op.code = 0x84 → op.u8 8 = 0 →
      ∃ t, exec (.imageStaged o (.data b)) s = .next t ∧ (s.imageStatus b (imageKind op) = none →
        if s.enclosed (op.u16 0xA) then Ends u o stIsolated 0 t else if s.engineBusy (op.u16 0xA) then Ends u o stBusy 0 t
          else Ends { u with engines := t.engines } o stOk 0 t ∧ (t.eng (op.u16 0xA)).image = imageWords b ∧ ∀ k, k ≠ op.u16 0xA → t.eng k = s.eng k)) ∧
    (∀ b, op.code = 0x84 → op.u8 8 = 1 → s.nvm.job ≠ none →
      ∃ t, exec (.imageStaged o (.data b)) s = .next t ∧ (s.imageStatus b (imageKind op) = none →
        t.sec = { s.sec with staged := some (o, b) } ∧ t.nvm = { s.nvm with waitHost := s.nvm.waitHost ++ [o] } ∧ { t with sec := s.sec, nvm := s.nvm } = s)) ∧
    (∀ b, op.code = 0x82 → s.relieveStatus (op.u16 8) = none →
      ∃ t, exec (.imageStaged o (.data b)) s = .next t ∧ (s.imageStatus b (imageKind op) = none →
        (t.cell (op.u16 8)).relief = .starting o false 1 false ∧ (t.eng (1024 + op.u16 8 / 16)).carries = some (op.u16 8) ∧
          (t.eng (1024 + op.u16 8 / 16)).image = imageWords b ∧ Accepts { u with cells := t.cells, engines := t.engines } o t))) ∧
  (∀ (s : State) (k : Fin 2) (o : Nat), s.sec.fwOp = some o → bitOf s.sec.fwPairs k = false → s.sec.fwPairs + 2 ^ k.val ≠ 3 →
    exec (.firmwarePairRestart k true) s = .next { s with sec := { s.sec with fwPairs := s.sec.fwPairs + 2 ^ k.val } }) ∧
  (∀ (s : State) (k : Fin 2) o op, s.sec.fwOp = some o → bitOf s.sec.fwPairs k = false → s.sec.fwPairs + 2 ^ k.val = 3 → s.findOp o = some op → op.done = false → o < planTag → s.sec.fwWrites = [] →
    ∃ t, exec (.firmwarePairRestart k true) s = .next t ∧ t.sec.bank = (!s.sec.bank) ∧ t.sec.gen = s.sec.gen + 1 ∧ t.sec.fwOp = none ∧ t.sec.fwPairs = 0 ∧
      Ends { s with sec := t.sec } o stOk 0 t) ∧
  (∀ (s : State) (k : Fin 2) (o : Nat), s.sec.fwOp = some o → s.pwr.st ≠ .off →
    ∃ t, exec (.firmwarePairRestart k false) s = .next t ∧ t.pwr.episode = true ∧ RstSrc.safety ∈ t.pwr.raised)

/-- R404 to R407: on a loss of its twin a SHADOW bids: it enters TAKING under the next term; an ACTIVE leads on alone, SOLO, but bids when only the link is lost while the twin still lives; a DETACHED device bids when the twin's watchdog or its life fails; and OFF, SOLO and TAKING devices note the loss. The link is lost when it has carried no good frame for 1 us (R393). R406: 3 us after its TAKE a bidder that is master of enough of its lanes in RUN wins, and leads, ACTIVE or SOLO; another is DETACHED, and what it held for the bid ends with TWIN_ROLE. Where the spec is silent it follows the model's log, entry 39. -/
def Obligations.TwinLossesAndBids : Prop :=
  (∀ (s : State) (c : Instr) (bit : Nat), (c, bit) ∈ [(Instr.takeReqLow, 0), (Instr.yieldReceived, 1), (Instr.aliveLoss, 2), (Instr.linkLoss, 3)] → s.pwr.st ≠ .sleep → (bit = 3 → 16000 ≤ (s.time.st - s.twin.frameAt).toNat) →
    ∃ t, exec c s = .next t ∧ (s.twin.loss = 0 → t.twin.loss = setBit 0 bit true ∧ t.twin.lossAt = s.time.st) ∧ t.rails = s.rails ∧ t.time.st = s.time.st ∧ t.nvm = s.nvm ∧
      (s.twin.st = .shadow → t.twin.st = .taking ∧ t.twin.term = s.twin.term + 1) ∧
      (s.twin.st = .active → t.twin.st = (if bit = 3 ∧ s.twin.aliveIn = true then .taking else .solo) ∧ t.twin.term = (if bit = 3 ∧ s.twin.aliveIn = true then s.twin.term + 1 else s.twin.term)) ∧
      (s.twin.st = .detached → t.twin.st = (if bit = 0 ∨ bit = 2 then .taking else .detached)) ∧
      (s.twin.st = .joining → t.twin.st = .off ∧ t.twin.waiting = true) ∧
      (s.twin.st = .off ∨ s.twin.st = .solo ∨ s.twin.st = .taking → t.twin.st = s.twin.st ∧ { t with twin := s.twin } = s)) ∧
  (∀ (s : State), (s.time.st - s.twin.frameAt).toNat < 16000 → exec .linkLoss s = .next s) ∧
  (∀ (s : State), s.twin.st ≠ .taking ∨ s.twin.bidAt = none ∨ (∃ a, s.twin.bidAt = some a ∧ (s.time.st - a).toNat < 48000) → exec .bidResolve s = .next s) ∧
  (∀ (s : State) (r m : Nat) (a : DWord), s.twin.st = .taking → s.twin.bidAt = some a → 48000 ≤ (s.time.st - a).toNat → s.masterCount = (r, m) → (if s.port then r < 2 * m else r ≤ 2 * m) →
    ∃ t, exec .bidResolve s = .next t ∧ t.twin.st = (if s.twin.link = true ∧ (s.twin.peer = .shadow ∨ s.twin.yieldIn = true) then .active else .solo) ∧
      t.twin.term = s.twin.term ∧ (∀ p ∈ t.ops, p.tag < planTag → p.held = false) ∧ t.rails = s.rails) ∧
  (∀ (s : State) (r m : Nat) (a : DWord), s.twin.st = .taking → s.twin.bidAt = some a → 48000 ≤ (s.time.st - a).toNat → s.masterCount = (r, m) → ¬(if s.port then r < 2 * m else r ≤ 2 * m) → (∀ a ∈ s.ops, ∀ b ∈ s.ops, a.tag = b.tag → a = b) →
    ∃ t, exec .bidResolve s = .next t ∧ t.twin.st = .detached ∧ (∀ p ∈ s.ops, p.held = true → p.done = false → p.tag < planTag → t.noneLeft p.tag) ∧ t.rails = s.rails) ∧
  (∀ (s : State), s.pwr.st ≠ .off → ∃ t, exec .resetReqReceived s = .next t ∧ t.pwr.episode = true ∧ RstSrc.twin ∈ t.pwr.raised)

/-- R393, R396, R397: a stamp that does not pair leaves the link unpaired; other items count on a paired link only: a device that follows queues mirrored actions under their apply instants, takes in requests and the result of its twin's passes; a lane of the link that fails drops out of the count. R402: a realignment comes with the first lead boundary at least 20 us after the mismatch; it is counted, and clears the mismatch. R392: TWIN_ALIVE_OUT changes level with a stamp, 256 ns after its last change or later. Where the spec is silent it follows the model's log, entries 29, 39. -/
def Obligations.TwinLinkItems : Prop :=
  (∀ (s : State) (st : DWord) (ps : TwinState) (term : Word) (up : Byte) (port : Bool) (grade : BitVec 2) (proto : Byte),
    (grade == s.grade && proto == 0x01 && port != s.port) = false →
    exec (.dovetailFrame (.stamp st ps term up port grade proto)) s =
      .next { s with twin := { s.twin with link := false, dvUp := if s.twin.dvUp = 0 then 0xFF else s.twin.dvUp, aliveIn := true, reqIn := false, frameAt := s.time.st } }) ∧
  (∀ (s : State) (i : DvItem), (∀ a b c d e f g, i ≠ .stamp a b c d e f g) → s.twin.link = false →
    exec (.dovetailFrame i) s = .next { s with twin := { s.twin with frameAt := s.time.st, dvUp := if s.twin.dvUp = 0 then 0xFF else s.twin.dvUp } }) ∧
  (∀ (s : State), s.twin.dvUp ≠ 0 → s.twin.link = true → s.follows = true →
    (∀ d a, exec (.dovetailFrame (.railOp d a)) s = .next { s with twin := { s.twin with frameAt := s.time.st, applyQ := s.twin.applyQ ++ [(a, .peerOp d)] } }) ∧
    (∀ m v a, exec (.dovetailFrame (.rsp m v a)) s = .next { s with twin := { s.twin with frameAt := s.time.st, applyQ := s.twin.applyQ ++ [(a, .rsp m v)] } }) ∧
    (∀ g, exec (.dovetailFrame (.request g)) s = .next { s with twin := { s.twin with frameAt := s.time.st }, plan := { s.plan with reqs := s.plan.reqs ++ [g] } }) ∧
    (∀ r : PassResult, ∃ t, exec (.dovetailFrame (.passResult r)) s = .next t ∧ t.plan.nextStart = r.startSt ∧ t.plan.grants = r.grants ∧ t.plan.shed = r.shed ∧
      t.plan.reqs = (s.twin.taken ++ s.plan.reqs).filter (fun g => !r.outcomes.any fun k => k.1 == g.tag && k.2.1 == g.thread) ∧ t.rails = s.rails ∧ t.time = s.time ∧
      (r.carried = false → t.plan.next = some (r.slot, r.targets, r.grants) ∧ t.plan.nextAfterTrip = s.plan.shedActive ∧ t.plan.slotNow = s.plan.slotNow) ∧
      (r.carried = true → t.plan.next = none ∧ t.plan.slotNow = r.slot - 1 ∧ t.plan.carried = true ∧ t.plan.nextAfterTrip = s.plan.nextAfterTrip))) ∧
  (∀ (s : State) (i : Fin 8), exec (.dovetailLaneLoss i) s = .next { s with twin := { s.twin with dvUp := setBit s.twin.dvUp i false } }) ∧
  (∀ (s : State) (m : Fin 64), (∀ e ∈ s.twin.mism, e.1 = m.val → ¬(320000 ≤ ((s.rail m).leadAt - e.2).toNat ∧ ((s.rail m).leadAt - e.2).toNat < 2 ^ 63)) → exec (.realign m) s = .next s) ∧
  (∀ (s : State) (m : Fin 64) (a : DWord), (m.val, a) ∈ s.twin.mism → 320000 ≤ ((s.rail m).leadAt - a).toNat → ((s.rail m).leadAt - a).toNat < 2 ^ 63 →
    ∃ t, exec (.realign m) s = .next t ∧ (∀ e ∈ t.twin.mism, e.1 ≠ m.val) ∧ t.twin.realigns = satInc 0xFFFF s.twin.realigns ∧ t.twin.joinCount = 0 ∧ t.twin.st = s.twin.st ∧ t.rails = s.rails ∧
      (s.twin.st = .active → t.railMem = s.railMem ∧ t.drawerMem = s.drawerMem)) ∧
  (∀ (s : State) (a : DWord), s.twin.aliveAt = some a → (s.time.st - a).toNat < 4096 → exec .aliveToggle s = .next s) ∧
  (∀ (s : State), s.pwr.st = .starting ∨ s.pwr.st = .run ∨ s.pwr.st = .trim ∨ s.pwr.st = .park → (∀ a, s.twin.aliveAt = some a → 4096 ≤ (s.time.st - a).toNat) →
    ∃ t, exec .aliveToggle s = .next t ∧ t.twin = { s.twin with aliveOut := !s.twin.aliveOut, aliveAt := some s.time.st } ∧ Out.dovetail s.stampItem ∈ t.out ∧ { t with twin := s.twin, out := s.out } = s)

/-- R410, R413, R417: a TWIN command needs its key, and a host that reaches the registers; YIELD needs an aligned SHADOW, SOLO an OFF device without its link, DETACH a JOINING, SHADOW or DETACHED one, and one that may not run sets CMD_REJ and nothing else. R415: a PORT 0 device leads alone when its start wait ends, a PORT 1 device when a second one ends and its twin shows no life. R416: the steps of a join end in SHADOW, ALIGNED. R412: a new term is stored in NVM ring 2. Where the spec is silent it follows the model's log, entry 39. -/
def Obligations.TwinCommandsAndJoins : Prop :=
  (∀ (s : State) (key : Byte), key ≠ 0x5A → exec (.twinYield key) s = .next s ∧ exec (.twinSolo key) s = .next s ∧ exec (.twinDetach key) s = .next s) ∧
  (∀ (s : State) (key : Byte), s.ringsUp = false → exec (.twinYield key) s = .next s ∧ exec (.twinSolo key) s = .next s ∧ exec (.twinDetach key) s = .next s) ∧
  (∀ (s : State), s.ringsUp = true → (s.alignedTwin && s.twin.link) = false → exec (.twinYield 0x5A) s = .next { s with twin := { s.twin with cmdRej := true } }) ∧
  (∀ (s : State), s.ringsUp = true → (s.alignedTwin && s.twin.link) = true →
    ∃ t, exec (.twinYield 0x5A) s = .next t ∧ t.twin = { s.twin with yielded := true } ∧ Out.yieldMsg ∈ t.out ∧ { t with twin := s.twin, out := s.out } = s) ∧
  (∀ (s : State), s.ringsUp = true → s.twin.st ≠ .off ∨ s.twin.link = true ∨ s.pwr.st = .park → exec (.twinSolo 0x5A) s = .next { s with twin := { s.twin with cmdRej := true } }) ∧
  (∀ (s : State), s.ringsUp = true → s.twin.st = .off → s.twin.link = false → s.pwr.st ≠ .park →
    ∃ t, exec (.twinSolo 0x5A) s = .next t ∧ t.twin.st = .solo ∧ t.twin.term = s.storedTerm + 0x100 ∧ t.rails = s.rails ∧ t.time.st = s.time.st) ∧
  (∀ (s : State), s.ringsUp = true → s.twin.st ≠ .joining → s.twin.st ≠ .shadow → s.twin.st ≠ .detached → exec (.twinDetach 0x5A) s = .next { s with twin := { s.twin with cmdRej := true } }) ∧
  (∀ (s : State), s.ringsUp = true → s.twin.st = .joining ∨ s.twin.st = .shadow ∨ s.twin.st = .detached →
    ∃ t, exec (.twinDetach 0x5A) s = .next t ∧ t.twin.st = .off ∧ t.twin.waiting = false ∧ t.twin.applyQ = [] ∧ t.twin.term = s.twin.term ∧ t.rails = s.rails) ∧
  (∀ (s : State), s.twin.st ≠ .off ∨ s.twin.waiting = false ∨ s.twin.link = true ∨ 2 ≤ s.twin.waits ∨ (s.time.st - s.twin.waitAt).toNat < (s.twin.waits + 1) * s.startWait → exec .startWaitExpiry s = .next s) ∧
  (∀ (s : State), s.twin.st = .off → s.twin.waiting = true → s.twin.link = false → s.twin.waits < 2 → (s.twin.waits + 1) * s.startWait ≤ (s.time.st - s.twin.waitAt).toNat →
    (s.port = false ∨ (s.twin.waits ≠ 0 ∧ s.twin.aliveIn = false) → ∃ t, exec .startWaitExpiry s = .next t ∧ t.twin.st = .solo ∧ t.twin.term = s.storedTerm + 0x100 ∧ t.rails = s.rails) ∧
    (s.port = true → s.twin.waits = 0 → exec .startWaitExpiry s = .next { s with twin := { s.twin with waits := 1 } }) ∧
    (s.port = true → s.twin.waits ≠ 0 → s.twin.aliveIn = true → ∃ t, exec .startWaitExpiry s = .next t ∧ t.inner = { s with twin := { s.twin with waits := 2 } }.inner)) ∧
  (∀ (s : State), s.twin.st = .joining → s.twin.joinStep = 1 → exec .joinDigestMatch s = .next { s with twin := { s.twin with joinStep := 2 } }) ∧
  (∀ (s : State), s.twin.st = .joining → s.twin.joinStep = 3 → max 1 (fld (s.reg Reg.twinCfg) 15 8) ≤ s.twin.joinCount →
    ∃ t, exec .joinComplete s = .next t ∧ t.twin.st = .shadow ∧ t.twin.aligned = true ∧ t.rails = s.rails ∧ t.time = s.time) ∧
  (∀ (s : State), s.twin.term = s.storedTerm → exec .termStore s = .next s) ∧
  (∀ (s : State), s.twin.term ≠ s.storedTerm → s.nvm.job ≠ none →
    exec .termStore s = .next { s with nvm := { s.nvm with waitSup := s.nvm.waitSup ++ [(2, toLe 4 s.twin.term.toNat ++ toLe 8 s.twin.termAt.toNat)] } }) ∧
  (∀ (s : State), s.twin.term ≠ s.storedTerm → s.nvm.job = none → s.sup.brace = false → s.nvm.waitSup = [] →
    ∃ t, exec .termStore s = .next t ∧ t.nvm = { s.nvm with job := some { owner := .supervisor 2, page := ringPage 2 (s.nextSlot 2).1, data := slotMake (s.nextSlot 2).2 (toLe 4 s.twin.term.toNat ++ toLe 8 s.twin.termAt.toNat) } })

/-- R420: with the power good of the rail being raised the step delay runs, and at its end the lowest rail not yet enabled follows, or the sequence is complete and releases the POR. R422, R471: a rail that misses its time is noted and what is up goes down again, from the top, one rail at a time (R421); the retry raises them anew. A delay or timeout that has not passed changes nothing. R423, R424: a comparator's new reading is captured; a supervised rail that leaves its window raises BOR. R433: a self-test starts on one comparator at a time and ends with its result. Where the spec is silent it follows the model's log, entries 41, 54. -/
def Obligations.SupplySequencing : Prop :=
  (∀ (s : State), s.sup.seq = 1 → s.sup.seqGood = false → (s.wc (s.sup.seqRail - 1)).rd = .inside → exec .railPowerGood s = .next { s with sup := { s.sup with seqGood := true, seqAt := s.cycles } }) ∧
  (∀ (s : State) (k : Nat), s.sup.seq = 1 → s.sup.seqGood = true → s.passed s.sup.seqAt (1000 * fld (s.reg Reg.supSeqCfg) 7 0) = true → 2 ≤ k → k ≤ s.sup.target → k ≤ 12 → s.sup.en.getLsbD (k - 1) = false →
    (∀ j, 2 ≤ j → j < k → s.sup.en.getLsbD (j - 1) = true) →
    exec .stepDelayExpiry s = .next { s with sup := { s.sup with seqRail := k, seqGood := false, seqAt := s.cycles, en := setBit s.sup.en (k - 1) true } }) ∧
  (∀ (s : State), s.sup.seq ≠ 1 ∨ s.sup.seqGood = false ∨ s.passed s.sup.seqAt (1000 * fld (s.reg Reg.supSeqCfg) 7 0) = false → exec .stepDelayExpiry s = .next s) ∧
  (∀ (s : State), s.sup.seq = 1 → s.sup.seqGood = true → s.passed s.sup.seqAt (1000 * fld (s.reg Reg.supSeqCfg) 7 0) = true → s.pwr.st ≠ .sleep → (∀ j, 2 ≤ j → j ≤ 12 → j ≤ s.sup.target → s.sup.en.getLsbD (j - 1) = true) →
    ∃ t, exec .stepDelayExpiry s = .next t ∧ t.sup = { s.sup with seq := 2, seqGood := false } ∧ RstSrc.por ∉ t.pwr.held ∧ (s.sup.vinOk = true → RstSrc.bor ∉ t.pwr.held) ∧ { t with sup := s.sup, pwr := s.pwr } = s) ∧
  (∀ (s : State), s.sup.seq ≠ 1 ∨ s.sup.seqGood = true ∨ s.passed s.sup.seqAt (msCycles * max 1 (fld (s.reg Reg.supSeqCfg) 15 8)) = false → exec .sequenceFault s = .next s) ∧
  (∀ (s : State), s.sup.seq = 1 → s.sup.seqGood = false → s.passed s.sup.seqAt (msCycles * max 1 (fld (s.reg Reg.supSeqCfg) 15 8)) = true → s.pwr.st ≠ .sleep → 1 < s.sup.top →
    ∃ t, exec .sequenceFault s = .next t ∧ t.sup.firstFail = s.sup.seqRail ∧ t.pwr.retry = true ∧ t.pwr.stage = 1 ∧ t.sup.target = 1 ∧ t.sup.seq = 3 ∧ t.sup.seqRail = s.sup.top ∧
      t.sup.en = setBit s.sup.en (s.sup.top - 1) false ∧ t.nvm.mem = s.nvm.mem) ∧
  (∀ (s : State), s.sup.seq = 3 → s.sup.seqRail ≠ 1 → (s.wc (s.sup.seqRail - 1)).rd = .below ∨ s.passed s.sup.seqAt (10 * msCycles) = true → s.sup.target < s.sup.top →
    exec .railDown s = .next { s with sup := { s.sup with seqRail := s.sup.top, seqGood := false, seqAt := s.cycles, en := setBit s.sup.en (s.sup.top - 1) false } }) ∧
  (∀ (s : State), (s.wc (s.sup.seqRail - 1)).rd ≠ .below → s.passed s.sup.seqAt (10 * msCycles) = false → exec .railDown s = .next s) ∧
  (∀ (s : State), s.pwr.retry = false ∨ s.sup.seq ≠ 4 ∨ s.passed s.sup.seqAt (1000 * msCycles) = false → exec .sequenceFaultRetry s = .next s) ∧
  (∀ (s : State), s.pwr.retry = true → s.sup.seq = 4 → s.passed s.sup.seqAt (1000 * msCycles) = true → ∃ t, exec .sequenceFaultRetry s = .next t ∧ t.pwr.retry = false ∧ t.sup.target = (if s.pwr.st = .sleep then 12 else s.startTop) ∧ (t.sup.seq = 1 ∨ t.sup.seq = 2)) ∧
  (∀ (s : State) (i : Fin 16) (r : WcRead), (s.wc i).rd ≠ r → (s.wc i).stres ≠ 3 → s.supervised (i + 1) = false ∨ r = .inside → s.pwr.st ≠ .sleep →
    ∃ t, exec (.comparatorChange i r) s = .next t ∧ t.wc i = { s.wc i with rd := r, capt := s.time.st.setWidth 32 } ∧ (∀ k, k ≠ i.val → t.wc k = s.wc k) ∧ { t.inner with wcs := s.wcs } = s.inner) ∧
  (∀ (s : State) (i : Fin 16) (r : WcRead), (s.wc i).rd ≠ r → (s.wc i).stres ≠ 3 → s.supervised (i + 1) = true → r ≠ .inside → s.pwr.st ≠ .off → s.pwr.st ≠ .sleep →
    ∃ t, exec (.comparatorChange i r) s = .next t ∧ t.pwr.episode = true ∧ t.pwr.borDown = true ∧ RstSrc.bor ∈ t.pwr.raised) ∧
  (∀ (s : State) (p : Path) (v : Word), s.pathUp p = true → fld v 4 2 ≠ 0 →
    ∃ t, exec (.wcSelftest p v) s = .next t ∧
      t.wc (s.wcSel p) = (if 3 < fld v 4 2 then s.wc (s.wcSel p) else if s.wcs.any (fun e => e.1 != s.wcSel p && e.2.stres == 3) then { s.wc (s.wcSel p) with stbusy := true }
        else { s.wc (s.wcSel p) with stres := 3, test := fld v 4 2, testAt := s.cycles }) ∧
      (∀ k, k ≠ s.wcSel p → t.wc k = s.wc k)) ∧
  (∀ (s : State) (ok : Bool) (i : Nat) (w : Wc), s.wcs.find? (fun e => e.2.stres == 3) = some (i, w) →
    (s.passed w.testAt (10 * usCycles) = false → exec (.selftestDone ok) s = .next s) ∧ (s.passed w.testAt (10 * usCycles) = true → ∃ t, exec (.selftestDone ok) s = .next t ∧ t.wc i = { w with stres := if ok then 1 else 2, test := 0 } ∧ (∀ k, k ≠ i → t.wc k = s.wc k) ∧ { t.inner with wcs := s.wcs } = s.inner)) ∧
  (∀ (s : State) (p : Path) (v : Word), s.pathUp p = false → exec (.wcSelftest p v) s = .next s)

/-- R425 to R427: VIN below VIN_WARN begins the brace, which snapshots what is in window and stops NVM programs from starting; it ends 100 us after the dip; VIN below VIN_RESET raises BOR. R434 to R437: a housekeeping round starts by its mode and at its time, a trigger inside a round is dropped and counted, and its end stores every entry's result with the round's number. R439 to R441: a temperature block stores the readings; a requested throttle is enforced at the end of its grace time only. R443: a THERM trip raises its reset, and its source holds until it clears. Where the spec is silent it follows the model's log, entries 41, 54. -/
def Obligations.SupplyAndHousekeeping : Prop :=
  (∀ (s : State) (mv : BitVec 12), s.sup.brace = false → fld (s.reg Reg.supVinCfg) 27 16 ≠ 0 → mv.toNat < fld (s.reg Reg.supVinCfg) 11 0 →
    ∃ t, exec (.braceStart mv) s = .next t ∧ t.sup = { s.sup with vin := mv.toNat, vinMin := some (min mv.toNat (s.sup.vinMin.getD mv.toNat)), vinMinRec := some (min mv.toNat (s.sup.vinMinRec.getD mv.toNat)), brace := true, braceAt := s.cycles, vinOk := false, snap := BitVec.ofNat 12 s.inWin } ∧ { t.inner with sup := s.sup } = s.inner) ∧
  (∀ (s : State), s.sup.brace = false ∨ s.sup.vinOk = false ∨ s.passed s.sup.vinOkAt (98 * usCycles) = false → exec .braceEnd s = .next s) ∧
  (∀ (s : State), s.sup.brace = true → s.sup.vinOk = true → s.passed s.sup.vinOkAt (98 * usCycles) = true → ∃ t, exec .braceEnd s = .next t ∧ t.sup.brace = false ∧ t.sup.dipOff = false ∧ t.nvm.mem = s.nvm.mem ∧ t.pwr = s.pwr ∧ t.time = s.time) ∧
  (∀ (s : State) (mv : BitVec 12), mv.toNat < fld (s.reg Reg.supVinCfg) 27 16 → s.pwr.st ≠ .off →
    ∃ t, exec (.vinReset mv) s = .next t ∧ t.pwr.episode = true ∧ t.pwr.borDown = true ∧ RstSrc.bor ∈ t.pwr.raised) ∧
  (∀ (s : State) (mv : BitVec 12), fld (s.reg Reg.supVinCfg) 27 16 ≤ mv.toNat → exec (.vinReset mv) s = .next s) ∧
  (∀ (s : State), exec .vinsAboveVinWarn s = .next { s with
    sup := { s.sup with vinOk := true, vinOkAt := if s.sup.vinOk then s.sup.vinOkAt else s.cycles, dipOff := s.sup.dipOff && s.sup.brace },
    pwr := if s.sup.seq = 2 ∨ (s.pwr.offNext = true ∧ s.sup.seq = 0) then { s.pwr with held := s.pwr.held.filter (· != .bor), relAt := if s.pwr.held.contains .bor then s.cycles else s.pwr.relAt } else s.pwr }) ∧
  (∀ (s : State), s.hkMode = 1 → exec .hkRoundStart s = .next (if s.sup.hkBusy = false ∧ s.sup.hkTempDue = false ∧ s.passed s.sup.hkAt s.hkPeriod = true
    then { s with sup := { s.sup with hkBusy := true, hkLate := false, hkAt := s.cycles } } else s)) ∧
  (∀ (s : State) (a : Nat) (rest : List Nat), s.hkMode = 2 ∨ s.hkMode = 3 → s.sup.hkDue = a :: rest → s.passed a 0 = true →
    exec .hkRoundStart s = .next { s with sup := (if s.sup.hkBusy then { s.sup with hkDue := rest, hkOverrun := satInc 0xFFFF s.sup.hkOverrun }
        else if s.sup.hkTempDue then { s.sup with hkDue := rest, hkLate := true } else { s.sup with hkDue := rest, hkBusy := true, hkLate := false, hkAt := s.cycles }) }) ∧
  (∀ (s : State), s.hkMode = 0 ∨ (s.hkMode ≠ 1 ∧ (∀ a ∈ s.sup.hkDue.head?, s.passed a 0 = false)) → exec .hkRoundStart s = .next s) ∧
  (∀ (s : State) (codes : List (BitVec 12)), s.sup.hkBusy = false ∨ s.passed s.sup.hkAt s.hkLen = false → exec (.hkRoundEnd codes) s = .next s) ∧
  (∀ (s : State) (codes : List (BitVec 12)), s.sup.hkBusy = true → s.passed s.sup.hkAt s.hkLen = true →
    ∃ t, exec (.hkRoundEnd codes) s = .next t ∧ t.sup.hkBusy = false ∧ t.sup.hkRound = s.sup.hkRound + 1 ∧ { t with sup := s.sup } = s ∧
      (∀ n, n < 16 → n ≤ fld (s.reg Reg.supHkCtl) 27 24 → fld (s.reg (Reg.supHkSeq + 4 * n)) 13 8 ≤ 0x22 → n < codes.length →
        tabGet (fun _ => 0) t.sup.hkRes n = BitVec.ofNat 32 (2 ^ 31 + 2 ^ 30 * b2n s.sup.hkLate + 65536 * (s.sup.hkRound + 1).toNat + (codes.getD n 0).toNat))) ∧
  (∀ (s : State) (l : List (Option (BitVec 16))), s.tempDue = false → exec (.tempBlock l) s = .next s) ∧
  (∀ (s : State) (l : List (Option (BitVec 16))), s.tempDue = true → s.sup.hkBusy = true → exec (.tempBlock l) s = .next { s with sup := { s.sup with hkTempDue := true } }) ∧
  (∀ (s : State) (l : List (Option (BitVec 16))), s.tempDue = true → s.sup.hkBusy = false →
    ∃ t, exec (.tempBlock l) s = .next t ∧ t.sup.hkTempDue = false ∧ t.sup.hkBusy = s.sup.hkLate ∧ { t.plant with sup := s.sup } = s.plant ∧
      (∀ k x, k < 4 → l.getD k none = some x → s.tsOn k = true → tabGet (fun _ => 0) t.sup.temps k = BitVec.ofNat 32 (2 ^ 31 + x.toNat)) ∧
      (t.sup.bulk = .enforced → s.sup.bulk = .enforced) ∧ (t.sup.ana = .enforced → s.sup.ana = .enforced)) ∧
  (∀ (s : State) (c : ThrClass), s.thrt c ≠ .requested ∨ s.passed (s.thrtAt c) (msCycles * max 1 (fld (s.reg Reg.supThrCfg) 15 0)) = false → exec (.throttleEnforce c) s = .next s) ∧
  (∀ (s : State) (c : ThrClass), s.thrt c = .requested → s.passed (s.thrtAt c) (msCycles * max 1 (fld (s.reg Reg.supThrCfg) 15 0)) = true →
    ∃ t, exec (.throttleEnforce c) s = .next t ∧ t.sup = (match c with | .bulk => { s.sup with bulk := .enforced, bulkAt := s.cycles } | .analytics => { s.sup with ana := .enforced, anaAt := s.cycles }) ∧
      { t.plant with sup := s.sup } = s.plant) ∧
  (∀ (s : State), s.pwr.st ≠ .off → RstSrc.therm ∉ s.pwr.held → ∃ t, exec .thermTrip s = .next t ∧ t.pwr.episode = true ∧ RstSrc.therm ∈ t.pwr.raised) ∧
  (∀ (s : State), exec .thermClear s = .next { s with pwr := { s.pwr with held := s.pwr.held.filter (· != .therm), relAt := if s.pwr.held.contains .therm then s.cycles else s.pwr.relAt } })

/-- R446: each second the calendar goes on by one second, minutes, hours, days, months and years following, with 29 days in February of a year that 4 divides. A second that has not passed since the last one, or since the write of SEC that began it, changes nothing. R444: a write out of range sets REJ and changes nothing. R445: the first read of a path freezes its copy of the calendar, the read of YEAR or 2 ms without one releases it. R447: a stop of the oscillator or a power-up of the backup domain sets OSF. R449 to R453: enabling the watchdog starts it, for good; the two keys within 1 ms kick it, any other value counts as bad; its warning is noted, once after each kick; its expiry, when TIMEOUT can have passed since the kick, starts the WDX pulse and raises the WDT reset, in OFF the pulse alone. R454 to R457: a short press is noted, and starts a device in OFF; a press of 4 s forces the device off; one of 12 s lays it up: BATSW pulses and the LAYUP reset leads into OFF; its source is released when the pulse is over and the button is up. Where the spec is silent it follows the model's log, entries 12, 41, 54. -/
def Obligations.ClockWatchdogAndButton : Prop :=
  (
  (∀ (s : State), s.passed s.sup.rtcAt (999 * msCycles) = false → exec .rtcSecond s = .next s) ∧
  (∀ (s : State) (se mi ho da mo ye len : Nat), s.passed s.sup.rtcAt (999 * msCycles) = true → len = (if mo = 4 ∨ mo = 6 ∨ mo = 9 ∨ mo = 11 then 30 else if mo = 2 then (if ye % 4 = 0 then 29 else 28) else 31) →
    se < 60 → mi < 60 → ho < 24 → 1 ≤ da → da ≤ len → 1 ≤ mo → mo ≤ 12 → ye < 100 →
    s.rtc 0 = bcdOf se → s.rtc 1 = bcdOf mi → s.rtc 2 = bcdOf ho → s.rtc 3 = bcdOf da → s.rtc 4 = bcdOf mo → s.rtc 5 = bcdOf ye →
    ∃ t, exec .rtcSecond s = .next t ∧ t.rtc 0 = bcdOf (if se = 59 then 0 else se + 1) ∧ t.rtc 1 = bcdOf (if se < 59 then mi else if mi = 59 then 0 else mi + 1) ∧
      t.rtc 2 = bcdOf (if se < 59 ∨ mi < 59 then ho else if ho = 23 then 0 else ho + 1) ∧
      t.rtc 3 = bcdOf (if se < 59 ∨ mi < 59 ∨ ho < 23 then da else if da = len then 1 else da + 1) ∧
      t.rtc 4 = bcdOf (if se < 59 ∨ mi < 59 ∨ ho < 23 ∨ da < len then mo else if mo = 12 then 1 else mo + 1) ∧
      t.rtc 5 = bcdOf (if se < 59 ∨ mi < 59 ∨ ho < 23 ∨ da < len ∨ mo < 12 then ye else if ye = 99 then 0 else ye + 1) ∧ { t with sup := s.sup } = s) ∧
  (∀ (s : State) (p : Path) (i : Nat) (v : Word), s.pathUp p = true → i < 6 →
    ∃ t, exec (.rtcWrite p (Reg.supRtcSec + 4 * i) v) s = .next t ∧
      (if rtcOk i (v.setWidth 8) then t.rtc i = v.setWidth 8 ∧ (∀ k, k ≠ i → t.rtc k = s.rtc k) ∧ t.sup.rtcRej = s.sup.rtcRej ∧ t.sup.rtcAt = (if i = 0 then s.cycles else s.sup.rtcAt) else t.sup = { s.sup with rtcRej := true }) ∧ { t with sup := s.sup } = s) ∧
  (∀ (s : State) (i : Nat), s.pathUp .bar0 = true → i < 6 →
    exec (.rtcRead .bar0 (Reg.supRtcSec + 4 * i)) s = .next { s with host := { s.host with rdata := (tabGet (fun _ => (0 : Byte)) (s.sup.shBar.getD s.sup.rtc) i).setWidth 32 }, sup := { s.sup with shBarAt := if s.sup.shBar.isSome then s.sup.shBarAt else s.cycles, shBar := if i = 5 then none else some (s.sup.shBar.getD s.sup.rtc) } }) ∧
  (∀ (s : State), exec (.rtcShadowExpiry .bar0) s = .next (if s.passed s.sup.shBarAt (2 * msCycles) then { s with sup := { s.sup with shBar := none } } else s) ∧
    exec (.rtcShadowExpiry .twowire) s = .next (if s.passed s.sup.shTwAt (2 * msCycles) then { s with sup := { s.sup with shTw := none } } else s) ∧ exec (.rtcShadowExpiry .firmware) s = .next s) ∧
  (∀ (s : State), ∃ t, exec .oscStop s = .next t ∧ t.sup = { s.sup with osf := true } ∧ { t.inner with sup := s.sup } = s.inner) ∧
  (∀ (s : State), ∃ t, exec .backupDomainPowerUp s = .next t ∧ t.sup.osf = true ∧ t.sup.rtcRej = false ∧ t.sup.shBar = none ∧ t.sup.shTw = none ∧ t.reg Reg.supRtcCtl 0 = 0 ∧ t.pwr = s.pwr ∧ t.nvm = s.nvm ∧ t.time = s.time) ∧
  (∀ (s : State) (off : Nat) (v : Word), s.pathUp .bar0 = false → exec (.rtcWrite .bar0 off v) s = .next s ∧ exec (.rtcRead .bar0 off) s = .next { s with host := { s.host with rdata := 0 } })) ∧
  (
  (∀ (s : State) (v : Word), ∃ t, exec (.wdtEnable v) s = .next t ∧ t.sup.wdtRun = (s.sup.wdtRun || wbit v 31) ∧
    t.reg Reg.supWdtCtl 0 = (mergeBits (if s.sup.wdtRun then 0x30000000 else 0x3000FFFF) (s.reg Reg.supWdtCtl) v ||| (v &&& 0x80000000)) ∧
    (wbit v 31 = true → s.sup.wdtRun = false → t.sup.wdtSince = s.cycles) ∧ t.pwr = s.pwr ∧ t.time = s.time ∧ t.nvm = s.nvm) ∧
  (∀ (s : State) (v : Word), v.toNat % 65536 = 0xA5C3 → exec (.wdtKickWrite v) s = .next { s with sup := { s.sup with wdtKeyAt := some s.cycles } }) ∧
  (∀ (s : State) (v : Word) (a : Nat), v.toNat % 65536 = 0x3C5A → s.sup.wdtKeyAt = some a → s.cycles ≤ a + msCycles →
    ∃ t, exec (.wdtKickWrite v) s = .next t ∧ t.sup.wdtSince = s.cycles ∧ t.sup.badKey = s.sup.badKey ∧ t.sup.wdtKeyAt = none ∧ { t with sup := s.sup } = s) ∧
  (∀ (s : State) (v : Word), v.toNat % 65536 ≠ 0xA5C3 → v.toNat % 65536 ≠ 0x3C5A ∨ (∀ a, s.sup.wdtKeyAt = some a → a + msCycles < s.cycles) →
    exec (.wdtKickWrite v) s = .next { s with sup := { s.sup with wdtKeyAt := none, badKey := satInc 255 s.sup.badKey } }) ∧
  (∀ (s : State), s.sup.wdtRun = false ∨ s.loaderKicks = true ∨ fld (s.reg Reg.supWdtCtl) 29 28 = 3 ∨ s.sup.wdtSaid = true ∨ s.passed s.sup.wdtSince s.warnAt = false → exec .wdtWarning s = .next s) ∧
  (∀ (s : State), s.sup.wdtRun = false ∨ s.loaderKicks = true ∨ s.passed s.sup.wdtSince (90000 * s.wdtTimeout) = false → exec .wdtExpiry s = .next s) ∧
  (∀ (s : State), s.sup.wdtRun = true → s.loaderKicks = false → fld (s.reg Reg.supWdtCtl) 29 28 ≠ 3 → s.sup.wdtSaid = false → s.passed s.sup.wdtSince s.warnAt = true → s.pwr.st ≠ .sleep →
    ∃ t, exec .wdtWarning s = .next t ∧ t.sup = { s.sup with warned := true, wdtSaid := true } ∧ { t.plant with sup := s.sup } = s.plant) ∧
  (∀ (s : State), s.sup.wdtRun = true → s.loaderKicks = false → s.passed s.sup.wdtSince (90000 * s.wdtTimeout) = true → s.pwr.st ≠ .off → ∃ t, exec .wdtExpiry s = .next t ∧ t.sup.wdx = true ∧ t.pwr.episode = true ∧ RstSrc.wdt ∈ t.pwr.raised) ∧
  (∀ (s : State), s.sup.wdtRun = true → s.loaderKicks = false → s.passed s.sup.wdtSince (90000 * s.wdtTimeout) = true → s.pwr.st = .off → ∃ t, exec .wdtExpiry s = .next t ∧ t.sup.wdx = true ∧ t.sup.wdtOffLogged = true ∧ t.pwr = s.pwr) ∧
  (∀ (s : State), exec .wdxPulseEnd s = .next (if s.sup.wdx = true ∧ s.passed s.sup.wdxAt (9 * msCycles) = true then { s with sup := { s.sup with wdx := false }, pwr := { s.pwr with held := s.pwr.held.filter (· != .wdt), relAt := if s.pwr.held.contains .wdt then s.cycles else s.pwr.relAt } } else s)) ∧
  (∀ (s : State) (ms : Nat), ms < 50 ∨ 4000 ≤ ms → exec (.pbShortPress ms) s = .next s) ∧
  (∀ (s : State) (ms : Nat), 50 ≤ ms → ms < 4000 → s.pwr.st ≠ .off → s.pwr.st ≠ .sleep →
    ∃ t, exec (.pbShortPress ms) s = .next t ∧ t.sup = { s.sup with short := true, pressed := false, pbHeld := min 0xFFFF (ms / 100) } ∧ { t.inner with sup := s.sup } = s.inner) ∧
  (∀ (s : State) (ms : Nat), 50 ≤ ms → ms < 4000 → s.pwr.st = .off → ∃ t, exec (.pbShortPress ms) s = .next t ∧ t.pwr.st = .reset ∧ t.pwr.offNext = false ∧ t.sup.short = true ∧ (t.sup.target = 7 ∨ t.sup.target = 12)) ∧
  (∀ (s : State), s.pwr.st ≠ .off → ∃ t, exec .pbForceOff s = .next t ∧ t.pwr.offNext = true ∧ t.sup.forced = true ∧ t.sup.pressed = true ∧ t.sup.pbHeld = 40) ∧
  (∀ (s : State), s.pwr.st = .off → exec .pbForceOff s = .next { s with sup := { s.sup with pressed := true, pressAt := s.cycles, pbHeld := 40 } }) ∧
  (∀ (s : State), s.sup.pressed = true → s.passed s.sup.pressAt (8000 * msCycles) = false → exec .pbLayup s = .next s) ∧
  (∀ (s : State), s.sup.pressed = false ∨ s.passed s.sup.pressAt (8000 * msCycles) = true → ∃ t, exec .pbLayup s = .next t ∧ t.pwr.offNext = true ∧ t.pwr.episode = true ∧ RstSrc.layup ∈ t.pwr.raised ∧ t.sup.batsw = true ∧ t.sup.pressed = true ∧ t.sup.pbHeld = 120) ∧
  (∀ (s : State), exec .batswPulseEnd s = .next (if s.sup.batsw = true ∧ s.passed s.sup.batswAt (2000 * msCycles) = true then { s with sup := { s.sup with batsw := false }, pwr := if s.sup.pressed then s.pwr else { s.pwr with held := s.pwr.held.filter (· != .layup), relAt := if s.pwr.held.contains .layup then s.cycles else s.pwr.relAt } } else s)) ∧
  (∀ (s : State) (ms : Nat), s.pwr.st ≠ .off ∨ s.sup.forced = true ∨ ms < 50 ∨ 12000 ≤ ms →
    exec (.pbNRelease ms) s = .next { s with sup := { s.sup with pressed := false, pbHeld := min 0xFFFF (ms / 100), forced := false }, pwr := if s.sup.batsw then s.pwr else { s.pwr with held := s.pwr.held.filter (· != .layup), relAt := if s.pwr.held.contains .layup then s.cycles else s.pwr.relAt } }) ∧
  (∀ (s : State) (ms : Nat), s.pwr.st = .off → s.sup.forced = false → 50 ≤ ms → ms < 12000 →
    ∃ t, exec (.pbNRelease ms) s = .next t ∧ t.pwr.st = .reset ∧ t.sup.pressed = false ∧ (t.sup.target = 7 ∨ t.sup.target = 12)))

/-- R462, R463: MR_N low, a core mismatch and a die-link fault raise their sources, which release when they end, TWIN, HOST and SAFETY after 1 us. R464: VSUP leaving its window ends everything but what the backup domain and the NVM hold, and POR stays raised until it returns and the supplies come up. R411: 4 us after the YIELD the reset takes hold: every die but the supervisor's loses what it holds, registers read their reset values, while ST goes on. R465, R466: an episode ends 1 ms after the last source has released it: into OFF when that was asked for, else into STARTING, or BASTING. Where the spec is silent it follows the model's log, entries 42, 54. -/
def Obligations.ResetsTakeHoldAndRelease : Prop :=
  (∀ (s : State), s.pwr.st ≠ .off → ∃ t, exec .mrAssert s = .next t ∧ t.sup.mr = true ∧ t.pwr.episode = true ∧ RstSrc.mrN ∈ t.pwr.raised) ∧
  (∀ (s : State), s.pwr.st = .off → exec .mrAssert s = .next { s with sup := { s.sup with mr := true } }) ∧
  (∀ (s : State), exec .mrRelease s = .next { s with sup := { s.sup with mr := false }, pwr := { s.pwr with held := s.pwr.held.filter (· != .mrN), relAt := if s.pwr.held.contains .mrN then s.cycles else s.pwr.relAt } }) ∧
  (∀ (s : State), s.coresRun = true → (∃ t, exec .lockstepMismatch s = .next t ∧ t.pwr.episode = true ∧ RstSrc.safety ∈ t.pwr.raised) ∧
    (s.pwr.st ≠ .basting → ∃ t, exec .dieLinkFault s = .next t ∧ t.pwr.episode = true ∧ RstSrc.safety ∈ t.pwr.raised)) ∧
  (∀ (s : State), s.nvm.job = none →
    ∃ t, exec (.por false) s = .next t ∧ t.pwr.held = (if s.sup.mr then [.por, .mrN] else [.por]) ∧ t.lanes = [] ∧ t.engines = [] ∧ t.rails = [] ∧ t.threads = [] ∧ t.rings = [] ∧
      t.ops = [] ∧ t.time = {} ∧ t.sup.rtc = s.sup.rtc ∧ t.sup.osf = s.sup.osf ∧ t.sup.seq = 0 ∧ t.nvm.mem = s.nvm.mem ∧ t.pending = s.pending) ∧
  (∀ (s : State), RstSrc.por ∈ s.pwr.held → s.sup.seq = 0 → ∃ t, exec (.por true) s = .next t ∧ t.sup.target = s.startTop ∧ (t.sup.seq = 1 ∨ t.sup.seq = 2)) ∧
  (∀ (s : State), s.pwr.yielding = false ∨ s.passed s.pwr.yieldAt (4 * usCycles) = false → exec .resetTakeHold s = .next s) ∧
  (∀ (s : State), s.pwr.yielding = true → s.passed s.pwr.yieldAt (4 * usCycles) = true → s.pwr.offNext = false →
    ∃ t, exec .resetTakeHold s = .next t ∧ t.pwr.taken = true ∧ t.pwr.yielding = false ∧ t.pwr.raised = s.pwr.raised ∧ t.pwr.held = s.pwr.held ∧
      t.lanes = [] ∧ t.engines = [] ∧ t.rails = [] ∧ t.threads = [] ∧ t.ops = [] ∧ t.time = { st := s.time.st } ∧ t.nvm.mem = s.nvm.mem ∧ t.sup.rtc = s.sup.rtc ∧
      (∀ off ix, regKey off ix ≠ regKey Reg.supRtcCtl 0 → t.reg off ix = regDefault (regKey off ix))) ∧
  (∀ (s : State), s.pwr.held ≠ [] ∨ s.passed s.pwr.relAt msCycles = false → exec .resetRelease s = .next s) ∧
  (∀ (s : State), s.pwr.episode = true → s.pwr.taken = true → s.pwr.held = [] → s.passed s.pwr.relAt msCycles = true → s.pwr.offNext = true → s.sup.top = 1 →
    ∃ t, exec .resetRelease s = .next t ∧ t.pwr.st = .off ∧ t.pwr.episode = false ∧ t.pwr.raised = [] ∧ { t with pwr := s.pwr } = s) ∧
  (∀ (s : State), s.pwr.episode = true → s.pwr.taken = true → s.pwr.held = [] → s.passed s.pwr.relAt msCycles = true → s.pwr.offNext = false → s.sup.seq = 2 →
    ∃ t, exec .resetRelease s = .next t ∧ t.pwr.episode = false ∧ t.pwr.raised = [] ∧ t.time = {} ∧ t.sup.boot = s.bootCount + 1 ∧
      t.pwr.st = (if 3 ≤ s.startFails ∨ t.nvm.lc = .void ∨ s.grade = 3 then .basting else .starting)) ∧
  (∀ (s : State) (src : RstSrc), src = .twin ∨ src = .host ∨ src = .safety →
    exec (.resetSourceHoldEnd src) s = .next (if (∀ e ∈ s.pwr.raisedAt, e.1 = src → s.passed e.2 usCycles = true) then { s with pwr := { s.pwr with held := s.pwr.held.filter (· != src), relAt := if s.pwr.held.contains src then s.cycles else s.pwr.relAt } } else s)) ∧
  (∀ (s : State), s.pwr.borDown = false ∨ s.passed s.sup.seqAt (10 * msCycles) = false → exec .borHoldDownExpiry s = .next s) ∧
  (∀ (s : State), s.pwr.borDown = true → s.sup.seq = 3 → s.sup.seqRail = 1 → s.passed s.sup.seqAt (10 * msCycles) = true →
    ∃ t, exec .borHoldDownExpiry s = .next t ∧ t.pwr.borDown = false ∧ (s.pwr.offNext = true → t.sup.seq = 0 ∧ (s.sup.vinOk = true → RstSrc.bor ∉ t.pwr.held)) ∧
      (s.pwr.offNext = false → (t.sup.seq = 1 ∨ t.sup.seq = 2) ∧ (t.sup.target = 7 ∨ t.sup.target = 12)))

/-- R469: in STARTING, once its start record is written, the first firmware bank that verifies runs and opens the rings, or the start fails; the start steps follow one another, the last of them training every enabled lane; when each is READY or FAULT the device is in RUN, READY is recorded and the twin logic begins (R415). R471: 5 s without that, or a failed step, is a failed start: it sets START_TO and the stage and raises SAFETY; R473: 60 s in RUN or TRIM clear the count. R480: an alarm whose time ST has reached wakes a sleeping device, and the wake ends in PARK. R490: PWR_CTL commands need their key and what they act on. Where the spec is silent it follows the model's log, entries 31, 40, 42, 54. -/
def Obligations.StartAndWake : Prop :=
  (∀ (s : State), s.pwr.st ≠ .starting ∨ s.host.ready = true ∨ s.sup.seq ≠ 2 ∨ s.supWrites = true → exec .firmwareLoadDone s = .next s) ∧
  (∀ (s : State), s.pwr.st = .starting → s.host.ready = false → s.sup.seq = 2 → s.supWrites = false →
    ∃ t, exec .firmwareLoadDone s = .next t ∧
      (match s.bankOrder.find? s.bankRuns with
        | none => t.host.ready = false ∧ t.pwr.startTo = true ∧ t.pwr.stage = 2 ∧ RstSrc.safety ∈ t.pwr.raised
        | some b => t.host = { s.host with ready := true } ∧ t.sec.bank = b ∧ t.pwr.st = .starting ∧ t.lanes = s.lanes ∧ t.time = s.time)) ∧
  (∀ (s : State), s.pwr.st = .starting → s.host.ready = true → s.pwr.step < 3 →
    (∃ t, exec (.startStepDone false) s = .next t ∧ t.pwr.startTo = true ∧ t.pwr.stage = 3 + s.pwr.step ∧ RstSrc.safety ∈ t.pwr.raised) ∧
    (∃ t, exec (.startStepDone true) s = .next t ∧ t.pwr = { s.pwr with step := s.pwr.step + 1 } ∧ t.time = s.time ∧ t.nvm = s.nvm ∧
      (s.pwr.step = 2 → ∀ n, n < 1024 → s.laneOk n = true → wbit (s.reg Reg.linkLaneCtl n) 0 = true → (s.lane n).silenced = false → (t.lane n).st = .locking))) ∧
  (∀ (s : State), s.pwr.st = .starting → s.pwr.step = 3 → (∀ e ∈ s.lanes, e.2.st.training = false) →
    ∃ t, exec .runReady s = .next t ∧ t.pwr.st = .run ∧ t.pwr.ready = true ∧ t.sup.newLogs = [] ∧ (s.twin.st = .off → t.twin.waiting = true ∧ t.twin.term = s.storedTerm) ∧ t.lanes = s.lanes ∧ t.rails = s.rails ∧ t.time = s.time) ∧
  (∀ (s : State), s.pwr.st = .starting → s.passed s.pwr.startAt (5000 * msCycles) = true → ∃ t, exec .startTimeout s = .next t ∧ t.pwr.startTo = true ∧ RstSrc.safety ∈ t.pwr.raised ∧ t.pwr.stage = (if s.host.ready then min 5 (3 + s.pwr.step) else 2)) ∧
  (∀ (s : State), s.pwr.st ≠ .starting ∨ s.passed s.pwr.startAt (5000 * msCycles) = false → exec .startTimeout s = .next s) ∧
  (∀ (s : State), s.passed s.pwr.runAt (60000 * msCycles) = false → exec .failedStartClear s = .next s) ∧
  (∀ (s : State), s.reached s.wakeSt = false → exec .stAlarm s = .next s) ∧
  (∀ (s : State), s.pwr.st = .run ∨ s.pwr.st = .trim → s.passed s.pwr.runAt (60000 * msCycles) = true → ∃ t, exec .failedStartClear s = .next t ∧ t.pwr = { s.pwr with fails := 0 } ∧ t.time = s.time ∧ t.nvm.mem = s.nvm.mem) ∧
  (∀ (s : State), s.pwr.st = .sleep → s.pwr.stAlarm = true → s.reached s.wakeSt = true → wbit (s.reg Reg.supWakeCfg) 0 = true → s.pwr.wakeUp = false → (∃ k, 2 ≤ k ∧ k ≤ 12 ∧ s.sup.en.getLsbD (k - 1) = false) →
    ∃ t, exec .stAlarm s = .next t ∧ t.pwr.wakeUp = true ∧ t.pwr.wakeCause = 5 ∧ t.pwr.stAlarm = false ∧ t.pwr.st = .sleep) ∧
  (∀ (s : State), s.pwr.st = .sleep → s.pwr.wakeUp = true → s.sup.seq = 2 → (∀ e ∈ s.lanes, e.2.st.training = false) → (∃ e ∈ s.lanes, e.2.st ≠ .off) →
    ∃ t, exec .wakeComplete s = .next t ∧ t.pwr.st = .park ∧ t.pwr.wakeUp = false ∧ t.host.ready = true ∧ t.time.st = s.time.st ∧
      (∀ k, k < 16 → (s.thr k).st = .frozen → (t.thr k).st = (s.thr k).frozenFrom) ∧ (∀ k, k < 16 → (s.thr k).st ≠ .frozen → (t.thr k).st = (s.thr k).st)) ∧
  (∀ (s : State) (key : Byte), key ≠ 0x5A → exec (.pwrOffCmd key) s = .next s ∧ exec (.pwrTwinReset key) s = .next s) ∧
  (∀ (s : State), s.pwr.st = .off → exec (.pwrOffCmd 0x5A) s = .next { s with pwr := { s.pwr with rej := true } }) ∧
  (∀ (s : State), s.pwr.st ≠ .off → ∃ t, exec (.pwrOffCmd 0x5A) s = .next t ∧ t.pwr.offNext = true) ∧
  (∀ (s : State), exec (.pwrTwinReset 0x5A) s = .next (if s.roleActs ∧ s.twin.link = true ∧ s.twin.peer ≠ .active ∧ s.twin.peer ≠ .solo ∧ s.twin.peer ≠ .taking
    then s.emit .resetReq else { s with pwr := { s.pwr with rej := true } }))

/-- R522: an NVM command without its key, or of a host that does not reach the registers, does nothing, and one that is not allowed sets REJ. R507, R508: SEAL_LOCK, the password of SET_PWD with its fuse, UNLOCK and RELOCK. R513, R514: a row's programming adds the word's bits to it, first the fuses that wait and then the rows of the transition, which completes OK when its last row is in place. R510: a row read shows the row, and never the password. R504 to R506: the two-wire port's read and program of a page; that both set ERR while VNV is not in its window is the model's choice (log entry 17). Where the spec is silent it follows the model's log, entries 18, 43. -/
def Obligations.NvmCommandsAndOtp : Prop :=
  (∀ (s : State) (k : Byte), k ≠ 0x5A → exec (.sealLock k) s = .next s ∧ exec (.setPwd k) s = .next s ∧ exec (.unlock k) s = .next s ∧ exec (.relock k) s = .next s) ∧
  (∀ (s : State) (k : Byte) (v : Word), s.ringsUp = false → exec (.sealLock k) s = .next s ∧ exec (.setPwd k) s = .next s ∧ exec (.unlock k) s = .next s ∧ exec (.relock k) s = .next s ∧ exec (.otpRowRead v) s = .next s) ∧
  (∀ (s : State), s.ringsUp = true → exec (.sealLock 0x5A) s = .next (if s.grade = 0 ∧ (s.nvm.lc = .integration ∨ s.nvm.lc = .sealed) then { s with nvm := { s.nvm with fuseJob := s.nvm.fuseJob ++ [(0x0C, 2)] } } else { s with nvm := { s.nvm with rej := true } })) ∧
  (∀ (s : State), s.ringsUp = true → exec (.setPwd 0x5A) s = .next (if s.grade ≠ 0 ∧ (s.otpRead 0x0C).getLsbD 2 = false
      then { s with nvm := { s.nvm with fuseJob := s.nvm.fuseJob ++ [(0x10, s.pwdWord 0), (0x11, s.pwdWord 1), (0x0C, 4)] } } else { s with nvm := { s.nvm with rej := true } })) ∧
  (∀ (s : State), s.ringsUp = true → exec (.unlock 0x5A) s = .next (
    if s.grade = 0 ∨ 8 ≤ s.nvm.fails then { s with nvm := { s.nvm with rej := true } }
    else if s.pwdWord 0 = s.otpRead 0x10 ∧ s.pwdWord 1 = s.otpRead 0x11 then { s with nvm := { s.nvm with unlocked := true } } else { s with nvm := { s.nvm with fails := s.nvm.fails + 1 } })) ∧
  (∀ (s : State), s.ringsUp = true → exec (.relock 0x5A) s = .next (if s.grade = 0 then { s with nvm := { s.nvm with rej := true } } else { s with nvm := { s.nvm with unlocked := false } })) ∧
  (∀ (s : State) r v l, s.nvm.fuseJob = (r, v) :: l → redirOf s.nvm.redir r = none →
    ∃ t, exec (.otpRowProgrammed true) s = .next t ∧ t.nvm.fuseJob = l ∧ t.otpRead r = (s.otpRead r ||| v) ∧ (∀ k, k ≠ r → t.otpRead k = s.otpRead k) ∧ { t with nvm := s.nvm } = s) ∧
  (∀ (s : State) o op r v l, s.nvm.fuseJob = [] → s.nvm.lcJob = some (o, (r, v) :: l) → GoesOn s o 0x73 op → redirOf s.nvm.redir r = none →
    (s.otpRead r &&& ~~~v ≠ 0 → ∃ t, exec (.otpRowProgrammed true) s = .next t ∧ Ends { s with nvm := { s.nvm with lcJob := none } } o stDenied 0 t) ∧
    (s.otpRead r &&& ~~~v = 0 → l = [] → ∃ t, exec (.otpRowProgrammed true) s = .next t ∧ t.otpRead r = v ∧ t.nvm.lcJob = none ∧ t.nvm.pendingSeal = true ∧ Ends { s with nvm := t.nvm } o stOk 0 t) ∧
    (s.otpRead r &&& ~~~v = 0 → l ≠ [] → ∃ t, exec (.otpRowProgrammed true) s = .next t ∧ t.otpRead r = v ∧ t.nvm.lcJob = some (o, l) ∧ { t with nvm := s.nvm, ops := s.ops } = s)) ∧
  (∀ (s : State) (r : Fin 1024), s.ringsUp = true → s.nvm.weak = [] →
    ∃ t, exec (.otpRowRead (BitVec.ofNat 32 r.val)) s = .next t ∧
      t.nvm.otpLo.toNat + 2 ^ 32 * t.nvm.otpHi.toNat = (if r.val = 0x10 ∨ r.val = 0x11 then 0 else (s.otpRead r).toNat) ∧ { t with nvm := s.nvm, regs := s.regs } = s) ∧
  (∀ (s : State) (p : Fin 4096), s.portUp = true →
    (s.nvm.job ≠ none → ∃ t, exec (.nvmwRead (BitVec.ofNat 32 (2 ^ 30 + p.val))) s = .next t ∧ t = s.nack) ∧
    (s.nvm.job = none → twReads p = true → s.railIn 2 = true → ∃ t, exec (.nvmwRead (BitVec.ofNat 32 (2 ^ 30 + p.val))) s = .next t ∧
      ∀ i, i < 256 → tabGet (fun _ => (0 : Byte)) t.nvm.twBuf i = (s.nvmBytes (256 * p.val) 256).getD i 0) ∧
    (s.nvm.job ≠ none ∨ s.nvmHost = true ∨ s.sup.brace = true ∨ wbit (s.reg Reg.nvmCtl) 0 = true →
      ∃ t, exec (.nvmwProgram (BitVec.ofNat 32 (2 ^ 31 + p.val))) s = .next t ∧ t = s.nack) ∧
    (s.nvm.job = none → s.nvmHost = false → s.sup.brace = false → wbit (s.reg Reg.nvmCtl) 0 = false → s.railIn 2 = true →
      ∃ t, exec (.nvmwProgram (BitVec.ofNat 32 (2 ^ 31 + p.val))) s = .next t ∧
        (if twPage p then t.nvm.twBusy = true ∧ t.nvm.job = some { owner := .twowire, page := p.val, data := (List.range 256).map fun i => tabGet (fun _ => (0 : Byte)) s.nvm.twBuf i } else t.nvm.twErr = true ∧ t.nvm.job = none)) ∧
    (s.nvm.job = none → s.railIn 2 = false → ∃ t, exec (.nvmwRead (BitVec.ofNat 32 (2 ^ 30 + p.val))) s = .next t ∧ t.nvm.twErr = true ∧ t.nvm.twBuf = s.nvm.twBuf) ∧
    (s.nvm.job = none → s.nvmHost = false → s.sup.brace = false → wbit (s.reg Reg.nvmCtl) 0 = false → s.railIn 2 = false →
      ∃ t, exec (.nvmwProgram (BitVec.ofNat 32 (2 ^ 31 + p.val))) s = .next t ∧ t.nvm.twErr = true ∧ t.nvm.job = none))

/-- R534, R535: without the supervisor's supply the TAP does nothing; an instruction that the debug level allows acts and its register is captured, any other acts as BYPASS; Test-Logic-Reset selects IDCODE. R537: SAMPLE/PRELOAD fills the boundary-scan register where it acts, EXTEST captures it, and a write of 1 to SCAN_EN where it is not allowed is ignored. R541, R542: the TRNG becomes ready, and a failed health test counts, makes it not ready and changes nothing else behind the host interface, except in SLEEP and OFF, where it does nothing. R538: in OPEN the debug chain halts a pair of cores and lets it go on, reads and writes threads that it has halted and the period-program memories, and reads set-up registers by their access codes; hem guards, OTP programming, the key hash and the TRNG are not reached. At any other level, and where the chain has no supply, nothing is reached. Where the spec is silent it follows the model's log, entries 8, 44, 55. -/
def Obligations.TapScanAndTrng : Prop :=
  (
  (∀ (s : State), s.grade.toNat < 3 → s.idcode.toNat = 2 ^ 28 + 2 ^ 12 * (0x5A10 + s.grade.toNat) + 2 * 0x2D7 + 1) ∧
  (∀ (s : State) (pins pre : DWord) (ir : Byte) (q : DbgReq), s.tapUp = false →
    exec .jtagIdcode s = .next s ∧ exec (.jtagSamplePreload pins pre) s = .next s ∧ exec .jtagExtest s = .next s ∧ exec .jtagClamp s = .next s ∧ exec .jtagHighz s = .next s ∧
    exec (.jtagDbgSel q) s = .next s ∧ exec (.jtagBypass ir) s = .next s) ∧
  (∀ (s u : State) (pins pre : DWord), s.tapUp = true →
    (u = { s with sec := { s.sec with tapIr := 0x01 } } → exec .jtagIdcode s = .next { u with out := (.jtag 0x01 (s.idcode.setWidth 64)) :: s.out }) ∧
    (u = { s with sec := { s.sec with tapIr := 0x02 } } → exec (.jtagSamplePreload pins pre) s = .next (
      if s.dbgLevel = 0 then { u with out := (.jtag 0xFF 0) :: s.out } else { u with sec := { u.sec with bsr := pre }, out := (.jtag 0x02 pins) :: s.out })) ∧
    (u = { s with sec := { s.sec with tapIr := 0x03 } } → exec .jtagExtest s = .next { u with out := (if s.dbgLevel = 0 ∨ s.scanEn = false then .jtag 0xFF 0 else .jtag 0x03 s.sec.bsr) :: s.out }) ∧
    (u = { s with sec := { s.sec with tapIr := 0x04 } } → exec .jtagClamp s = .next { u with out := (.jtag (if s.dbgLevel = 0 ∨ s.scanEn = false then 0xFF else 0x04) 0) :: s.out }) ∧
    (u = { s with sec := { s.sec with tapIr := 0x05 } } → exec .jtagHighz s = .next { u with out := (.jtag (if s.dbgLevel = 0 ∨ s.scanEn = false then 0xFF else 0x05) 0) :: s.out }) ∧
    (∀ ir : Byte, ir ≠ 1 → ir ≠ 2 → ir ≠ 3 → ir ≠ 4 → ir ≠ 5 → ir ≠ 0x10 → u = { s with sec := { s.sec with tapIr := ir } } → exec (.jtagBypass ir) s = .next { u with out := (.jtag 0xFF 0) :: s.out })) ∧
  (∀ (s : State), exec .tapReset s = .next { s with sec := { s.sec with tapIr := 0x01 } }) ∧
  (∀ (s : State) (v : Word), exec (.scanEnWrite v) s = .next (
    if v.getLsbD 0 = true ∧ ¬ (s.pwr.st = .basting ∨ (s.twin.st = .off ∧ ∀ e ∈ s.lanes, e.2.st = .off)) then s else s.setReg Reg.secDbgCtl 0 (v &&& 1))) ∧
  (∀ (s : State), exec .trngReady s = .next (if s.pwr.st = .sleep ∨ s.pwr.st = .off then s else { s with sec := { s.sec with rngReady := true } })) ∧
  (∀ (s : State), s.pwr.st = .sleep ∨ s.pwr.st = .off → exec .trngHealthFail s = .next s) ∧
  (∀ (s : State), s.pwr.st ≠ .sleep → s.pwr.st ≠ .off → (∀ p ∈ s.ops, p.code = 0x72 → p.tag < planTag) →
    ∃ t, exec .trngHealthFail s = .next t ∧ t.inner = { s with sec := { s.sec with rngReady := false, rngFails := satInc 0xFFFF s.sec.rngFails } }.inner)) ∧
  (
  (∀ (s : State) (q : DbgReq), s.tapUp = true → s.dbgLevel ≠ 2 ∨ s.chainUp = false →
    exec (.jtagDbgSel q) s = .next { s with sec := { s.sec with tapIr := 0x10 }, out := (.jtag (if s.dbgLevel = 2 then 0x10 else 0xFF) 0) :: s.out }) ∧
  (∀ (s : State), s.tapUp = true → s.dbgLevel = 2 → s.chainUp = true →
    (∃ t, exec (.jtagDbgSel .select) s = .next t ∧ t = { s with sec := { s.sec with tapIr := 0x10 }, out := (.jtag 0x10 0) :: s.out }) ∧
    (∀ p c, ∃ t, exec (.jtagDbgSel (.halt p c)) s = .next t ∧ t.sec.dbg.halted p = true ∧ (∀ k, k ≠ p → t.sec.dbg.halted k = s.sec.dbg.halted k) ∧ { t with sec := s.sec, out := s.out } = s) ∧
    (∀ p, s.sec.dbg.halted p = true → s.sec.fwWrites = [] → ∃ t, exec (.jtagDbgSel (.resume p)) s = .next t ∧ t.sec.dbg.halted p = false ∧ { t with sec := s.sec, out := s.out } = s) ∧
    (∀ a v, a < 0x100000 → dbgBarred a = true → exec (.jtagDbgSel (.readMem a)) s = exec (.jtagDbgSel .select) s ∧ exec (.jtagDbgSel (.writeMem a v)) s = exec (.jtagDbgSel .select) s) ∧
    (∀ k : Fin 16, s.unitsUp = true → (s.thr k).st = .run ∨ (s.thr k).st = .wait →
      ∃ t, exec (.jtagDbgSel (.haltThread k)) s = .next t ∧ (t.thr k).st = .halted ∧ (t.thr k).pc = (s.thr k).pc ∧ t.dbgThr k = some (s.thr k).st ∧ ∀ j, j ≠ k.val → t.thr j = s.thr j) ∧
    (∀ k st, s.unitsUp = true → s.dbgThr k = some st → ∃ t, exec (.jtagDbgSel (.resumeThread k)) s = .next t ∧ (t.thr k).st = st ∧ (t.thr k).pc = (s.thr k).pc) ∧
    (∀ k i, s.unitsUp = true → exec (.jtagDbgSel (.readThread k i)) s = .next { s with sec := { s.sec with tapIr := 0x10 }, out := (.jtag 0x10 ((s.patReg k i).setWidth 64)) :: s.out }) ∧
    (∀ k i v st, s.unitsUp = true → s.dbgThr k = some st → i.val ≠ 0 → ∃ t, exec (.jtagDbgSel (.writeThread k i v)) s = .next t ∧ t.patReg k i = v ∧ (∀ j, j < 16 → j ≠ i.val → t.patReg k j = s.patReg k j)) ∧
    (∀ e a, s.unitsUp = true → exec (.jtagDbgSel (.readProgram e a)) s = .next { s with sec := { s.sec with tapIr := 0x10 }, out := (.jtag 0x10 (((s.eng e).image.getD a 0).setWidth 64)) :: s.out }) ∧
    (∀ e a v, s.unitsUp = true → ∃ t, exec (.jtagDbgSel (.writeProgram e a v)) s = .next t ∧ ∀ i, (t.eng e).image.getD i 0 = (if i = a.val then v else (s.eng e).image.getD i 0))))

/-- R540: a recovery command acts only in BASTING, with its key and while none runs. LOAD in VOID, of an image that cannot be read, and of one that does not pass, each ends with its own result; else the image is staged for the other bank; CLEAR writes a start record with no failed start, and RESET raises the HOST source. R543: the two-wire port answers only to its own address; R503: a page program makes it NACK. R544, R546: a transfer wakes the device and sets the pointer; a read gives as many bytes as it asks for. R548: a held SDA sets HANG. Where the spec is silent it follows the model's log, entries 18, 44. -/
def Obligations.RecoveryAndTwoWire : Prop :=
  (∀ (s : State) (k : Byte) (d : HostRead), k ≠ 0x5A ∨ s.pwr.st ≠ .basting ∨ s.sec.recBusy = true →
    exec (.recLoad k d) s = .next s ∧ exec (.recClear k) s = .next s ∧ exec (.recReset k) s = .next s) ∧
  (∀ (s : State), s.pwr.st = .basting → s.sec.recBusy = false →
    (s.nvm.lc = .void → ∀ d, exec (.recLoad 0x5A d) s = .next { s with sec := { s.sec with recResult := 2 } }) ∧
    (s.nvm.lc ≠ .void → exec (.recLoad 0x5A .failed) s = .next { s with sec := { s.sec with recResult := 4 } }) ∧
    (s.nvm.lc ≠ .void → ∀ b st, s.imageStatus b 1 = some st →
      exec (.recLoad 0x5A (.data b)) s = .next { s with sec := { s.sec with recResult := if st = stDenied then 2 else 3 } }) ∧
    (s.nvm.lc ≠ .void → s.nvm.job ≠ none → ∀ b, ∃ t, exec (.recLoad 0x5A (.data b)) s = .next t ∧ (s.imageStatus b 1 = none →
      t.sec.recBusy = true ∧ t.sec.bank = (!s.recTarget) ∧ t.sec.staged = some (recTag, b) ∧ { t with sec := s.sec, nvm := s.nvm } = s)) ∧
    (∃ t, exec (.recClear 0x5A) s = .next t ∧ t.pwr.fails = 0 ∧ t.sec = { s.sec with recResult := 1 } ∧ (s.nvm.waitSup = [] → { t with pwr := s.pwr, nvm := s.nvm, sec := s.sec } = s)) ∧
    (∃ t, exec (.recReset 0x5A) s = .next t ∧ t.pwr.episode = true ∧ RstSrc.host ∈ t.pwr.raised)) ∧
  (∀ (s : State) (a : BitVec 7) bytes n, s.portUp = false ∨ a.toNat ≠ 0x58 + s.sec.adr.toNat → exec (.twowireWrite a bytes) s = .next s ∧ exec (.twowireRead a n) s = .next s) ∧
  (∀ (s : State) (a : BitVec 7) bytes n, s.portUp = true → a.toNat = 0x58 + s.sec.adr.toNat → s.nvm.job ≠ none →
    exec (.twowireWrite a bytes) s = .next s.nack ∧ exec (.twowireRead a n) s = .next s.nack) ∧
  (∀ (s : State) (a : BitVec 7) (h l p : Byte), s.portUp = true → a.toNat = 0x58 + s.sec.adr.toNat → s.nvm.job = none → s.pwr.st ≠ .sleep →
    (s.oneByte = false → exec (.twowireWrite a [h, l]) s = .next { s with sec := { s.sec with twPtr := 256 * h.toNat + l.toNat } }) ∧
    (s.oneByte = true → exec (.twowireWrite a [p]) s = .next { s with sec := { s.sec with twPtr := p.toNat } })) ∧
  (∀ (s : State) (a : BitVec 7) n, s.portUp = true → a.toNat = 0x58 + s.sec.adr.toNat → s.nvm.job = none →
    ∃ t b, exec (.twowireRead a n) s = .next t ∧ b.length = n ∧ Out.twowire b ∈ t.out) ∧
  (∀ (s : State), exec .twowireHang s = .next (if s.portUp then { s with sec := { s.sec with hang := true } } else s))
end

