-- ==== Sys2Proof/Laws/State.lean ====
section
/-! SUPPORT. The named updates of the state, field by field: every field an update does not name stays, and a field that it replaces whole reads as
the replacement. A change of one unit is spelt as a put of what it becomes. A proof over a meaning uses these and unfolds no record update. -/

namespace Sys2Proof.Machine

variable (s : State)

/-! ## `State.emit` -/

@[simp] theorem State.emit_pending (o : Out) : (s.emit o).pending = s.pending := rfl
@[simp] theorem State.emit_free (o : Out) : (s.emit o).free = s.free := rfl
@[simp] theorem State.emit_cycles (o : Out) : (s.emit o).cycles = s.cycles := rfl
@[simp] theorem State.emit_grade (o : Out) : (s.emit o).grade = s.grade := rfl
@[simp] theorem State.emit_regs (o : Out) : (s.emit o).regs = s.regs := rfl
@[simp] theorem State.emit_lanes (o : Out) : (s.emit o).lanes = s.lanes := rfl
@[simp] theorem State.emit_cells (o : Out) : (s.emit o).cells = s.cells := rfl
@[simp] theorem State.emit_engines (o : Out) : (s.emit o).engines = s.engines := rfl
@[simp] theorem State.emit_guardSram (o : Out) : (s.emit o).guardSram = s.guardSram := rfl
@[simp] theorem State.emit_guardOtp (o : Out) : (s.emit o).guardOtp = s.guardOtp := rfl
@[simp] theorem State.emit_guardUe (o : Out) : (s.emit o).guardUe = s.guardUe := rfl
@[simp] theorem State.emit_guardRej (o : Out) : (s.emit o).guardRej = s.guardRej := rfl
@[simp] theorem State.emit_drawerMem (o : Out) : (s.emit o).drawerMem = s.drawerMem := rfl
@[simp] theorem State.emit_railMem (o : Out) : (s.emit o).railMem = s.railMem := rfl
@[simp] theorem State.emit_ledger (o : Out) : (s.emit o).ledger = s.ledger := rfl
@[simp] theorem State.emit_patMem (o : Out) : (s.emit o).patMem = s.patMem := rfl
@[simp] theorem State.emit_rails (o : Out) : (s.emit o).rails = s.rails := rfl
@[simp] theorem State.emit_sync (o : Out) : (s.emit o).sync = s.sync := rfl
@[simp] theorem State.emit_ho (o : Out) : (s.emit o).ho = s.ho := rfl
@[simp] theorem State.emit_time (o : Out) : (s.emit o).time = s.time := rfl
@[simp] theorem State.emit_encs (o : Out) : (s.emit o).encs = s.encs := rfl
@[simp] theorem State.emit_cycs (o : Out) : (s.emit o).cycs = s.cycs := rfl
@[simp] theorem State.emit_marks (o : Out) : (s.emit o).marks = s.marks := rfl
@[simp] theorem State.emit_plan (o : Out) : (s.emit o).plan = s.plan := rfl
@[simp] theorem State.emit_threads (o : Out) : (s.emit o).threads = s.threads := rfl
@[simp] theorem State.emit_evPend (o : Out) : (s.emit o).evPend = s.evPend := rfl
@[simp] theorem State.emit_deadlock (o : Out) : (s.emit o).deadlock = s.deadlock := rfl
@[simp] theorem State.emit_foreign (o : Out) : (s.emit o).foreign = s.foreign := rfl
@[simp] theorem State.emit_broken (o : Out) : (s.emit o).broken = s.broken := rfl
@[simp] theorem State.emit_routeAt (o : Out) : (s.emit o).routeAt = s.routeAt := rfl
@[simp] theorem State.emit_rings (o : Out) : (s.emit o).rings = s.rings := rfl
@[simp] theorem State.emit_ops (o : Out) : (s.emit o).ops = s.ops := rfl
@[simp] theorem State.emit_cqWait (o : Out) : (s.emit o).cqWait = s.cqWait := rfl
@[simp] theorem State.emit_eqHeld (o : Out) : (s.emit o).eqHeld = s.eqHeld := rfl
@[simp] theorem State.emit_eqLossy (o : Out) : (s.emit o).eqLossy = s.eqLossy := rfl
@[simp] theorem State.emit_host (o : Out) : (s.emit o).host = s.host := rfl
@[simp] theorem State.emit_extents (o : Out) : (s.emit o).extents = s.extents := rfl
@[simp] theorem State.emit_bobs (o : Out) : (s.emit o).bobs = s.bobs := rfl
@[simp] theorem State.emit_cap (o : Out) : (s.emit o).cap = s.cap := rfl
@[simp] theorem State.emit_twin (o : Out) : (s.emit o).twin = s.twin := rfl
@[simp] theorem State.emit_wcs (o : Out) : (s.emit o).wcs = s.wcs := rfl
@[simp] theorem State.emit_sup (o : Out) : (s.emit o).sup = s.sup := rfl
@[simp] theorem State.emit_pwr (o : Out) : (s.emit o).pwr = s.pwr := rfl
@[simp] theorem State.emit_nvm (o : Out) : (s.emit o).nvm = s.nvm := rfl
@[simp] theorem State.emit_sec (o : Out) : (s.emit o).sec = s.sec := rfl
@[simp] theorem State.emit_safetyStat (o : Out) : (s.emit o).safetyStat = s.safetyStat := rfl
@[simp] theorem State.emit_ue (o : Out) : (s.emit o).ue = s.ue := rfl
@[simp] theorem State.emit_ce (o : Out) : (s.emit o).ce = s.ce := rfl
@[simp] theorem State.emit_out (o : Out) : (s.emit o).out = o :: s.out := rfl

/-! ## `State.setLane` -/

@[simp] theorem State.setLane_pending (n : Nat) (l : Lane) : (s.setLane n l).pending = s.pending := rfl
@[simp] theorem State.setLane_out (n : Nat) (l : Lane) : (s.setLane n l).out = s.out := rfl
@[simp] theorem State.setLane_free (n : Nat) (l : Lane) : (s.setLane n l).free = s.free := rfl
@[simp] theorem State.setLane_cycles (n : Nat) (l : Lane) : (s.setLane n l).cycles = s.cycles := rfl
@[simp] theorem State.setLane_grade (n : Nat) (l : Lane) : (s.setLane n l).grade = s.grade := rfl
@[simp] theorem State.setLane_regs (n : Nat) (l : Lane) : (s.setLane n l).regs = s.regs := rfl
@[simp] theorem State.setLane_cells (n : Nat) (l : Lane) : (s.setLane n l).cells = s.cells := rfl
@[simp] theorem State.setLane_engines (n : Nat) (l : Lane) : (s.setLane n l).engines = s.engines := rfl
@[simp] theorem State.setLane_guardSram (n : Nat) (l : Lane) : (s.setLane n l).guardSram = s.guardSram := rfl
@[simp] theorem State.setLane_guardOtp (n : Nat) (l : Lane) : (s.setLane n l).guardOtp = s.guardOtp := rfl
@[simp] theorem State.setLane_guardUe (n : Nat) (l : Lane) : (s.setLane n l).guardUe = s.guardUe := rfl
@[simp] theorem State.setLane_guardRej (n : Nat) (l : Lane) : (s.setLane n l).guardRej = s.guardRej := rfl
@[simp] theorem State.setLane_drawerMem (n : Nat) (l : Lane) : (s.setLane n l).drawerMem = s.drawerMem := rfl
@[simp] theorem State.setLane_railMem (n : Nat) (l : Lane) : (s.setLane n l).railMem = s.railMem := rfl
@[simp] theorem State.setLane_ledger (n : Nat) (l : Lane) : (s.setLane n l).ledger = s.ledger := rfl
@[simp] theorem State.setLane_patMem (n : Nat) (l : Lane) : (s.setLane n l).patMem = s.patMem := rfl
@[simp] theorem State.setLane_rails (n : Nat) (l : Lane) : (s.setLane n l).rails = s.rails := rfl
@[simp] theorem State.setLane_sync (n : Nat) (l : Lane) : (s.setLane n l).sync = s.sync := rfl
@[simp] theorem State.setLane_ho (n : Nat) (l : Lane) : (s.setLane n l).ho = s.ho := rfl
@[simp] theorem State.setLane_time (n : Nat) (l : Lane) : (s.setLane n l).time = s.time := rfl
@[simp] theorem State.setLane_encs (n : Nat) (l : Lane) : (s.setLane n l).encs = s.encs := rfl
@[simp] theorem State.setLane_cycs (n : Nat) (l : Lane) : (s.setLane n l).cycs = s.cycs := rfl
@[simp] theorem State.setLane_marks (n : Nat) (l : Lane) : (s.setLane n l).marks = s.marks := rfl
@[simp] theorem State.setLane_plan (n : Nat) (l : Lane) : (s.setLane n l).plan = s.plan := rfl
@[simp] theorem State.setLane_threads (n : Nat) (l : Lane) : (s.setLane n l).threads = s.threads := rfl
@[simp] theorem State.setLane_evPend (n : Nat) (l : Lane) : (s.setLane n l).evPend = s.evPend := rfl
@[simp] theorem State.setLane_deadlock (n : Nat) (l : Lane) : (s.setLane n l).deadlock = s.deadlock := rfl
@[simp] theorem State.setLane_foreign (n : Nat) (l : Lane) : (s.setLane n l).foreign = s.foreign := rfl
@[simp] theorem State.setLane_broken (n : Nat) (l : Lane) : (s.setLane n l).broken = s.broken := rfl
@[simp] theorem State.setLane_routeAt (n : Nat) (l : Lane) : (s.setLane n l).routeAt = s.routeAt := rfl
@[simp] theorem State.setLane_rings (n : Nat) (l : Lane) : (s.setLane n l).rings = s.rings := rfl
@[simp] theorem State.setLane_ops (n : Nat) (l : Lane) : (s.setLane n l).ops = s.ops := rfl
@[simp] theorem State.setLane_cqWait (n : Nat) (l : Lane) : (s.setLane n l).cqWait = s.cqWait := rfl
@[simp] theorem State.setLane_eqHeld (n : Nat) (l : Lane) : (s.setLane n l).eqHeld = s.eqHeld := rfl
@[simp] theorem State.setLane_eqLossy (n : Nat) (l : Lane) : (s.setLane n l).eqLossy = s.eqLossy := rfl
@[simp] theorem State.setLane_host (n : Nat) (l : Lane) : (s.setLane n l).host = s.host := rfl
@[simp] theorem State.setLane_extents (n : Nat) (l : Lane) : (s.setLane n l).extents = s.extents := rfl
@[simp] theorem State.setLane_bobs (n : Nat) (l : Lane) : (s.setLane n l).bobs = s.bobs := rfl
@[simp] theorem State.setLane_cap (n : Nat) (l : Lane) : (s.setLane n l).cap = s.cap := rfl
@[simp] theorem State.setLane_twin (n : Nat) (l : Lane) : (s.setLane n l).twin = s.twin := rfl
@[simp] theorem State.setLane_wcs (n : Nat) (l : Lane) : (s.setLane n l).wcs = s.wcs := rfl
@[simp] theorem State.setLane_sup (n : Nat) (l : Lane) : (s.setLane n l).sup = s.sup := rfl
@[simp] theorem State.setLane_pwr (n : Nat) (l : Lane) : (s.setLane n l).pwr = s.pwr := rfl
@[simp] theorem State.setLane_nvm (n : Nat) (l : Lane) : (s.setLane n l).nvm = s.nvm := rfl
@[simp] theorem State.setLane_sec (n : Nat) (l : Lane) : (s.setLane n l).sec = s.sec := rfl
@[simp] theorem State.setLane_safetyStat (n : Nat) (l : Lane) : (s.setLane n l).safetyStat = s.safetyStat := rfl
@[simp] theorem State.setLane_ue (n : Nat) (l : Lane) : (s.setLane n l).ue = s.ue := rfl
@[simp] theorem State.setLane_ce (n : Nat) (l : Lane) : (s.setLane n l).ce = s.ce := rfl

@[simp] theorem State.modLane_eq (n : Nat) (f : Lane → Lane) : s.modLane n f = s.setLane n (f (s.lane n)) := rfl

/-! ## `State.setCell` -/

@[simp] theorem State.setCell_pending (n : Nat) (c : Cell) : (s.setCell n c).pending = s.pending := rfl
@[simp] theorem State.setCell_out (n : Nat) (c : Cell) : (s.setCell n c).out = s.out := rfl
@[simp] theorem State.setCell_free (n : Nat) (c : Cell) : (s.setCell n c).free = s.free := rfl
@[simp] theorem State.setCell_cycles (n : Nat) (c : Cell) : (s.setCell n c).cycles = s.cycles := rfl
@[simp] theorem State.setCell_grade (n : Nat) (c : Cell) : (s.setCell n c).grade = s.grade := rfl
@[simp] theorem State.setCell_regs (n : Nat) (c : Cell) : (s.setCell n c).regs = s.regs := rfl
@[simp] theorem State.setCell_lanes (n : Nat) (c : Cell) : (s.setCell n c).lanes = s.lanes := rfl
@[simp] theorem State.setCell_engines (n : Nat) (c : Cell) : (s.setCell n c).engines = s.engines := rfl
@[simp] theorem State.setCell_guardSram (n : Nat) (c : Cell) : (s.setCell n c).guardSram = s.guardSram := rfl
@[simp] theorem State.setCell_guardOtp (n : Nat) (c : Cell) : (s.setCell n c).guardOtp = s.guardOtp := rfl
@[simp] theorem State.setCell_guardUe (n : Nat) (c : Cell) : (s.setCell n c).guardUe = s.guardUe := rfl
@[simp] theorem State.setCell_guardRej (n : Nat) (c : Cell) : (s.setCell n c).guardRej = s.guardRej := rfl
@[simp] theorem State.setCell_drawerMem (n : Nat) (c : Cell) : (s.setCell n c).drawerMem = s.drawerMem := rfl
@[simp] theorem State.setCell_railMem (n : Nat) (c : Cell) : (s.setCell n c).railMem = s.railMem := rfl
@[simp] theorem State.setCell_ledger (n : Nat) (c : Cell) : (s.setCell n c).ledger = s.ledger := rfl
@[simp] theorem State.setCell_patMem (n : Nat) (c : Cell) : (s.setCell n c).patMem = s.patMem := rfl
@[simp] theorem State.setCell_rails (n : Nat) (c : Cell) : (s.setCell n c).rails = s.rails := rfl
@[simp] theorem State.setCell_sync (n : Nat) (c : Cell) : (s.setCell n c).sync = s.sync := rfl
@[simp] theorem State.setCell_ho (n : Nat) (c : Cell) : (s.setCell n c).ho = s.ho := rfl
@[simp] theorem State.setCell_time (n : Nat) (c : Cell) : (s.setCell n c).time = s.time := rfl
@[simp] theorem State.setCell_encs (n : Nat) (c : Cell) : (s.setCell n c).encs = s.encs := rfl
@[simp] theorem State.setCell_cycs (n : Nat) (c : Cell) : (s.setCell n c).cycs = s.cycs := rfl
@[simp] theorem State.setCell_marks (n : Nat) (c : Cell) : (s.setCell n c).marks = s.marks := rfl
@[simp] theorem State.setCell_plan (n : Nat) (c : Cell) : (s.setCell n c).plan = s.plan := rfl
@[simp] theorem State.setCell_threads (n : Nat) (c : Cell) : (s.setCell n c).threads = s.threads := rfl
@[simp] theorem State.setCell_evPend (n : Nat) (c : Cell) : (s.setCell n c).evPend = s.evPend := rfl
@[simp] theorem State.setCell_deadlock (n : Nat) (c : Cell) : (s.setCell n c).deadlock = s.deadlock := rfl
@[simp] theorem State.setCell_foreign (n : Nat) (c : Cell) : (s.setCell n c).foreign = s.foreign := rfl
@[simp] theorem State.setCell_broken (n : Nat) (c : Cell) : (s.setCell n c).broken = s.broken := rfl
@[simp] theorem State.setCell_routeAt (n : Nat) (c : Cell) : (s.setCell n c).routeAt = s.routeAt := rfl
@[simp] theorem State.setCell_rings (n : Nat) (c : Cell) : (s.setCell n c).rings = s.rings := rfl
@[simp] theorem State.setCell_ops (n : Nat) (c : Cell) : (s.setCell n c).ops = s.ops := rfl
@[simp] theorem State.setCell_cqWait (n : Nat) (c : Cell) : (s.setCell n c).cqWait = s.cqWait := rfl
@[simp] theorem State.setCell_eqHeld (n : Nat) (c : Cell) : (s.setCell n c).eqHeld = s.eqHeld := rfl
@[simp] theorem State.setCell_eqLossy (n : Nat) (c : Cell) : (s.setCell n c).eqLossy = s.eqLossy := rfl
@[simp] theorem State.setCell_host (n : Nat) (c : Cell) : (s.setCell n c).host = s.host := rfl
@[simp] theorem State.setCell_extents (n : Nat) (c : Cell) : (s.setCell n c).extents = s.extents := rfl
@[simp] theorem State.setCell_bobs (n : Nat) (c : Cell) : (s.setCell n c).bobs = s.bobs := rfl
@[simp] theorem State.setCell_cap (n : Nat) (c : Cell) : (s.setCell n c).cap = s.cap := rfl
@[simp] theorem State.setCell_twin (n : Nat) (c : Cell) : (s.setCell n c).twin = s.twin := rfl
@[simp] theorem State.setCell_wcs (n : Nat) (c : Cell) : (s.setCell n c).wcs = s.wcs := rfl
@[simp] theorem State.setCell_sup (n : Nat) (c : Cell) : (s.setCell n c).sup = s.sup := rfl
@[simp] theorem State.setCell_pwr (n : Nat) (c : Cell) : (s.setCell n c).pwr = s.pwr := rfl
@[simp] theorem State.setCell_nvm (n : Nat) (c : Cell) : (s.setCell n c).nvm = s.nvm := rfl
@[simp] theorem State.setCell_sec (n : Nat) (c : Cell) : (s.setCell n c).sec = s.sec := rfl
@[simp] theorem State.setCell_safetyStat (n : Nat) (c : Cell) : (s.setCell n c).safetyStat = s.safetyStat := rfl
@[simp] theorem State.setCell_ue (n : Nat) (c : Cell) : (s.setCell n c).ue = s.ue := rfl
@[simp] theorem State.setCell_ce (n : Nat) (c : Cell) : (s.setCell n c).ce = s.ce := rfl

@[simp] theorem State.modCell_eq (n : Nat) (f : Cell → Cell) : s.modCell n f = s.setCell n (f (s.cell n)) := rfl

/-! ## `State.setEng` -/

@[simp] theorem State.setEng_pending (e : Nat) (g : Engine) : (s.setEng e g).pending = s.pending := rfl
@[simp] theorem State.setEng_out (e : Nat) (g : Engine) : (s.setEng e g).out = s.out := rfl
@[simp] theorem State.setEng_free (e : Nat) (g : Engine) : (s.setEng e g).free = s.free := rfl
@[simp] theorem State.setEng_cycles (e : Nat) (g : Engine) : (s.setEng e g).cycles = s.cycles := rfl
@[simp] theorem State.setEng_grade (e : Nat) (g : Engine) : (s.setEng e g).grade = s.grade := rfl
@[simp] theorem State.setEng_regs (e : Nat) (g : Engine) : (s.setEng e g).regs = s.regs := rfl
@[simp] theorem State.setEng_lanes (e : Nat) (g : Engine) : (s.setEng e g).lanes = s.lanes := rfl
@[simp] theorem State.setEng_cells (e : Nat) (g : Engine) : (s.setEng e g).cells = s.cells := rfl
@[simp] theorem State.setEng_guardSram (e : Nat) (g : Engine) : (s.setEng e g).guardSram = s.guardSram := rfl
@[simp] theorem State.setEng_guardOtp (e : Nat) (g : Engine) : (s.setEng e g).guardOtp = s.guardOtp := rfl
@[simp] theorem State.setEng_guardUe (e : Nat) (g : Engine) : (s.setEng e g).guardUe = s.guardUe := rfl
@[simp] theorem State.setEng_guardRej (e : Nat) (g : Engine) : (s.setEng e g).guardRej = s.guardRej := rfl
@[simp] theorem State.setEng_drawerMem (e : Nat) (g : Engine) : (s.setEng e g).drawerMem = s.drawerMem := rfl
@[simp] theorem State.setEng_railMem (e : Nat) (g : Engine) : (s.setEng e g).railMem = s.railMem := rfl
@[simp] theorem State.setEng_ledger (e : Nat) (g : Engine) : (s.setEng e g).ledger = s.ledger := rfl
@[simp] theorem State.setEng_patMem (e : Nat) (g : Engine) : (s.setEng e g).patMem = s.patMem := rfl
@[simp] theorem State.setEng_rails (e : Nat) (g : Engine) : (s.setEng e g).rails = s.rails := rfl
@[simp] theorem State.setEng_sync (e : Nat) (g : Engine) : (s.setEng e g).sync = s.sync := rfl
@[simp] theorem State.setEng_ho (e : Nat) (g : Engine) : (s.setEng e g).ho = s.ho := rfl
@[simp] theorem State.setEng_time (e : Nat) (g : Engine) : (s.setEng e g).time = s.time := rfl
@[simp] theorem State.setEng_encs (e : Nat) (g : Engine) : (s.setEng e g).encs = s.encs := rfl
@[simp] theorem State.setEng_cycs (e : Nat) (g : Engine) : (s.setEng e g).cycs = s.cycs := rfl
@[simp] theorem State.setEng_marks (e : Nat) (g : Engine) : (s.setEng e g).marks = s.marks := rfl
@[simp] theorem State.setEng_plan (e : Nat) (g : Engine) : (s.setEng e g).plan = s.plan := rfl
@[simp] theorem State.setEng_threads (e : Nat) (g : Engine) : (s.setEng e g).threads = s.threads := rfl
@[simp] theorem State.setEng_evPend (e : Nat) (g : Engine) : (s.setEng e g).evPend = s.evPend := rfl
@[simp] theorem State.setEng_deadlock (e : Nat) (g : Engine) : (s.setEng e g).deadlock = s.deadlock := rfl
@[simp] theorem State.setEng_foreign (e : Nat) (g : Engine) : (s.setEng e g).foreign = s.foreign := rfl
@[simp] theorem State.setEng_broken (e : Nat) (g : Engine) : (s.setEng e g).broken = s.broken := rfl
@[simp] theorem State.setEng_routeAt (e : Nat) (g : Engine) : (s.setEng e g).routeAt = s.routeAt := rfl
@[simp] theorem State.setEng_rings (e : Nat) (g : Engine) : (s.setEng e g).rings = s.rings := rfl
@[simp] theorem State.setEng_ops (e : Nat) (g : Engine) : (s.setEng e g).ops = s.ops := rfl
@[simp] theorem State.setEng_cqWait (e : Nat) (g : Engine) : (s.setEng e g).cqWait = s.cqWait := rfl
@[simp] theorem State.setEng_eqHeld (e : Nat) (g : Engine) : (s.setEng e g).eqHeld = s.eqHeld := rfl
@[simp] theorem State.setEng_eqLossy (e : Nat) (g : Engine) : (s.setEng e g).eqLossy = s.eqLossy := rfl
@[simp] theorem State.setEng_host (e : Nat) (g : Engine) : (s.setEng e g).host = s.host := rfl
@[simp] theorem State.setEng_extents (e : Nat) (g : Engine) : (s.setEng e g).extents = s.extents := rfl
@[simp] theorem State.setEng_bobs (e : Nat) (g : Engine) : (s.setEng e g).bobs = s.bobs := rfl
@[simp] theorem State.setEng_cap (e : Nat) (g : Engine) : (s.setEng e g).cap = s.cap := rfl
@[simp] theorem State.setEng_twin (e : Nat) (g : Engine) : (s.setEng e g).twin = s.twin := rfl
@[simp] theorem State.setEng_wcs (e : Nat) (g : Engine) : (s.setEng e g).wcs = s.wcs := rfl
@[simp] theorem State.setEng_sup (e : Nat) (g : Engine) : (s.setEng e g).sup = s.sup := rfl
@[simp] theorem State.setEng_pwr (e : Nat) (g : Engine) : (s.setEng e g).pwr = s.pwr := rfl
@[simp] theorem State.setEng_nvm (e : Nat) (g : Engine) : (s.setEng e g).nvm = s.nvm := rfl
@[simp] theorem State.setEng_sec (e : Nat) (g : Engine) : (s.setEng e g).sec = s.sec := rfl
@[simp] theorem State.setEng_safetyStat (e : Nat) (g : Engine) : (s.setEng e g).safetyStat = s.safetyStat := rfl
@[simp] theorem State.setEng_ue (e : Nat) (g : Engine) : (s.setEng e g).ue = s.ue := rfl
@[simp] theorem State.setEng_ce (e : Nat) (g : Engine) : (s.setEng e g).ce = s.ce := rfl

@[simp] theorem State.modEng_eq (e : Nat) (f : Engine → Engine) : s.modEng e f = s.setEng e (f (s.eng e)) := rfl

/-! ## `State.setRail` -/

@[simp] theorem State.setRail_pending (m : Nat) (r : Rail) : (s.setRail m r).pending = s.pending := rfl
@[simp] theorem State.setRail_out (m : Nat) (r : Rail) : (s.setRail m r).out = s.out := rfl
@[simp] theorem State.setRail_free (m : Nat) (r : Rail) : (s.setRail m r).free = s.free := rfl
@[simp] theorem State.setRail_cycles (m : Nat) (r : Rail) : (s.setRail m r).cycles = s.cycles := rfl
@[simp] theorem State.setRail_grade (m : Nat) (r : Rail) : (s.setRail m r).grade = s.grade := rfl
@[simp] theorem State.setRail_regs (m : Nat) (r : Rail) : (s.setRail m r).regs = s.regs := rfl
@[simp] theorem State.setRail_lanes (m : Nat) (r : Rail) : (s.setRail m r).lanes = s.lanes := rfl
@[simp] theorem State.setRail_cells (m : Nat) (r : Rail) : (s.setRail m r).cells = s.cells := rfl
@[simp] theorem State.setRail_engines (m : Nat) (r : Rail) : (s.setRail m r).engines = s.engines := rfl
@[simp] theorem State.setRail_guardSram (m : Nat) (r : Rail) : (s.setRail m r).guardSram = s.guardSram := rfl
@[simp] theorem State.setRail_guardOtp (m : Nat) (r : Rail) : (s.setRail m r).guardOtp = s.guardOtp := rfl
@[simp] theorem State.setRail_guardUe (m : Nat) (r : Rail) : (s.setRail m r).guardUe = s.guardUe := rfl
@[simp] theorem State.setRail_guardRej (m : Nat) (r : Rail) : (s.setRail m r).guardRej = s.guardRej := rfl
@[simp] theorem State.setRail_drawerMem (m : Nat) (r : Rail) : (s.setRail m r).drawerMem = s.drawerMem := rfl
@[simp] theorem State.setRail_railMem (m : Nat) (r : Rail) : (s.setRail m r).railMem = s.railMem := rfl
@[simp] theorem State.setRail_ledger (m : Nat) (r : Rail) : (s.setRail m r).ledger = s.ledger := rfl
@[simp] theorem State.setRail_patMem (m : Nat) (r : Rail) : (s.setRail m r).patMem = s.patMem := rfl
@[simp] theorem State.setRail_sync (m : Nat) (r : Rail) : (s.setRail m r).sync = s.sync := rfl
@[simp] theorem State.setRail_ho (m : Nat) (r : Rail) : (s.setRail m r).ho = s.ho := rfl
@[simp] theorem State.setRail_time (m : Nat) (r : Rail) : (s.setRail m r).time = s.time := rfl
@[simp] theorem State.setRail_encs (m : Nat) (r : Rail) : (s.setRail m r).encs = s.encs := rfl
@[simp] theorem State.setRail_cycs (m : Nat) (r : Rail) : (s.setRail m r).cycs = s.cycs := rfl
@[simp] theorem State.setRail_marks (m : Nat) (r : Rail) : (s.setRail m r).marks = s.marks := rfl
@[simp] theorem State.setRail_plan (m : Nat) (r : Rail) : (s.setRail m r).plan = s.plan := rfl
@[simp] theorem State.setRail_threads (m : Nat) (r : Rail) : (s.setRail m r).threads = s.threads := rfl
@[simp] theorem State.setRail_evPend (m : Nat) (r : Rail) : (s.setRail m r).evPend = s.evPend := rfl
@[simp] theorem State.setRail_deadlock (m : Nat) (r : Rail) : (s.setRail m r).deadlock = s.deadlock := rfl
@[simp] theorem State.setRail_foreign (m : Nat) (r : Rail) : (s.setRail m r).foreign = s.foreign := rfl
@[simp] theorem State.setRail_broken (m : Nat) (r : Rail) : (s.setRail m r).broken = s.broken := rfl
@[simp] theorem State.setRail_routeAt (m : Nat) (r : Rail) : (s.setRail m r).routeAt = s.routeAt := rfl
@[simp] theorem State.setRail_rings (m : Nat) (r : Rail) : (s.setRail m r).rings = s.rings := rfl
@[simp] theorem State.setRail_ops (m : Nat) (r : Rail) : (s.setRail m r).ops = s.ops := rfl
@[simp] theorem State.setRail_cqWait (m : Nat) (r : Rail) : (s.setRail m r).cqWait = s.cqWait := rfl
@[simp] theorem State.setRail_eqHeld (m : Nat) (r : Rail) : (s.setRail m r).eqHeld = s.eqHeld := rfl
@[simp] theorem State.setRail_eqLossy (m : Nat) (r : Rail) : (s.setRail m r).eqLossy = s.eqLossy := rfl
@[simp] theorem State.setRail_host (m : Nat) (r : Rail) : (s.setRail m r).host = s.host := rfl
@[simp] theorem State.setRail_extents (m : Nat) (r : Rail) : (s.setRail m r).extents = s.extents := rfl
@[simp] theorem State.setRail_bobs (m : Nat) (r : Rail) : (s.setRail m r).bobs = s.bobs := rfl
@[simp] theorem State.setRail_cap (m : Nat) (r : Rail) : (s.setRail m r).cap = s.cap := rfl
@[simp] theorem State.setRail_twin (m : Nat) (r : Rail) : (s.setRail m r).twin = s.twin := rfl
@[simp] theorem State.setRail_wcs (m : Nat) (r : Rail) : (s.setRail m r).wcs = s.wcs := rfl
@[simp] theorem State.setRail_sup (m : Nat) (r : Rail) : (s.setRail m r).sup = s.sup := rfl
@[simp] theorem State.setRail_pwr (m : Nat) (r : Rail) : (s.setRail m r).pwr = s.pwr := rfl
@[simp] theorem State.setRail_nvm (m : Nat) (r : Rail) : (s.setRail m r).nvm = s.nvm := rfl
@[simp] theorem State.setRail_sec (m : Nat) (r : Rail) : (s.setRail m r).sec = s.sec := rfl
@[simp] theorem State.setRail_safetyStat (m : Nat) (r : Rail) : (s.setRail m r).safetyStat = s.safetyStat := rfl
@[simp] theorem State.setRail_ue (m : Nat) (r : Rail) : (s.setRail m r).ue = s.ue := rfl
@[simp] theorem State.setRail_ce (m : Nat) (r : Rail) : (s.setRail m r).ce = s.ce := rfl

@[simp] theorem State.modRail_eq (m : Nat) (f : Rail → Rail) : s.modRail m f = s.setRail m (f (s.rail m)) := rfl

/-! ## `State.setEnc` -/

@[simp] theorem State.setEnc_pending (k : Nat) (e : Enc) : (s.setEnc k e).pending = s.pending := rfl
@[simp] theorem State.setEnc_out (k : Nat) (e : Enc) : (s.setEnc k e).out = s.out := rfl
@[simp] theorem State.setEnc_free (k : Nat) (e : Enc) : (s.setEnc k e).free = s.free := rfl
@[simp] theorem State.setEnc_cycles (k : Nat) (e : Enc) : (s.setEnc k e).cycles = s.cycles := rfl
@[simp] theorem State.setEnc_grade (k : Nat) (e : Enc) : (s.setEnc k e).grade = s.grade := rfl
@[simp] theorem State.setEnc_regs (k : Nat) (e : Enc) : (s.setEnc k e).regs = s.regs := rfl
@[simp] theorem State.setEnc_lanes (k : Nat) (e : Enc) : (s.setEnc k e).lanes = s.lanes := rfl
@[simp] theorem State.setEnc_cells (k : Nat) (e : Enc) : (s.setEnc k e).cells = s.cells := rfl
@[simp] theorem State.setEnc_engines (k : Nat) (e : Enc) : (s.setEnc k e).engines = s.engines := rfl
@[simp] theorem State.setEnc_guardSram (k : Nat) (e : Enc) : (s.setEnc k e).guardSram = s.guardSram := rfl
@[simp] theorem State.setEnc_guardOtp (k : Nat) (e : Enc) : (s.setEnc k e).guardOtp = s.guardOtp := rfl
@[simp] theorem State.setEnc_guardUe (k : Nat) (e : Enc) : (s.setEnc k e).guardUe = s.guardUe := rfl
@[simp] theorem State.setEnc_guardRej (k : Nat) (e : Enc) : (s.setEnc k e).guardRej = s.guardRej := rfl
@[simp] theorem State.setEnc_drawerMem (k : Nat) (e : Enc) : (s.setEnc k e).drawerMem = s.drawerMem := rfl
@[simp] theorem State.setEnc_railMem (k : Nat) (e : Enc) : (s.setEnc k e).railMem = s.railMem := rfl
@[simp] theorem State.setEnc_ledger (k : Nat) (e : Enc) : (s.setEnc k e).ledger = s.ledger := rfl
@[simp] theorem State.setEnc_patMem (k : Nat) (e : Enc) : (s.setEnc k e).patMem = s.patMem := rfl
@[simp] theorem State.setEnc_rails (k : Nat) (e : Enc) : (s.setEnc k e).rails = s.rails := rfl
@[simp] theorem State.setEnc_sync (k : Nat) (e : Enc) : (s.setEnc k e).sync = s.sync := rfl
@[simp] theorem State.setEnc_ho (k : Nat) (e : Enc) : (s.setEnc k e).ho = s.ho := rfl
@[simp] theorem State.setEnc_time (k : Nat) (e : Enc) : (s.setEnc k e).time = s.time := rfl
@[simp] theorem State.setEnc_cycs (k : Nat) (e : Enc) : (s.setEnc k e).cycs = s.cycs := rfl
@[simp] theorem State.setEnc_marks (k : Nat) (e : Enc) : (s.setEnc k e).marks = s.marks := rfl
@[simp] theorem State.setEnc_plan (k : Nat) (e : Enc) : (s.setEnc k e).plan = s.plan := rfl
@[simp] theorem State.setEnc_threads (k : Nat) (e : Enc) : (s.setEnc k e).threads = s.threads := rfl
@[simp] theorem State.setEnc_evPend (k : Nat) (e : Enc) : (s.setEnc k e).evPend = s.evPend := rfl
@[simp] theorem State.setEnc_deadlock (k : Nat) (e : Enc) : (s.setEnc k e).deadlock = s.deadlock := rfl
@[simp] theorem State.setEnc_foreign (k : Nat) (e : Enc) : (s.setEnc k e).foreign = s.foreign := rfl
@[simp] theorem State.setEnc_broken (k : Nat) (e : Enc) : (s.setEnc k e).broken = s.broken := rfl
@[simp] theorem State.setEnc_routeAt (k : Nat) (e : Enc) : (s.setEnc k e).routeAt = s.routeAt := rfl
@[simp] theorem State.setEnc_rings (k : Nat) (e : Enc) : (s.setEnc k e).rings = s.rings := rfl
@[simp] theorem State.setEnc_ops (k : Nat) (e : Enc) : (s.setEnc k e).ops = s.ops := rfl
@[simp] theorem State.setEnc_cqWait (k : Nat) (e : Enc) : (s.setEnc k e).cqWait = s.cqWait := rfl
@[simp] theorem State.setEnc_eqHeld (k : Nat) (e : Enc) : (s.setEnc k e).eqHeld = s.eqHeld := rfl
@[simp] theorem State.setEnc_eqLossy (k : Nat) (e : Enc) : (s.setEnc k e).eqLossy = s.eqLossy := rfl
@[simp] theorem State.setEnc_host (k : Nat) (e : Enc) : (s.setEnc k e).host = s.host := rfl
@[simp] theorem State.setEnc_extents (k : Nat) (e : Enc) : (s.setEnc k e).extents = s.extents := rfl
@[simp] theorem State.setEnc_bobs (k : Nat) (e : Enc) : (s.setEnc k e).bobs = s.bobs := rfl
@[simp] theorem State.setEnc_cap (k : Nat) (e : Enc) : (s.setEnc k e).cap = s.cap := rfl
@[simp] theorem State.setEnc_twin (k : Nat) (e : Enc) : (s.setEnc k e).twin = s.twin := rfl
@[simp] theorem State.setEnc_wcs (k : Nat) (e : Enc) : (s.setEnc k e).wcs = s.wcs := rfl
@[simp] theorem State.setEnc_sup (k : Nat) (e : Enc) : (s.setEnc k e).sup = s.sup := rfl
@[simp] theorem State.setEnc_pwr (k : Nat) (e : Enc) : (s.setEnc k e).pwr = s.pwr := rfl
@[simp] theorem State.setEnc_nvm (k : Nat) (e : Enc) : (s.setEnc k e).nvm = s.nvm := rfl
@[simp] theorem State.setEnc_sec (k : Nat) (e : Enc) : (s.setEnc k e).sec = s.sec := rfl
@[simp] theorem State.setEnc_safetyStat (k : Nat) (e : Enc) : (s.setEnc k e).safetyStat = s.safetyStat := rfl
@[simp] theorem State.setEnc_ue (k : Nat) (e : Enc) : (s.setEnc k e).ue = s.ue := rfl
@[simp] theorem State.setEnc_ce (k : Nat) (e : Enc) : (s.setEnc k e).ce = s.ce := rfl

/-! ## `State.setCyc` -/

@[simp] theorem State.setCyc_pending (k : Nat) (c : Cyc) : (s.setCyc k c).pending = s.pending := rfl
@[simp] theorem State.setCyc_out (k : Nat) (c : Cyc) : (s.setCyc k c).out = s.out := rfl
@[simp] theorem State.setCyc_free (k : Nat) (c : Cyc) : (s.setCyc k c).free = s.free := rfl
@[simp] theorem State.setCyc_cycles (k : Nat) (c : Cyc) : (s.setCyc k c).cycles = s.cycles := rfl
@[simp] theorem State.setCyc_grade (k : Nat) (c : Cyc) : (s.setCyc k c).grade = s.grade := rfl
@[simp] theorem State.setCyc_regs (k : Nat) (c : Cyc) : (s.setCyc k c).regs = s.regs := rfl
@[simp] theorem State.setCyc_lanes (k : Nat) (c : Cyc) : (s.setCyc k c).lanes = s.lanes := rfl
@[simp] theorem State.setCyc_cells (k : Nat) (c : Cyc) : (s.setCyc k c).cells = s.cells := rfl
@[simp] theorem State.setCyc_engines (k : Nat) (c : Cyc) : (s.setCyc k c).engines = s.engines := rfl
@[simp] theorem State.setCyc_guardSram (k : Nat) (c : Cyc) : (s.setCyc k c).guardSram = s.guardSram := rfl
@[simp] theorem State.setCyc_guardOtp (k : Nat) (c : Cyc) : (s.setCyc k c).guardOtp = s.guardOtp := rfl
@[simp] theorem State.setCyc_guardUe (k : Nat) (c : Cyc) : (s.setCyc k c).guardUe = s.guardUe := rfl
@[simp] theorem State.setCyc_guardRej (k : Nat) (c : Cyc) : (s.setCyc k c).guardRej = s.guardRej := rfl
@[simp] theorem State.setCyc_drawerMem (k : Nat) (c : Cyc) : (s.setCyc k c).drawerMem = s.drawerMem := rfl
@[simp] theorem State.setCyc_railMem (k : Nat) (c : Cyc) : (s.setCyc k c).railMem = s.railMem := rfl
@[simp] theorem State.setCyc_ledger (k : Nat) (c : Cyc) : (s.setCyc k c).ledger = s.ledger := rfl
@[simp] theorem State.setCyc_patMem (k : Nat) (c : Cyc) : (s.setCyc k c).patMem = s.patMem := rfl
@[simp] theorem State.setCyc_rails (k : Nat) (c : Cyc) : (s.setCyc k c).rails = s.rails := rfl
@[simp] theorem State.setCyc_sync (k : Nat) (c : Cyc) : (s.setCyc k c).sync = s.sync := rfl
@[simp] theorem State.setCyc_ho (k : Nat) (c : Cyc) : (s.setCyc k c).ho = s.ho := rfl
@[simp] theorem State.setCyc_time (k : Nat) (c : Cyc) : (s.setCyc k c).time = s.time := rfl
@[simp] theorem State.setCyc_encs (k : Nat) (c : Cyc) : (s.setCyc k c).encs = s.encs := rfl
@[simp] theorem State.setCyc_marks (k : Nat) (c : Cyc) : (s.setCyc k c).marks = s.marks := rfl
@[simp] theorem State.setCyc_plan (k : Nat) (c : Cyc) : (s.setCyc k c).plan = s.plan := rfl
@[simp] theorem State.setCyc_threads (k : Nat) (c : Cyc) : (s.setCyc k c).threads = s.threads := rfl
@[simp] theorem State.setCyc_evPend (k : Nat) (c : Cyc) : (s.setCyc k c).evPend = s.evPend := rfl
@[simp] theorem State.setCyc_deadlock (k : Nat) (c : Cyc) : (s.setCyc k c).deadlock = s.deadlock := rfl
@[simp] theorem State.setCyc_foreign (k : Nat) (c : Cyc) : (s.setCyc k c).foreign = s.foreign := rfl
@[simp] theorem State.setCyc_broken (k : Nat) (c : Cyc) : (s.setCyc k c).broken = s.broken := rfl
@[simp] theorem State.setCyc_routeAt (k : Nat) (c : Cyc) : (s.setCyc k c).routeAt = s.routeAt := rfl
@[simp] theorem State.setCyc_rings (k : Nat) (c : Cyc) : (s.setCyc k c).rings = s.rings := rfl
@[simp] theorem State.setCyc_ops (k : Nat) (c : Cyc) : (s.setCyc k c).ops = s.ops := rfl
@[simp] theorem State.setCyc_cqWait (k : Nat) (c : Cyc) : (s.setCyc k c).cqWait = s.cqWait := rfl
@[simp] theorem State.setCyc_eqHeld (k : Nat) (c : Cyc) : (s.setCyc k c).eqHeld = s.eqHeld := rfl
@[simp] theorem State.setCyc_eqLossy (k : Nat) (c : Cyc) : (s.setCyc k c).eqLossy = s.eqLossy := rfl
@[simp] theorem State.setCyc_host (k : Nat) (c : Cyc) : (s.setCyc k c).host = s.host := rfl
@[simp] theorem State.setCyc_extents (k : Nat) (c : Cyc) : (s.setCyc k c).extents = s.extents := rfl
@[simp] theorem State.setCyc_bobs (k : Nat) (c : Cyc) : (s.setCyc k c).bobs = s.bobs := rfl
@[simp] theorem State.setCyc_cap (k : Nat) (c : Cyc) : (s.setCyc k c).cap = s.cap := rfl
@[simp] theorem State.setCyc_twin (k : Nat) (c : Cyc) : (s.setCyc k c).twin = s.twin := rfl
@[simp] theorem State.setCyc_wcs (k : Nat) (c : Cyc) : (s.setCyc k c).wcs = s.wcs := rfl
@[simp] theorem State.setCyc_sup (k : Nat) (c : Cyc) : (s.setCyc k c).sup = s.sup := rfl
@[simp] theorem State.setCyc_pwr (k : Nat) (c : Cyc) : (s.setCyc k c).pwr = s.pwr := rfl
@[simp] theorem State.setCyc_nvm (k : Nat) (c : Cyc) : (s.setCyc k c).nvm = s.nvm := rfl
@[simp] theorem State.setCyc_sec (k : Nat) (c : Cyc) : (s.setCyc k c).sec = s.sec := rfl
@[simp] theorem State.setCyc_safetyStat (k : Nat) (c : Cyc) : (s.setCyc k c).safetyStat = s.safetyStat := rfl
@[simp] theorem State.setCyc_ue (k : Nat) (c : Cyc) : (s.setCyc k c).ue = s.ue := rfl
@[simp] theorem State.setCyc_ce (k : Nat) (c : Cyc) : (s.setCyc k c).ce = s.ce := rfl

/-! ## `State.setThr` -/

@[simp] theorem State.setThr_pending (k : Nat) (x : Thread) : (s.setThr k x).pending = s.pending := rfl
@[simp] theorem State.setThr_out (k : Nat) (x : Thread) : (s.setThr k x).out = s.out := rfl
@[simp] theorem State.setThr_free (k : Nat) (x : Thread) : (s.setThr k x).free = s.free := rfl
@[simp] theorem State.setThr_cycles (k : Nat) (x : Thread) : (s.setThr k x).cycles = s.cycles := rfl
@[simp] theorem State.setThr_grade (k : Nat) (x : Thread) : (s.setThr k x).grade = s.grade := rfl
@[simp] theorem State.setThr_regs (k : Nat) (x : Thread) : (s.setThr k x).regs = s.regs := rfl
@[simp] theorem State.setThr_lanes (k : Nat) (x : Thread) : (s.setThr k x).lanes = s.lanes := rfl
@[simp] theorem State.setThr_cells (k : Nat) (x : Thread) : (s.setThr k x).cells = s.cells := rfl
@[simp] theorem State.setThr_engines (k : Nat) (x : Thread) : (s.setThr k x).engines = s.engines := rfl
@[simp] theorem State.setThr_guardSram (k : Nat) (x : Thread) : (s.setThr k x).guardSram = s.guardSram := rfl
@[simp] theorem State.setThr_guardOtp (k : Nat) (x : Thread) : (s.setThr k x).guardOtp = s.guardOtp := rfl
@[simp] theorem State.setThr_guardUe (k : Nat) (x : Thread) : (s.setThr k x).guardUe = s.guardUe := rfl
@[simp] theorem State.setThr_guardRej (k : Nat) (x : Thread) : (s.setThr k x).guardRej = s.guardRej := rfl
@[simp] theorem State.setThr_drawerMem (k : Nat) (x : Thread) : (s.setThr k x).drawerMem = s.drawerMem := rfl
@[simp] theorem State.setThr_railMem (k : Nat) (x : Thread) : (s.setThr k x).railMem = s.railMem := rfl
@[simp] theorem State.setThr_ledger (k : Nat) (x : Thread) : (s.setThr k x).ledger = s.ledger := rfl
@[simp] theorem State.setThr_patMem (k : Nat) (x : Thread) : (s.setThr k x).patMem = s.patMem := rfl
@[simp] theorem State.setThr_rails (k : Nat) (x : Thread) : (s.setThr k x).rails = s.rails := rfl
@[simp] theorem State.setThr_sync (k : Nat) (x : Thread) : (s.setThr k x).sync = s.sync := rfl
@[simp] theorem State.setThr_ho (k : Nat) (x : Thread) : (s.setThr k x).ho = s.ho := rfl
@[simp] theorem State.setThr_time (k : Nat) (x : Thread) : (s.setThr k x).time = s.time := rfl
@[simp] theorem State.setThr_encs (k : Nat) (x : Thread) : (s.setThr k x).encs = s.encs := rfl
@[simp] theorem State.setThr_cycs (k : Nat) (x : Thread) : (s.setThr k x).cycs = s.cycs := rfl
@[simp] theorem State.setThr_marks (k : Nat) (x : Thread) : (s.setThr k x).marks = s.marks := rfl
@[simp] theorem State.setThr_plan (k : Nat) (x : Thread) : (s.setThr k x).plan = s.plan := rfl
@[simp] theorem State.setThr_evPend (k : Nat) (x : Thread) : (s.setThr k x).evPend = s.evPend := rfl
@[simp] theorem State.setThr_deadlock (k : Nat) (x : Thread) : (s.setThr k x).deadlock = s.deadlock := rfl
@[simp] theorem State.setThr_foreign (k : Nat) (x : Thread) : (s.setThr k x).foreign = s.foreign := rfl
@[simp] theorem State.setThr_broken (k : Nat) (x : Thread) : (s.setThr k x).broken = s.broken := rfl
@[simp] theorem State.setThr_routeAt (k : Nat) (x : Thread) : (s.setThr k x).routeAt = s.routeAt := rfl
@[simp] theorem State.setThr_rings (k : Nat) (x : Thread) : (s.setThr k x).rings = s.rings := rfl
@[simp] theorem State.setThr_ops (k : Nat) (x : Thread) : (s.setThr k x).ops = s.ops := rfl
@[simp] theorem State.setThr_cqWait (k : Nat) (x : Thread) : (s.setThr k x).cqWait = s.cqWait := rfl
@[simp] theorem State.setThr_eqHeld (k : Nat) (x : Thread) : (s.setThr k x).eqHeld = s.eqHeld := rfl
@[simp] theorem State.setThr_eqLossy (k : Nat) (x : Thread) : (s.setThr k x).eqLossy = s.eqLossy := rfl
@[simp] theorem State.setThr_host (k : Nat) (x : Thread) : (s.setThr k x).host = s.host := rfl
@[simp] theorem State.setThr_extents (k : Nat) (x : Thread) : (s.setThr k x).extents = s.extents := rfl
@[simp] theorem State.setThr_bobs (k : Nat) (x : Thread) : (s.setThr k x).bobs = s.bobs := rfl
@[simp] theorem State.setThr_cap (k : Nat) (x : Thread) : (s.setThr k x).cap = s.cap := rfl
@[simp] theorem State.setThr_twin (k : Nat) (x : Thread) : (s.setThr k x).twin = s.twin := rfl
@[simp] theorem State.setThr_wcs (k : Nat) (x : Thread) : (s.setThr k x).wcs = s.wcs := rfl
@[simp] theorem State.setThr_sup (k : Nat) (x : Thread) : (s.setThr k x).sup = s.sup := rfl
@[simp] theorem State.setThr_pwr (k : Nat) (x : Thread) : (s.setThr k x).pwr = s.pwr := rfl
@[simp] theorem State.setThr_nvm (k : Nat) (x : Thread) : (s.setThr k x).nvm = s.nvm := rfl
@[simp] theorem State.setThr_sec (k : Nat) (x : Thread) : (s.setThr k x).sec = s.sec := rfl
@[simp] theorem State.setThr_safetyStat (k : Nat) (x : Thread) : (s.setThr k x).safetyStat = s.safetyStat := rfl
@[simp] theorem State.setThr_ue (k : Nat) (x : Thread) : (s.setThr k x).ue = s.ue := rfl
@[simp] theorem State.setThr_ce (k : Nat) (x : Thread) : (s.setThr k x).ce = s.ce := rfl

@[simp] theorem State.modThr_eq (k : Nat) (f : Thread → Thread) : s.modThr k f = s.setThr k (f (s.thr k)) := rfl

/-! ## `State.setRing` -/

@[simp] theorem State.setRing_pending (k : Nat) (r : Ring) : (s.setRing k r).pending = s.pending := rfl
@[simp] theorem State.setRing_out (k : Nat) (r : Ring) : (s.setRing k r).out = s.out := rfl
@[simp] theorem State.setRing_free (k : Nat) (r : Ring) : (s.setRing k r).free = s.free := rfl
@[simp] theorem State.setRing_cycles (k : Nat) (r : Ring) : (s.setRing k r).cycles = s.cycles := rfl
@[simp] theorem State.setRing_grade (k : Nat) (r : Ring) : (s.setRing k r).grade = s.grade := rfl
@[simp] theorem State.setRing_regs (k : Nat) (r : Ring) : (s.setRing k r).regs = s.regs := rfl
@[simp] theorem State.setRing_lanes (k : Nat) (r : Ring) : (s.setRing k r).lanes = s.lanes := rfl
@[simp] theorem State.setRing_cells (k : Nat) (r : Ring) : (s.setRing k r).cells = s.cells := rfl
@[simp] theorem State.setRing_engines (k : Nat) (r : Ring) : (s.setRing k r).engines = s.engines := rfl
@[simp] theorem State.setRing_guardSram (k : Nat) (r : Ring) : (s.setRing k r).guardSram = s.guardSram := rfl
@[simp] theorem State.setRing_guardOtp (k : Nat) (r : Ring) : (s.setRing k r).guardOtp = s.guardOtp := rfl
@[simp] theorem State.setRing_guardUe (k : Nat) (r : Ring) : (s.setRing k r).guardUe = s.guardUe := rfl
@[simp] theorem State.setRing_guardRej (k : Nat) (r : Ring) : (s.setRing k r).guardRej = s.guardRej := rfl
@[simp] theorem State.setRing_drawerMem (k : Nat) (r : Ring) : (s.setRing k r).drawerMem = s.drawerMem := rfl
@[simp] theorem State.setRing_railMem (k : Nat) (r : Ring) : (s.setRing k r).railMem = s.railMem := rfl
@[simp] theorem State.setRing_ledger (k : Nat) (r : Ring) : (s.setRing k r).ledger = s.ledger := rfl
@[simp] theorem State.setRing_patMem (k : Nat) (r : Ring) : (s.setRing k r).patMem = s.patMem := rfl
@[simp] theorem State.setRing_rails (k : Nat) (r : Ring) : (s.setRing k r).rails = s.rails := rfl
@[simp] theorem State.setRing_sync (k : Nat) (r : Ring) : (s.setRing k r).sync = s.sync := rfl
@[simp] theorem State.setRing_ho (k : Nat) (r : Ring) : (s.setRing k r).ho = s.ho := rfl
@[simp] theorem State.setRing_time (k : Nat) (r : Ring) : (s.setRing k r).time = s.time := rfl
@[simp] theorem State.setRing_encs (k : Nat) (r : Ring) : (s.setRing k r).encs = s.encs := rfl
@[simp] theorem State.setRing_cycs (k : Nat) (r : Ring) : (s.setRing k r).cycs = s.cycs := rfl
@[simp] theorem State.setRing_marks (k : Nat) (r : Ring) : (s.setRing k r).marks = s.marks := rfl
@[simp] theorem State.setRing_plan (k : Nat) (r : Ring) : (s.setRing k r).plan = s.plan := rfl
@[simp] theorem State.setRing_threads (k : Nat) (r : Ring) : (s.setRing k r).threads = s.threads := rfl
@[simp] theorem State.setRing_evPend (k : Nat) (r : Ring) : (s.setRing k r).evPend = s.evPend := rfl
@[simp] theorem State.setRing_deadlock (k : Nat) (r : Ring) : (s.setRing k r).deadlock = s.deadlock := rfl
@[simp] theorem State.setRing_foreign (k : Nat) (r : Ring) : (s.setRing k r).foreign = s.foreign := rfl
@[simp] theorem State.setRing_broken (k : Nat) (r : Ring) : (s.setRing k r).broken = s.broken := rfl
@[simp] theorem State.setRing_routeAt (k : Nat) (r : Ring) : (s.setRing k r).routeAt = s.routeAt := rfl
@[simp] theorem State.setRing_ops (k : Nat) (r : Ring) : (s.setRing k r).ops = s.ops := rfl
@[simp] theorem State.setRing_cqWait (k : Nat) (r : Ring) : (s.setRing k r).cqWait = s.cqWait := rfl
@[simp] theorem State.setRing_eqHeld (k : Nat) (r : Ring) : (s.setRing k r).eqHeld = s.eqHeld := rfl
@[simp] theorem State.setRing_eqLossy (k : Nat) (r : Ring) : (s.setRing k r).eqLossy = s.eqLossy := rfl
@[simp] theorem State.setRing_host (k : Nat) (r : Ring) : (s.setRing k r).host = s.host := rfl
@[simp] theorem State.setRing_extents (k : Nat) (r : Ring) : (s.setRing k r).extents = s.extents := rfl
@[simp] theorem State.setRing_bobs (k : Nat) (r : Ring) : (s.setRing k r).bobs = s.bobs := rfl
@[simp] theorem State.setRing_cap (k : Nat) (r : Ring) : (s.setRing k r).cap = s.cap := rfl
@[simp] theorem State.setRing_twin (k : Nat) (r : Ring) : (s.setRing k r).twin = s.twin := rfl
@[simp] theorem State.setRing_wcs (k : Nat) (r : Ring) : (s.setRing k r).wcs = s.wcs := rfl
@[simp] theorem State.setRing_sup (k : Nat) (r : Ring) : (s.setRing k r).sup = s.sup := rfl
@[simp] theorem State.setRing_pwr (k : Nat) (r : Ring) : (s.setRing k r).pwr = s.pwr := rfl
@[simp] theorem State.setRing_nvm (k : Nat) (r : Ring) : (s.setRing k r).nvm = s.nvm := rfl
@[simp] theorem State.setRing_sec (k : Nat) (r : Ring) : (s.setRing k r).sec = s.sec := rfl
@[simp] theorem State.setRing_safetyStat (k : Nat) (r : Ring) : (s.setRing k r).safetyStat = s.safetyStat := rfl
@[simp] theorem State.setRing_ue (k : Nat) (r : Ring) : (s.setRing k r).ue = s.ue := rfl
@[simp] theorem State.setRing_ce (k : Nat) (r : Ring) : (s.setRing k r).ce = s.ce := rfl

@[simp] theorem State.modRing_eq (k : Nat) (f : Ring → Ring) : s.modRing k f = s.setRing k (f (s.ring k)) := rfl

/-! ## `State.setBob` -/

@[simp] theorem State.setBob_pending (b : Nat) (x : Bobbin) : (s.setBob b x).pending = s.pending := rfl
@[simp] theorem State.setBob_out (b : Nat) (x : Bobbin) : (s.setBob b x).out = s.out := rfl
@[simp] theorem State.setBob_free (b : Nat) (x : Bobbin) : (s.setBob b x).free = s.free := rfl
@[simp] theorem State.setBob_cycles (b : Nat) (x : Bobbin) : (s.setBob b x).cycles = s.cycles := rfl
@[simp] theorem State.setBob_grade (b : Nat) (x : Bobbin) : (s.setBob b x).grade = s.grade := rfl
@[simp] theorem State.setBob_regs (b : Nat) (x : Bobbin) : (s.setBob b x).regs = s.regs := rfl
@[simp] theorem State.setBob_lanes (b : Nat) (x : Bobbin) : (s.setBob b x).lanes = s.lanes := rfl
@[simp] theorem State.setBob_cells (b : Nat) (x : Bobbin) : (s.setBob b x).cells = s.cells := rfl
@[simp] theorem State.setBob_engines (b : Nat) (x : Bobbin) : (s.setBob b x).engines = s.engines := rfl
@[simp] theorem State.setBob_guardSram (b : Nat) (x : Bobbin) : (s.setBob b x).guardSram = s.guardSram := rfl
@[simp] theorem State.setBob_guardOtp (b : Nat) (x : Bobbin) : (s.setBob b x).guardOtp = s.guardOtp := rfl
@[simp] theorem State.setBob_guardUe (b : Nat) (x : Bobbin) : (s.setBob b x).guardUe = s.guardUe := rfl
@[simp] theorem State.setBob_guardRej (b : Nat) (x : Bobbin) : (s.setBob b x).guardRej = s.guardRej := rfl
@[simp] theorem State.setBob_drawerMem (b : Nat) (x : Bobbin) : (s.setBob b x).drawerMem = s.drawerMem := rfl
@[simp] theorem State.setBob_railMem (b : Nat) (x : Bobbin) : (s.setBob b x).railMem = s.railMem := rfl
@[simp] theorem State.setBob_ledger (b : Nat) (x : Bobbin) : (s.setBob b x).ledger = s.ledger := rfl
@[simp] theorem State.setBob_patMem (b : Nat) (x : Bobbin) : (s.setBob b x).patMem = s.patMem := rfl
@[simp] theorem State.setBob_rails (b : Nat) (x : Bobbin) : (s.setBob b x).rails = s.rails := rfl
@[simp] theorem State.setBob_sync (b : Nat) (x : Bobbin) : (s.setBob b x).sync = s.sync := rfl
@[simp] theorem State.setBob_ho (b : Nat) (x : Bobbin) : (s.setBob b x).ho = s.ho := rfl
@[simp] theorem State.setBob_time (b : Nat) (x : Bobbin) : (s.setBob b x).time = s.time := rfl
@[simp] theorem State.setBob_encs (b : Nat) (x : Bobbin) : (s.setBob b x).encs = s.encs := rfl
@[simp] theorem State.setBob_cycs (b : Nat) (x : Bobbin) : (s.setBob b x).cycs = s.cycs := rfl
@[simp] theorem State.setBob_marks (b : Nat) (x : Bobbin) : (s.setBob b x).marks = s.marks := rfl
@[simp] theorem State.setBob_plan (b : Nat) (x : Bobbin) : (s.setBob b x).plan = s.plan := rfl
@[simp] theorem State.setBob_threads (b : Nat) (x : Bobbin) : (s.setBob b x).threads = s.threads := rfl
@[simp] theorem State.setBob_evPend (b : Nat) (x : Bobbin) : (s.setBob b x).evPend = s.evPend := rfl
@[simp] theorem State.setBob_deadlock (b : Nat) (x : Bobbin) : (s.setBob b x).deadlock = s.deadlock := rfl
@[simp] theorem State.setBob_foreign (b : Nat) (x : Bobbin) : (s.setBob b x).foreign = s.foreign := rfl
@[simp] theorem State.setBob_broken (b : Nat) (x : Bobbin) : (s.setBob b x).broken = s.broken := rfl
@[simp] theorem State.setBob_routeAt (b : Nat) (x : Bobbin) : (s.setBob b x).routeAt = s.routeAt := rfl
@[simp] theorem State.setBob_rings (b : Nat) (x : Bobbin) : (s.setBob b x).rings = s.rings := rfl
@[simp] theorem State.setBob_ops (b : Nat) (x : Bobbin) : (s.setBob b x).ops = s.ops := rfl
@[simp] theorem State.setBob_cqWait (b : Nat) (x : Bobbin) : (s.setBob b x).cqWait = s.cqWait := rfl
@[simp] theorem State.setBob_eqHeld (b : Nat) (x : Bobbin) : (s.setBob b x).eqHeld = s.eqHeld := rfl
@[simp] theorem State.setBob_eqLossy (b : Nat) (x : Bobbin) : (s.setBob b x).eqLossy = s.eqLossy := rfl
@[simp] theorem State.setBob_host (b : Nat) (x : Bobbin) : (s.setBob b x).host = s.host := rfl
@[simp] theorem State.setBob_extents (b : Nat) (x : Bobbin) : (s.setBob b x).extents = s.extents := rfl
@[simp] theorem State.setBob_cap (b : Nat) (x : Bobbin) : (s.setBob b x).cap = s.cap := rfl
@[simp] theorem State.setBob_twin (b : Nat) (x : Bobbin) : (s.setBob b x).twin = s.twin := rfl
@[simp] theorem State.setBob_wcs (b : Nat) (x : Bobbin) : (s.setBob b x).wcs = s.wcs := rfl
@[simp] theorem State.setBob_sup (b : Nat) (x : Bobbin) : (s.setBob b x).sup = s.sup := rfl
@[simp] theorem State.setBob_pwr (b : Nat) (x : Bobbin) : (s.setBob b x).pwr = s.pwr := rfl
@[simp] theorem State.setBob_nvm (b : Nat) (x : Bobbin) : (s.setBob b x).nvm = s.nvm := rfl
@[simp] theorem State.setBob_sec (b : Nat) (x : Bobbin) : (s.setBob b x).sec = s.sec := rfl
@[simp] theorem State.setBob_safetyStat (b : Nat) (x : Bobbin) : (s.setBob b x).safetyStat = s.safetyStat := rfl
@[simp] theorem State.setBob_ue (b : Nat) (x : Bobbin) : (s.setBob b x).ue = s.ue := rfl
@[simp] theorem State.setBob_ce (b : Nat) (x : Bobbin) : (s.setBob b x).ce = s.ce := rfl

@[simp] theorem State.modBob_eq (b : Nat) (f : Bobbin → Bobbin) : s.modBob b f = s.setBob b (f (s.bob b)) := rfl

/-! ## `State.setWc` -/

@[simp] theorem State.setWc_pending (i : Nat) (w : Wc) : (s.setWc i w).pending = s.pending := rfl
@[simp] theorem State.setWc_out (i : Nat) (w : Wc) : (s.setWc i w).out = s.out := rfl
@[simp] theorem State.setWc_free (i : Nat) (w : Wc) : (s.setWc i w).free = s.free := rfl
@[simp] theorem State.setWc_cycles (i : Nat) (w : Wc) : (s.setWc i w).cycles = s.cycles := rfl
@[simp] theorem State.setWc_grade (i : Nat) (w : Wc) : (s.setWc i w).grade = s.grade := rfl
@[simp] theorem State.setWc_regs (i : Nat) (w : Wc) : (s.setWc i w).regs = s.regs := rfl
@[simp] theorem State.setWc_lanes (i : Nat) (w : Wc) : (s.setWc i w).lanes = s.lanes := rfl
@[simp] theorem State.setWc_cells (i : Nat) (w : Wc) : (s.setWc i w).cells = s.cells := rfl
@[simp] theorem State.setWc_engines (i : Nat) (w : Wc) : (s.setWc i w).engines = s.engines := rfl
@[simp] theorem State.setWc_guardSram (i : Nat) (w : Wc) : (s.setWc i w).guardSram = s.guardSram := rfl
@[simp] theorem State.setWc_guardOtp (i : Nat) (w : Wc) : (s.setWc i w).guardOtp = s.guardOtp := rfl
@[simp] theorem State.setWc_guardUe (i : Nat) (w : Wc) : (s.setWc i w).guardUe = s.guardUe := rfl
@[simp] theorem State.setWc_guardRej (i : Nat) (w : Wc) : (s.setWc i w).guardRej = s.guardRej := rfl
@[simp] theorem State.setWc_drawerMem (i : Nat) (w : Wc) : (s.setWc i w).drawerMem = s.drawerMem := rfl
@[simp] theorem State.setWc_railMem (i : Nat) (w : Wc) : (s.setWc i w).railMem = s.railMem := rfl
@[simp] theorem State.setWc_ledger (i : Nat) (w : Wc) : (s.setWc i w).ledger = s.ledger := rfl
@[simp] theorem State.setWc_patMem (i : Nat) (w : Wc) : (s.setWc i w).patMem = s.patMem := rfl
@[simp] theorem State.setWc_rails (i : Nat) (w : Wc) : (s.setWc i w).rails = s.rails := rfl
@[simp] theorem State.setWc_sync (i : Nat) (w : Wc) : (s.setWc i w).sync = s.sync := rfl
@[simp] theorem State.setWc_ho (i : Nat) (w : Wc) : (s.setWc i w).ho = s.ho := rfl
@[simp] theorem State.setWc_time (i : Nat) (w : Wc) : (s.setWc i w).time = s.time := rfl
@[simp] theorem State.setWc_encs (i : Nat) (w : Wc) : (s.setWc i w).encs = s.encs := rfl
@[simp] theorem State.setWc_cycs (i : Nat) (w : Wc) : (s.setWc i w).cycs = s.cycs := rfl
@[simp] theorem State.setWc_marks (i : Nat) (w : Wc) : (s.setWc i w).marks = s.marks := rfl
@[simp] theorem State.setWc_plan (i : Nat) (w : Wc) : (s.setWc i w).plan = s.plan := rfl
@[simp] theorem State.setWc_threads (i : Nat) (w : Wc) : (s.setWc i w).threads = s.threads := rfl
@[simp] theorem State.setWc_evPend (i : Nat) (w : Wc) : (s.setWc i w).evPend = s.evPend := rfl
@[simp] theorem State.setWc_deadlock (i : Nat) (w : Wc) : (s.setWc i w).deadlock = s.deadlock := rfl
@[simp] theorem State.setWc_foreign (i : Nat) (w : Wc) : (s.setWc i w).foreign = s.foreign := rfl
@[simp] theorem State.setWc_broken (i : Nat) (w : Wc) : (s.setWc i w).broken = s.broken := rfl
@[simp] theorem State.setWc_routeAt (i : Nat) (w : Wc) : (s.setWc i w).routeAt = s.routeAt := rfl
@[simp] theorem State.setWc_rings (i : Nat) (w : Wc) : (s.setWc i w).rings = s.rings := rfl
@[simp] theorem State.setWc_ops (i : Nat) (w : Wc) : (s.setWc i w).ops = s.ops := rfl
@[simp] theorem State.setWc_cqWait (i : Nat) (w : Wc) : (s.setWc i w).cqWait = s.cqWait := rfl
@[simp] theorem State.setWc_eqHeld (i : Nat) (w : Wc) : (s.setWc i w).eqHeld = s.eqHeld := rfl
@[simp] theorem State.setWc_eqLossy (i : Nat) (w : Wc) : (s.setWc i w).eqLossy = s.eqLossy := rfl
@[simp] theorem State.setWc_host (i : Nat) (w : Wc) : (s.setWc i w).host = s.host := rfl
@[simp] theorem State.setWc_extents (i : Nat) (w : Wc) : (s.setWc i w).extents = s.extents := rfl
@[simp] theorem State.setWc_bobs (i : Nat) (w : Wc) : (s.setWc i w).bobs = s.bobs := rfl
@[simp] theorem State.setWc_cap (i : Nat) (w : Wc) : (s.setWc i w).cap = s.cap := rfl
@[simp] theorem State.setWc_twin (i : Nat) (w : Wc) : (s.setWc i w).twin = s.twin := rfl
@[simp] theorem State.setWc_sup (i : Nat) (w : Wc) : (s.setWc i w).sup = s.sup := rfl
@[simp] theorem State.setWc_pwr (i : Nat) (w : Wc) : (s.setWc i w).pwr = s.pwr := rfl
@[simp] theorem State.setWc_nvm (i : Nat) (w : Wc) : (s.setWc i w).nvm = s.nvm := rfl
@[simp] theorem State.setWc_sec (i : Nat) (w : Wc) : (s.setWc i w).sec = s.sec := rfl
@[simp] theorem State.setWc_safetyStat (i : Nat) (w : Wc) : (s.setWc i w).safetyStat = s.safetyStat := rfl
@[simp] theorem State.setWc_ue (i : Nat) (w : Wc) : (s.setWc i w).ue = s.ue := rfl
@[simp] theorem State.setWc_ce (i : Nat) (w : Wc) : (s.setWc i w).ce = s.ce := rfl

/-! ## `State.setReg` -/

@[simp] theorem State.setReg_pending (off ix : Nat) (v : Word) : (s.setReg off ix v).pending = s.pending := rfl
@[simp] theorem State.setReg_out (off ix : Nat) (v : Word) : (s.setReg off ix v).out = s.out := rfl
@[simp] theorem State.setReg_free (off ix : Nat) (v : Word) : (s.setReg off ix v).free = s.free := rfl
@[simp] theorem State.setReg_cycles (off ix : Nat) (v : Word) : (s.setReg off ix v).cycles = s.cycles := rfl
@[simp] theorem State.setReg_grade (off ix : Nat) (v : Word) : (s.setReg off ix v).grade = s.grade := rfl
@[simp] theorem State.setReg_lanes (off ix : Nat) (v : Word) : (s.setReg off ix v).lanes = s.lanes := rfl
@[simp] theorem State.setReg_cells (off ix : Nat) (v : Word) : (s.setReg off ix v).cells = s.cells := rfl
@[simp] theorem State.setReg_engines (off ix : Nat) (v : Word) : (s.setReg off ix v).engines = s.engines := rfl
@[simp] theorem State.setReg_guardSram (off ix : Nat) (v : Word) : (s.setReg off ix v).guardSram = s.guardSram := rfl
@[simp] theorem State.setReg_guardOtp (off ix : Nat) (v : Word) : (s.setReg off ix v).guardOtp = s.guardOtp := rfl
@[simp] theorem State.setReg_guardUe (off ix : Nat) (v : Word) : (s.setReg off ix v).guardUe = s.guardUe := rfl
@[simp] theorem State.setReg_guardRej (off ix : Nat) (v : Word) : (s.setReg off ix v).guardRej = s.guardRej := rfl
@[simp] theorem State.setReg_drawerMem (off ix : Nat) (v : Word) : (s.setReg off ix v).drawerMem = s.drawerMem := rfl
@[simp] theorem State.setReg_railMem (off ix : Nat) (v : Word) : (s.setReg off ix v).railMem = s.railMem := rfl
@[simp] theorem State.setReg_ledger (off ix : Nat) (v : Word) : (s.setReg off ix v).ledger = s.ledger := rfl
@[simp] theorem State.setReg_patMem (off ix : Nat) (v : Word) : (s.setReg off ix v).patMem = s.patMem := rfl
@[simp] theorem State.setReg_rails (off ix : Nat) (v : Word) : (s.setReg off ix v).rails = s.rails := rfl
@[simp] theorem State.setReg_sync (off ix : Nat) (v : Word) : (s.setReg off ix v).sync = s.sync := rfl
@[simp] theorem State.setReg_ho (off ix : Nat) (v : Word) : (s.setReg off ix v).ho = s.ho := rfl
@[simp] theorem State.setReg_time (off ix : Nat) (v : Word) : (s.setReg off ix v).time = s.time := rfl
@[simp] theorem State.setReg_encs (off ix : Nat) (v : Word) : (s.setReg off ix v).encs = s.encs := rfl
@[simp] theorem State.setReg_cycs (off ix : Nat) (v : Word) : (s.setReg off ix v).cycs = s.cycs := rfl
@[simp] theorem State.setReg_marks (off ix : Nat) (v : Word) : (s.setReg off ix v).marks = s.marks := rfl
@[simp] theorem State.setReg_plan (off ix : Nat) (v : Word) : (s.setReg off ix v).plan = s.plan := rfl
@[simp] theorem State.setReg_threads (off ix : Nat) (v : Word) : (s.setReg off ix v).threads = s.threads := rfl
@[simp] theorem State.setReg_evPend (off ix : Nat) (v : Word) : (s.setReg off ix v).evPend = s.evPend := rfl
@[simp] theorem State.setReg_deadlock (off ix : Nat) (v : Word) : (s.setReg off ix v).deadlock = s.deadlock := rfl
@[simp] theorem State.setReg_foreign (off ix : Nat) (v : Word) : (s.setReg off ix v).foreign = s.foreign := rfl
@[simp] theorem State.setReg_broken (off ix : Nat) (v : Word) : (s.setReg off ix v).broken = s.broken := rfl
@[simp] theorem State.setReg_routeAt (off ix : Nat) (v : Word) : (s.setReg off ix v).routeAt = s.routeAt := rfl
@[simp] theorem State.setReg_rings (off ix : Nat) (v : Word) : (s.setReg off ix v).rings = s.rings := rfl
@[simp] theorem State.setReg_ops (off ix : Nat) (v : Word) : (s.setReg off ix v).ops = s.ops := rfl
@[simp] theorem State.setReg_cqWait (off ix : Nat) (v : Word) : (s.setReg off ix v).cqWait = s.cqWait := rfl
@[simp] theorem State.setReg_eqHeld (off ix : Nat) (v : Word) : (s.setReg off ix v).eqHeld = s.eqHeld := rfl
@[simp] theorem State.setReg_eqLossy (off ix : Nat) (v : Word) : (s.setReg off ix v).eqLossy = s.eqLossy := rfl
@[simp] theorem State.setReg_host (off ix : Nat) (v : Word) : (s.setReg off ix v).host = s.host := rfl
@[simp] theorem State.setReg_extents (off ix : Nat) (v : Word) : (s.setReg off ix v).extents = s.extents := rfl
@[simp] theorem State.setReg_bobs (off ix : Nat) (v : Word) : (s.setReg off ix v).bobs = s.bobs := rfl
@[simp] theorem State.setReg_cap (off ix : Nat) (v : Word) : (s.setReg off ix v).cap = s.cap := rfl
@[simp] theorem State.setReg_twin (off ix : Nat) (v : Word) : (s.setReg off ix v).twin = s.twin := rfl
@[simp] theorem State.setReg_wcs (off ix : Nat) (v : Word) : (s.setReg off ix v).wcs = s.wcs := rfl
@[simp] theorem State.setReg_sup (off ix : Nat) (v : Word) : (s.setReg off ix v).sup = s.sup := rfl
@[simp] theorem State.setReg_pwr (off ix : Nat) (v : Word) : (s.setReg off ix v).pwr = s.pwr := rfl
@[simp] theorem State.setReg_nvm (off ix : Nat) (v : Word) : (s.setReg off ix v).nvm = s.nvm := rfl
@[simp] theorem State.setReg_sec (off ix : Nat) (v : Word) : (s.setReg off ix v).sec = s.sec := rfl
@[simp] theorem State.setReg_safetyStat (off ix : Nat) (v : Word) : (s.setReg off ix v).safetyStat = s.safetyStat := rfl
@[simp] theorem State.setReg_ue (off ix : Nat) (v : Word) : (s.setReg off ix v).ue = s.ue := rfl
@[simp] theorem State.setReg_ce (off ix : Nat) (v : Word) : (s.setReg off ix v).ce = s.ce := rfl

/-! ## `State.ledgerWrite` -/

@[simp] theorem State.ledgerWrite_pending (a : Nat) (b : List Byte) : (s.ledgerWrite a b).pending = s.pending := rfl
@[simp] theorem State.ledgerWrite_out (a : Nat) (b : List Byte) : (s.ledgerWrite a b).out = s.out := rfl
@[simp] theorem State.ledgerWrite_free (a : Nat) (b : List Byte) : (s.ledgerWrite a b).free = s.free := rfl
@[simp] theorem State.ledgerWrite_cycles (a : Nat) (b : List Byte) : (s.ledgerWrite a b).cycles = s.cycles := rfl
@[simp] theorem State.ledgerWrite_grade (a : Nat) (b : List Byte) : (s.ledgerWrite a b).grade = s.grade := rfl
@[simp] theorem State.ledgerWrite_regs (a : Nat) (b : List Byte) : (s.ledgerWrite a b).regs = s.regs := rfl
@[simp] theorem State.ledgerWrite_lanes (a : Nat) (b : List Byte) : (s.ledgerWrite a b).lanes = s.lanes := rfl
@[simp] theorem State.ledgerWrite_cells (a : Nat) (b : List Byte) : (s.ledgerWrite a b).cells = s.cells := rfl
@[simp] theorem State.ledgerWrite_engines (a : Nat) (b : List Byte) : (s.ledgerWrite a b).engines = s.engines := rfl
@[simp] theorem State.ledgerWrite_guardSram (a : Nat) (b : List Byte) : (s.ledgerWrite a b).guardSram = s.guardSram := rfl
@[simp] theorem State.ledgerWrite_guardOtp (a : Nat) (b : List Byte) : (s.ledgerWrite a b).guardOtp = s.guardOtp := rfl
@[simp] theorem State.ledgerWrite_guardUe (a : Nat) (b : List Byte) : (s.ledgerWrite a b).guardUe = s.guardUe := rfl
@[simp] theorem State.ledgerWrite_guardRej (a : Nat) (b : List Byte) : (s.ledgerWrite a b).guardRej = s.guardRej := rfl
@[simp] theorem State.ledgerWrite_drawerMem (a : Nat) (b : List Byte) : (s.ledgerWrite a b).drawerMem = s.drawerMem := rfl
@[simp] theorem State.ledgerWrite_railMem (a : Nat) (b : List Byte) : (s.ledgerWrite a b).railMem = s.railMem := rfl
@[simp] theorem State.ledgerWrite_patMem (a : Nat) (b : List Byte) : (s.ledgerWrite a b).patMem = s.patMem := rfl
@[simp] theorem State.ledgerWrite_rails (a : Nat) (b : List Byte) : (s.ledgerWrite a b).rails = s.rails := rfl
@[simp] theorem State.ledgerWrite_sync (a : Nat) (b : List Byte) : (s.ledgerWrite a b).sync = s.sync := rfl
@[simp] theorem State.ledgerWrite_ho (a : Nat) (b : List Byte) : (s.ledgerWrite a b).ho = s.ho := rfl
@[simp] theorem State.ledgerWrite_time (a : Nat) (b : List Byte) : (s.ledgerWrite a b).time = s.time := rfl
@[simp] theorem State.ledgerWrite_encs (a : Nat) (b : List Byte) : (s.ledgerWrite a b).encs = s.encs := rfl
@[simp] theorem State.ledgerWrite_cycs (a : Nat) (b : List Byte) : (s.ledgerWrite a b).cycs = s.cycs := rfl
@[simp] theorem State.ledgerWrite_marks (a : Nat) (b : List Byte) : (s.ledgerWrite a b).marks = s.marks := rfl
@[simp] theorem State.ledgerWrite_plan (a : Nat) (b : List Byte) : (s.ledgerWrite a b).plan = s.plan := rfl
@[simp] theorem State.ledgerWrite_threads (a : Nat) (b : List Byte) : (s.ledgerWrite a b).threads = s.threads := rfl
@[simp] theorem State.ledgerWrite_evPend (a : Nat) (b : List Byte) : (s.ledgerWrite a b).evPend = s.evPend := rfl
@[simp] theorem State.ledgerWrite_deadlock (a : Nat) (b : List Byte) : (s.ledgerWrite a b).deadlock = s.deadlock := rfl
@[simp] theorem State.ledgerWrite_foreign (a : Nat) (b : List Byte) : (s.ledgerWrite a b).foreign = s.foreign := rfl
@[simp] theorem State.ledgerWrite_broken (a : Nat) (b : List Byte) : (s.ledgerWrite a b).broken = s.broken := rfl
@[simp] theorem State.ledgerWrite_routeAt (a : Nat) (b : List Byte) : (s.ledgerWrite a b).routeAt = s.routeAt := rfl
@[simp] theorem State.ledgerWrite_rings (a : Nat) (b : List Byte) : (s.ledgerWrite a b).rings = s.rings := rfl
@[simp] theorem State.ledgerWrite_ops (a : Nat) (b : List Byte) : (s.ledgerWrite a b).ops = s.ops := rfl
@[simp] theorem State.ledgerWrite_cqWait (a : Nat) (b : List Byte) : (s.ledgerWrite a b).cqWait = s.cqWait := rfl
@[simp] theorem State.ledgerWrite_eqHeld (a : Nat) (b : List Byte) : (s.ledgerWrite a b).eqHeld = s.eqHeld := rfl
@[simp] theorem State.ledgerWrite_eqLossy (a : Nat) (b : List Byte) : (s.ledgerWrite a b).eqLossy = s.eqLossy := rfl
@[simp] theorem State.ledgerWrite_host (a : Nat) (b : List Byte) : (s.ledgerWrite a b).host = s.host := rfl
@[simp] theorem State.ledgerWrite_extents (a : Nat) (b : List Byte) : (s.ledgerWrite a b).extents = s.extents := rfl
@[simp] theorem State.ledgerWrite_bobs (a : Nat) (b : List Byte) : (s.ledgerWrite a b).bobs = s.bobs := rfl
@[simp] theorem State.ledgerWrite_cap (a : Nat) (b : List Byte) : (s.ledgerWrite a b).cap = s.cap := rfl
@[simp] theorem State.ledgerWrite_twin (a : Nat) (b : List Byte) : (s.ledgerWrite a b).twin = s.twin := rfl
@[simp] theorem State.ledgerWrite_wcs (a : Nat) (b : List Byte) : (s.ledgerWrite a b).wcs = s.wcs := rfl
@[simp] theorem State.ledgerWrite_sup (a : Nat) (b : List Byte) : (s.ledgerWrite a b).sup = s.sup := rfl
@[simp] theorem State.ledgerWrite_pwr (a : Nat) (b : List Byte) : (s.ledgerWrite a b).pwr = s.pwr := rfl
@[simp] theorem State.ledgerWrite_nvm (a : Nat) (b : List Byte) : (s.ledgerWrite a b).nvm = s.nvm := rfl
@[simp] theorem State.ledgerWrite_sec (a : Nat) (b : List Byte) : (s.ledgerWrite a b).sec = s.sec := rfl
@[simp] theorem State.ledgerWrite_safetyStat (a : Nat) (b : List Byte) : (s.ledgerWrite a b).safetyStat = s.safetyStat := rfl
@[simp] theorem State.ledgerWrite_ue (a : Nat) (b : List Byte) : (s.ledgerWrite a b).ue = s.ue := rfl
@[simp] theorem State.ledgerWrite_ce (a : Nat) (b : List Byte) : (s.ledgerWrite a b).ce = s.ce := rfl

/-! ## `State.rmPut` -/

@[simp] theorem State.rmPut_pending (m off n v : Nat) : (s.rmPut m off n v).pending = s.pending := rfl
@[simp] theorem State.rmPut_out (m off n v : Nat) : (s.rmPut m off n v).out = s.out := rfl
@[simp] theorem State.rmPut_free (m off n v : Nat) : (s.rmPut m off n v).free = s.free := rfl
@[simp] theorem State.rmPut_cycles (m off n v : Nat) : (s.rmPut m off n v).cycles = s.cycles := rfl
@[simp] theorem State.rmPut_grade (m off n v : Nat) : (s.rmPut m off n v).grade = s.grade := rfl
@[simp] theorem State.rmPut_regs (m off n v : Nat) : (s.rmPut m off n v).regs = s.regs := rfl
@[simp] theorem State.rmPut_lanes (m off n v : Nat) : (s.rmPut m off n v).lanes = s.lanes := rfl
@[simp] theorem State.rmPut_cells (m off n v : Nat) : (s.rmPut m off n v).cells = s.cells := rfl
@[simp] theorem State.rmPut_engines (m off n v : Nat) : (s.rmPut m off n v).engines = s.engines := rfl
@[simp] theorem State.rmPut_guardSram (m off n v : Nat) : (s.rmPut m off n v).guardSram = s.guardSram := rfl
@[simp] theorem State.rmPut_guardOtp (m off n v : Nat) : (s.rmPut m off n v).guardOtp = s.guardOtp := rfl
@[simp] theorem State.rmPut_guardUe (m off n v : Nat) : (s.rmPut m off n v).guardUe = s.guardUe := rfl
@[simp] theorem State.rmPut_guardRej (m off n v : Nat) : (s.rmPut m off n v).guardRej = s.guardRej := rfl
@[simp] theorem State.rmPut_drawerMem (m off n v : Nat) : (s.rmPut m off n v).drawerMem = s.drawerMem := rfl
@[simp] theorem State.rmPut_ledger (m off n v : Nat) : (s.rmPut m off n v).ledger = s.ledger := rfl
@[simp] theorem State.rmPut_patMem (m off n v : Nat) : (s.rmPut m off n v).patMem = s.patMem := rfl
@[simp] theorem State.rmPut_rails (m off n v : Nat) : (s.rmPut m off n v).rails = s.rails := rfl
@[simp] theorem State.rmPut_sync (m off n v : Nat) : (s.rmPut m off n v).sync = s.sync := rfl
@[simp] theorem State.rmPut_ho (m off n v : Nat) : (s.rmPut m off n v).ho = s.ho := rfl
@[simp] theorem State.rmPut_time (m off n v : Nat) : (s.rmPut m off n v).time = s.time := rfl
@[simp] theorem State.rmPut_encs (m off n v : Nat) : (s.rmPut m off n v).encs = s.encs := rfl
@[simp] theorem State.rmPut_cycs (m off n v : Nat) : (s.rmPut m off n v).cycs = s.cycs := rfl
@[simp] theorem State.rmPut_marks (m off n v : Nat) : (s.rmPut m off n v).marks = s.marks := rfl
@[simp] theorem State.rmPut_plan (m off n v : Nat) : (s.rmPut m off n v).plan = s.plan := rfl
@[simp] theorem State.rmPut_threads (m off n v : Nat) : (s.rmPut m off n v).threads = s.threads := rfl
@[simp] theorem State.rmPut_evPend (m off n v : Nat) : (s.rmPut m off n v).evPend = s.evPend := rfl
@[simp] theorem State.rmPut_deadlock (m off n v : Nat) : (s.rmPut m off n v).deadlock = s.deadlock := rfl
@[simp] theorem State.rmPut_foreign (m off n v : Nat) : (s.rmPut m off n v).foreign = s.foreign := rfl
@[simp] theorem State.rmPut_broken (m off n v : Nat) : (s.rmPut m off n v).broken = s.broken := rfl
@[simp] theorem State.rmPut_routeAt (m off n v : Nat) : (s.rmPut m off n v).routeAt = s.routeAt := rfl
@[simp] theorem State.rmPut_rings (m off n v : Nat) : (s.rmPut m off n v).rings = s.rings := rfl
@[simp] theorem State.rmPut_ops (m off n v : Nat) : (s.rmPut m off n v).ops = s.ops := rfl
@[simp] theorem State.rmPut_cqWait (m off n v : Nat) : (s.rmPut m off n v).cqWait = s.cqWait := rfl
@[simp] theorem State.rmPut_eqHeld (m off n v : Nat) : (s.rmPut m off n v).eqHeld = s.eqHeld := rfl
@[simp] theorem State.rmPut_eqLossy (m off n v : Nat) : (s.rmPut m off n v).eqLossy = s.eqLossy := rfl
@[simp] theorem State.rmPut_host (m off n v : Nat) : (s.rmPut m off n v).host = s.host := rfl
@[simp] theorem State.rmPut_extents (m off n v : Nat) : (s.rmPut m off n v).extents = s.extents := rfl
@[simp] theorem State.rmPut_bobs (m off n v : Nat) : (s.rmPut m off n v).bobs = s.bobs := rfl
@[simp] theorem State.rmPut_cap (m off n v : Nat) : (s.rmPut m off n v).cap = s.cap := rfl
@[simp] theorem State.rmPut_twin (m off n v : Nat) : (s.rmPut m off n v).twin = s.twin := rfl
@[simp] theorem State.rmPut_wcs (m off n v : Nat) : (s.rmPut m off n v).wcs = s.wcs := rfl
@[simp] theorem State.rmPut_sup (m off n v : Nat) : (s.rmPut m off n v).sup = s.sup := rfl
@[simp] theorem State.rmPut_pwr (m off n v : Nat) : (s.rmPut m off n v).pwr = s.pwr := rfl
@[simp] theorem State.rmPut_nvm (m off n v : Nat) : (s.rmPut m off n v).nvm = s.nvm := rfl
@[simp] theorem State.rmPut_sec (m off n v : Nat) : (s.rmPut m off n v).sec = s.sec := rfl
@[simp] theorem State.rmPut_safetyStat (m off n v : Nat) : (s.rmPut m off n v).safetyStat = s.safetyStat := rfl
@[simp] theorem State.rmPut_ue (m off n v : Nat) : (s.rmPut m off n v).ue = s.ue := rfl
@[simp] theorem State.rmPut_ce (m off n v : Nat) : (s.rmPut m off n v).ce = s.ce := rfl

@[simp] theorem State.rmPutI_eq (m off n : Nat) (v : Int) : s.rmPutI m off n v = s.rmPut m off n (toTwos (8 * n) v) := rfl

/-! ## `State.dmPut` -/

@[simp] theorem State.dmPut_pending (k off n v : Nat) : (s.dmPut k off n v).pending = s.pending := rfl
@[simp] theorem State.dmPut_out (k off n v : Nat) : (s.dmPut k off n v).out = s.out := rfl
@[simp] theorem State.dmPut_free (k off n v : Nat) : (s.dmPut k off n v).free = s.free := rfl
@[simp] theorem State.dmPut_cycles (k off n v : Nat) : (s.dmPut k off n v).cycles = s.cycles := rfl
@[simp] theorem State.dmPut_grade (k off n v : Nat) : (s.dmPut k off n v).grade = s.grade := rfl
@[simp] theorem State.dmPut_regs (k off n v : Nat) : (s.dmPut k off n v).regs = s.regs := rfl
@[simp] theorem State.dmPut_lanes (k off n v : Nat) : (s.dmPut k off n v).lanes = s.lanes := rfl
@[simp] theorem State.dmPut_cells (k off n v : Nat) : (s.dmPut k off n v).cells = s.cells := rfl
@[simp] theorem State.dmPut_engines (k off n v : Nat) : (s.dmPut k off n v).engines = s.engines := rfl
@[simp] theorem State.dmPut_guardSram (k off n v : Nat) : (s.dmPut k off n v).guardSram = s.guardSram := rfl
@[simp] theorem State.dmPut_guardOtp (k off n v : Nat) : (s.dmPut k off n v).guardOtp = s.guardOtp := rfl
@[simp] theorem State.dmPut_guardUe (k off n v : Nat) : (s.dmPut k off n v).guardUe = s.guardUe := rfl
@[simp] theorem State.dmPut_guardRej (k off n v : Nat) : (s.dmPut k off n v).guardRej = s.guardRej := rfl
@[simp] theorem State.dmPut_railMem (k off n v : Nat) : (s.dmPut k off n v).railMem = s.railMem := rfl
@[simp] theorem State.dmPut_ledger (k off n v : Nat) : (s.dmPut k off n v).ledger = s.ledger := rfl
@[simp] theorem State.dmPut_patMem (k off n v : Nat) : (s.dmPut k off n v).patMem = s.patMem := rfl
@[simp] theorem State.dmPut_rails (k off n v : Nat) : (s.dmPut k off n v).rails = s.rails := rfl
@[simp] theorem State.dmPut_sync (k off n v : Nat) : (s.dmPut k off n v).sync = s.sync := rfl
@[simp] theorem State.dmPut_ho (k off n v : Nat) : (s.dmPut k off n v).ho = s.ho := rfl
@[simp] theorem State.dmPut_time (k off n v : Nat) : (s.dmPut k off n v).time = s.time := rfl
@[simp] theorem State.dmPut_encs (k off n v : Nat) : (s.dmPut k off n v).encs = s.encs := rfl
@[simp] theorem State.dmPut_cycs (k off n v : Nat) : (s.dmPut k off n v).cycs = s.cycs := rfl
@[simp] theorem State.dmPut_marks (k off n v : Nat) : (s.dmPut k off n v).marks = s.marks := rfl
@[simp] theorem State.dmPut_plan (k off n v : Nat) : (s.dmPut k off n v).plan = s.plan := rfl
@[simp] theorem State.dmPut_threads (k off n v : Nat) : (s.dmPut k off n v).threads = s.threads := rfl
@[simp] theorem State.dmPut_evPend (k off n v : Nat) : (s.dmPut k off n v).evPend = s.evPend := rfl
@[simp] theorem State.dmPut_deadlock (k off n v : Nat) : (s.dmPut k off n v).deadlock = s.deadlock := rfl
@[simp] theorem State.dmPut_foreign (k off n v : Nat) : (s.dmPut k off n v).foreign = s.foreign := rfl
@[simp] theorem State.dmPut_broken (k off n v : Nat) : (s.dmPut k off n v).broken = s.broken := rfl
@[simp] theorem State.dmPut_routeAt (k off n v : Nat) : (s.dmPut k off n v).routeAt = s.routeAt := rfl
@[simp] theorem State.dmPut_rings (k off n v : Nat) : (s.dmPut k off n v).rings = s.rings := rfl
@[simp] theorem State.dmPut_ops (k off n v : Nat) : (s.dmPut k off n v).ops = s.ops := rfl
@[simp] theorem State.dmPut_cqWait (k off n v : Nat) : (s.dmPut k off n v).cqWait = s.cqWait := rfl
@[simp] theorem State.dmPut_eqHeld (k off n v : Nat) : (s.dmPut k off n v).eqHeld = s.eqHeld := rfl
@[simp] theorem State.dmPut_eqLossy (k off n v : Nat) : (s.dmPut k off n v).eqLossy = s.eqLossy := rfl
@[simp] theorem State.dmPut_host (k off n v : Nat) : (s.dmPut k off n v).host = s.host := rfl
@[simp] theorem State.dmPut_extents (k off n v : Nat) : (s.dmPut k off n v).extents = s.extents := rfl
@[simp] theorem State.dmPut_bobs (k off n v : Nat) : (s.dmPut k off n v).bobs = s.bobs := rfl
@[simp] theorem State.dmPut_cap (k off n v : Nat) : (s.dmPut k off n v).cap = s.cap := rfl
@[simp] theorem State.dmPut_twin (k off n v : Nat) : (s.dmPut k off n v).twin = s.twin := rfl
@[simp] theorem State.dmPut_wcs (k off n v : Nat) : (s.dmPut k off n v).wcs = s.wcs := rfl
@[simp] theorem State.dmPut_sup (k off n v : Nat) : (s.dmPut k off n v).sup = s.sup := rfl
@[simp] theorem State.dmPut_pwr (k off n v : Nat) : (s.dmPut k off n v).pwr = s.pwr := rfl
@[simp] theorem State.dmPut_nvm (k off n v : Nat) : (s.dmPut k off n v).nvm = s.nvm := rfl
@[simp] theorem State.dmPut_sec (k off n v : Nat) : (s.dmPut k off n v).sec = s.sec := rfl
@[simp] theorem State.dmPut_safetyStat (k off n v : Nat) : (s.dmPut k off n v).safetyStat = s.safetyStat := rfl
@[simp] theorem State.dmPut_ue (k off n v : Nat) : (s.dmPut k off n v).ue = s.ue := rfl
@[simp] theorem State.dmPut_ce (k off n v : Nat) : (s.dmPut k off n v).ce = s.ce := rfl

/-! ## `State.nvmPut` -/

@[simp] theorem State.nvmPut_pending (a : Nat) (b : List Byte) : (s.nvmPut a b).pending = s.pending := rfl
@[simp] theorem State.nvmPut_out (a : Nat) (b : List Byte) : (s.nvmPut a b).out = s.out := rfl
@[simp] theorem State.nvmPut_free (a : Nat) (b : List Byte) : (s.nvmPut a b).free = s.free := rfl
@[simp] theorem State.nvmPut_cycles (a : Nat) (b : List Byte) : (s.nvmPut a b).cycles = s.cycles := rfl
@[simp] theorem State.nvmPut_grade (a : Nat) (b : List Byte) : (s.nvmPut a b).grade = s.grade := rfl
@[simp] theorem State.nvmPut_regs (a : Nat) (b : List Byte) : (s.nvmPut a b).regs = s.regs := rfl
@[simp] theorem State.nvmPut_lanes (a : Nat) (b : List Byte) : (s.nvmPut a b).lanes = s.lanes := rfl
@[simp] theorem State.nvmPut_cells (a : Nat) (b : List Byte) : (s.nvmPut a b).cells = s.cells := rfl
@[simp] theorem State.nvmPut_engines (a : Nat) (b : List Byte) : (s.nvmPut a b).engines = s.engines := rfl
@[simp] theorem State.nvmPut_guardSram (a : Nat) (b : List Byte) : (s.nvmPut a b).guardSram = s.guardSram := rfl
@[simp] theorem State.nvmPut_guardOtp (a : Nat) (b : List Byte) : (s.nvmPut a b).guardOtp = s.guardOtp := rfl
@[simp] theorem State.nvmPut_guardUe (a : Nat) (b : List Byte) : (s.nvmPut a b).guardUe = s.guardUe := rfl
@[simp] theorem State.nvmPut_guardRej (a : Nat) (b : List Byte) : (s.nvmPut a b).guardRej = s.guardRej := rfl
@[simp] theorem State.nvmPut_drawerMem (a : Nat) (b : List Byte) : (s.nvmPut a b).drawerMem = s.drawerMem := rfl
@[simp] theorem State.nvmPut_railMem (a : Nat) (b : List Byte) : (s.nvmPut a b).railMem = s.railMem := rfl
@[simp] theorem State.nvmPut_ledger (a : Nat) (b : List Byte) : (s.nvmPut a b).ledger = s.ledger := rfl
@[simp] theorem State.nvmPut_patMem (a : Nat) (b : List Byte) : (s.nvmPut a b).patMem = s.patMem := rfl
@[simp] theorem State.nvmPut_rails (a : Nat) (b : List Byte) : (s.nvmPut a b).rails = s.rails := rfl
@[simp] theorem State.nvmPut_sync (a : Nat) (b : List Byte) : (s.nvmPut a b).sync = s.sync := rfl
@[simp] theorem State.nvmPut_ho (a : Nat) (b : List Byte) : (s.nvmPut a b).ho = s.ho := rfl
@[simp] theorem State.nvmPut_time (a : Nat) (b : List Byte) : (s.nvmPut a b).time = s.time := rfl
@[simp] theorem State.nvmPut_encs (a : Nat) (b : List Byte) : (s.nvmPut a b).encs = s.encs := rfl
@[simp] theorem State.nvmPut_cycs (a : Nat) (b : List Byte) : (s.nvmPut a b).cycs = s.cycs := rfl
@[simp] theorem State.nvmPut_marks (a : Nat) (b : List Byte) : (s.nvmPut a b).marks = s.marks := rfl
@[simp] theorem State.nvmPut_plan (a : Nat) (b : List Byte) : (s.nvmPut a b).plan = s.plan := rfl
@[simp] theorem State.nvmPut_threads (a : Nat) (b : List Byte) : (s.nvmPut a b).threads = s.threads := rfl
@[simp] theorem State.nvmPut_evPend (a : Nat) (b : List Byte) : (s.nvmPut a b).evPend = s.evPend := rfl
@[simp] theorem State.nvmPut_deadlock (a : Nat) (b : List Byte) : (s.nvmPut a b).deadlock = s.deadlock := rfl
@[simp] theorem State.nvmPut_foreign (a : Nat) (b : List Byte) : (s.nvmPut a b).foreign = s.foreign := rfl
@[simp] theorem State.nvmPut_broken (a : Nat) (b : List Byte) : (s.nvmPut a b).broken = s.broken := rfl
@[simp] theorem State.nvmPut_routeAt (a : Nat) (b : List Byte) : (s.nvmPut a b).routeAt = s.routeAt := rfl
@[simp] theorem State.nvmPut_rings (a : Nat) (b : List Byte) : (s.nvmPut a b).rings = s.rings := rfl
@[simp] theorem State.nvmPut_ops (a : Nat) (b : List Byte) : (s.nvmPut a b).ops = s.ops := rfl
@[simp] theorem State.nvmPut_cqWait (a : Nat) (b : List Byte) : (s.nvmPut a b).cqWait = s.cqWait := rfl
@[simp] theorem State.nvmPut_eqHeld (a : Nat) (b : List Byte) : (s.nvmPut a b).eqHeld = s.eqHeld := rfl
@[simp] theorem State.nvmPut_eqLossy (a : Nat) (b : List Byte) : (s.nvmPut a b).eqLossy = s.eqLossy := rfl
@[simp] theorem State.nvmPut_host (a : Nat) (b : List Byte) : (s.nvmPut a b).host = s.host := rfl
@[simp] theorem State.nvmPut_extents (a : Nat) (b : List Byte) : (s.nvmPut a b).extents = s.extents := rfl
@[simp] theorem State.nvmPut_bobs (a : Nat) (b : List Byte) : (s.nvmPut a b).bobs = s.bobs := rfl
@[simp] theorem State.nvmPut_cap (a : Nat) (b : List Byte) : (s.nvmPut a b).cap = s.cap := rfl
@[simp] theorem State.nvmPut_twin (a : Nat) (b : List Byte) : (s.nvmPut a b).twin = s.twin := rfl
@[simp] theorem State.nvmPut_wcs (a : Nat) (b : List Byte) : (s.nvmPut a b).wcs = s.wcs := rfl
@[simp] theorem State.nvmPut_sup (a : Nat) (b : List Byte) : (s.nvmPut a b).sup = s.sup := rfl
@[simp] theorem State.nvmPut_pwr (a : Nat) (b : List Byte) : (s.nvmPut a b).pwr = s.pwr := rfl
@[simp] theorem State.nvmPut_sec (a : Nat) (b : List Byte) : (s.nvmPut a b).sec = s.sec := rfl
@[simp] theorem State.nvmPut_safetyStat (a : Nat) (b : List Byte) : (s.nvmPut a b).safetyStat = s.safetyStat := rfl
@[simp] theorem State.nvmPut_ue (a : Nat) (b : List Byte) : (s.nvmPut a b).ue = s.ue := rfl
@[simp] theorem State.nvmPut_ce (a : Nat) (b : List Byte) : (s.nvmPut a b).ce = s.ce := rfl

/-! ## `State.setOtp` -/

@[simp] theorem State.setOtp_pending (r : Nat) (v : DWord) : (s.setOtp r v).pending = s.pending := rfl
@[simp] theorem State.setOtp_out (r : Nat) (v : DWord) : (s.setOtp r v).out = s.out := rfl
@[simp] theorem State.setOtp_free (r : Nat) (v : DWord) : (s.setOtp r v).free = s.free := rfl
@[simp] theorem State.setOtp_cycles (r : Nat) (v : DWord) : (s.setOtp r v).cycles = s.cycles := rfl
@[simp] theorem State.setOtp_grade (r : Nat) (v : DWord) : (s.setOtp r v).grade = s.grade := rfl
@[simp] theorem State.setOtp_regs (r : Nat) (v : DWord) : (s.setOtp r v).regs = s.regs := rfl
@[simp] theorem State.setOtp_lanes (r : Nat) (v : DWord) : (s.setOtp r v).lanes = s.lanes := rfl
@[simp] theorem State.setOtp_cells (r : Nat) (v : DWord) : (s.setOtp r v).cells = s.cells := rfl
@[simp] theorem State.setOtp_engines (r : Nat) (v : DWord) : (s.setOtp r v).engines = s.engines := rfl
@[simp] theorem State.setOtp_guardSram (r : Nat) (v : DWord) : (s.setOtp r v).guardSram = s.guardSram := rfl
@[simp] theorem State.setOtp_guardOtp (r : Nat) (v : DWord) : (s.setOtp r v).guardOtp = s.guardOtp := rfl
@[simp] theorem State.setOtp_guardUe (r : Nat) (v : DWord) : (s.setOtp r v).guardUe = s.guardUe := rfl
@[simp] theorem State.setOtp_guardRej (r : Nat) (v : DWord) : (s.setOtp r v).guardRej = s.guardRej := rfl
@[simp] theorem State.setOtp_drawerMem (r : Nat) (v : DWord) : (s.setOtp r v).drawerMem = s.drawerMem := rfl
@[simp] theorem State.setOtp_railMem (r : Nat) (v : DWord) : (s.setOtp r v).railMem = s.railMem := rfl
@[simp] theorem State.setOtp_ledger (r : Nat) (v : DWord) : (s.setOtp r v).ledger = s.ledger := rfl
@[simp] theorem State.setOtp_patMem (r : Nat) (v : DWord) : (s.setOtp r v).patMem = s.patMem := rfl
@[simp] theorem State.setOtp_rails (r : Nat) (v : DWord) : (s.setOtp r v).rails = s.rails := rfl
@[simp] theorem State.setOtp_sync (r : Nat) (v : DWord) : (s.setOtp r v).sync = s.sync := rfl
@[simp] theorem State.setOtp_ho (r : Nat) (v : DWord) : (s.setOtp r v).ho = s.ho := rfl
@[simp] theorem State.setOtp_time (r : Nat) (v : DWord) : (s.setOtp r v).time = s.time := rfl
@[simp] theorem State.setOtp_encs (r : Nat) (v : DWord) : (s.setOtp r v).encs = s.encs := rfl
@[simp] theorem State.setOtp_cycs (r : Nat) (v : DWord) : (s.setOtp r v).cycs = s.cycs := rfl
@[simp] theorem State.setOtp_marks (r : Nat) (v : DWord) : (s.setOtp r v).marks = s.marks := rfl
@[simp] theorem State.setOtp_plan (r : Nat) (v : DWord) : (s.setOtp r v).plan = s.plan := rfl
@[simp] theorem State.setOtp_threads (r : Nat) (v : DWord) : (s.setOtp r v).threads = s.threads := rfl
@[simp] theorem State.setOtp_evPend (r : Nat) (v : DWord) : (s.setOtp r v).evPend = s.evPend := rfl
@[simp] theorem State.setOtp_deadlock (r : Nat) (v : DWord) : (s.setOtp r v).deadlock = s.deadlock := rfl
@[simp] theorem State.setOtp_foreign (r : Nat) (v : DWord) : (s.setOtp r v).foreign = s.foreign := rfl
@[simp] theorem State.setOtp_broken (r : Nat) (v : DWord) : (s.setOtp r v).broken = s.broken := rfl
@[simp] theorem State.setOtp_routeAt (r : Nat) (v : DWord) : (s.setOtp r v).routeAt = s.routeAt := rfl
@[simp] theorem State.setOtp_rings (r : Nat) (v : DWord) : (s.setOtp r v).rings = s.rings := rfl
@[simp] theorem State.setOtp_ops (r : Nat) (v : DWord) : (s.setOtp r v).ops = s.ops := rfl
@[simp] theorem State.setOtp_cqWait (r : Nat) (v : DWord) : (s.setOtp r v).cqWait = s.cqWait := rfl
@[simp] theorem State.setOtp_eqHeld (r : Nat) (v : DWord) : (s.setOtp r v).eqHeld = s.eqHeld := rfl
@[simp] theorem State.setOtp_eqLossy (r : Nat) (v : DWord) : (s.setOtp r v).eqLossy = s.eqLossy := rfl
@[simp] theorem State.setOtp_host (r : Nat) (v : DWord) : (s.setOtp r v).host = s.host := rfl
@[simp] theorem State.setOtp_extents (r : Nat) (v : DWord) : (s.setOtp r v).extents = s.extents := rfl
@[simp] theorem State.setOtp_bobs (r : Nat) (v : DWord) : (s.setOtp r v).bobs = s.bobs := rfl
@[simp] theorem State.setOtp_cap (r : Nat) (v : DWord) : (s.setOtp r v).cap = s.cap := rfl
@[simp] theorem State.setOtp_twin (r : Nat) (v : DWord) : (s.setOtp r v).twin = s.twin := rfl
@[simp] theorem State.setOtp_wcs (r : Nat) (v : DWord) : (s.setOtp r v).wcs = s.wcs := rfl
@[simp] theorem State.setOtp_sup (r : Nat) (v : DWord) : (s.setOtp r v).sup = s.sup := rfl
@[simp] theorem State.setOtp_pwr (r : Nat) (v : DWord) : (s.setOtp r v).pwr = s.pwr := rfl
@[simp] theorem State.setOtp_sec (r : Nat) (v : DWord) : (s.setOtp r v).sec = s.sec := rfl
@[simp] theorem State.setOtp_safetyStat (r : Nat) (v : DWord) : (s.setOtp r v).safetyStat = s.safetyStat := rfl
@[simp] theorem State.setOtp_ue (r : Nat) (v : DWord) : (s.setOtp r v).ue = s.ue := rfl
@[simp] theorem State.setOtp_ce (r : Nat) (v : DWord) : (s.setOtp r v).ce = s.ce := rfl

/-! ## `State.setPend` -/

@[simp] theorem State.setPend_pending (e : Nat) (v : BitVec 16) : (s.setPend e v).pending = s.pending := rfl
@[simp] theorem State.setPend_out (e : Nat) (v : BitVec 16) : (s.setPend e v).out = s.out := rfl
@[simp] theorem State.setPend_free (e : Nat) (v : BitVec 16) : (s.setPend e v).free = s.free := rfl
@[simp] theorem State.setPend_cycles (e : Nat) (v : BitVec 16) : (s.setPend e v).cycles = s.cycles := rfl
@[simp] theorem State.setPend_grade (e : Nat) (v : BitVec 16) : (s.setPend e v).grade = s.grade := rfl
@[simp] theorem State.setPend_regs (e : Nat) (v : BitVec 16) : (s.setPend e v).regs = s.regs := rfl
@[simp] theorem State.setPend_lanes (e : Nat) (v : BitVec 16) : (s.setPend e v).lanes = s.lanes := rfl
@[simp] theorem State.setPend_cells (e : Nat) (v : BitVec 16) : (s.setPend e v).cells = s.cells := rfl
@[simp] theorem State.setPend_engines (e : Nat) (v : BitVec 16) : (s.setPend e v).engines = s.engines := rfl
@[simp] theorem State.setPend_guardSram (e : Nat) (v : BitVec 16) : (s.setPend e v).guardSram = s.guardSram := rfl
@[simp] theorem State.setPend_guardOtp (e : Nat) (v : BitVec 16) : (s.setPend e v).guardOtp = s.guardOtp := rfl
@[simp] theorem State.setPend_guardUe (e : Nat) (v : BitVec 16) : (s.setPend e v).guardUe = s.guardUe := rfl
@[simp] theorem State.setPend_guardRej (e : Nat) (v : BitVec 16) : (s.setPend e v).guardRej = s.guardRej := rfl
@[simp] theorem State.setPend_drawerMem (e : Nat) (v : BitVec 16) : (s.setPend e v).drawerMem = s.drawerMem := rfl
@[simp] theorem State.setPend_railMem (e : Nat) (v : BitVec 16) : (s.setPend e v).railMem = s.railMem := rfl
@[simp] theorem State.setPend_ledger (e : Nat) (v : BitVec 16) : (s.setPend e v).ledger = s.ledger := rfl
@[simp] theorem State.setPend_patMem (e : Nat) (v : BitVec 16) : (s.setPend e v).patMem = s.patMem := rfl
@[simp] theorem State.setPend_rails (e : Nat) (v : BitVec 16) : (s.setPend e v).rails = s.rails := rfl
@[simp] theorem State.setPend_sync (e : Nat) (v : BitVec 16) : (s.setPend e v).sync = s.sync := rfl
@[simp] theorem State.setPend_ho (e : Nat) (v : BitVec 16) : (s.setPend e v).ho = s.ho := rfl
@[simp] theorem State.setPend_time (e : Nat) (v : BitVec 16) : (s.setPend e v).time = s.time := rfl
@[simp] theorem State.setPend_encs (e : Nat) (v : BitVec 16) : (s.setPend e v).encs = s.encs := rfl
@[simp] theorem State.setPend_cycs (e : Nat) (v : BitVec 16) : (s.setPend e v).cycs = s.cycs := rfl
@[simp] theorem State.setPend_marks (e : Nat) (v : BitVec 16) : (s.setPend e v).marks = s.marks := rfl
@[simp] theorem State.setPend_plan (e : Nat) (v : BitVec 16) : (s.setPend e v).plan = s.plan := rfl
@[simp] theorem State.setPend_threads (e : Nat) (v : BitVec 16) : (s.setPend e v).threads = s.threads := rfl
@[simp] theorem State.setPend_deadlock (e : Nat) (v : BitVec 16) : (s.setPend e v).deadlock = s.deadlock := rfl
@[simp] theorem State.setPend_foreign (e : Nat) (v : BitVec 16) : (s.setPend e v).foreign = s.foreign := rfl
@[simp] theorem State.setPend_broken (e : Nat) (v : BitVec 16) : (s.setPend e v).broken = s.broken := rfl
@[simp] theorem State.setPend_routeAt (e : Nat) (v : BitVec 16) : (s.setPend e v).routeAt = s.routeAt := rfl
@[simp] theorem State.setPend_rings (e : Nat) (v : BitVec 16) : (s.setPend e v).rings = s.rings := rfl
@[simp] theorem State.setPend_ops (e : Nat) (v : BitVec 16) : (s.setPend e v).ops = s.ops := rfl
@[simp] theorem State.setPend_cqWait (e : Nat) (v : BitVec 16) : (s.setPend e v).cqWait = s.cqWait := rfl
@[simp] theorem State.setPend_eqHeld (e : Nat) (v : BitVec 16) : (s.setPend e v).eqHeld = s.eqHeld := rfl
@[simp] theorem State.setPend_eqLossy (e : Nat) (v : BitVec 16) : (s.setPend e v).eqLossy = s.eqLossy := rfl
@[simp] theorem State.setPend_host (e : Nat) (v : BitVec 16) : (s.setPend e v).host = s.host := rfl
@[simp] theorem State.setPend_extents (e : Nat) (v : BitVec 16) : (s.setPend e v).extents = s.extents := rfl
@[simp] theorem State.setPend_bobs (e : Nat) (v : BitVec 16) : (s.setPend e v).bobs = s.bobs := rfl
@[simp] theorem State.setPend_cap (e : Nat) (v : BitVec 16) : (s.setPend e v).cap = s.cap := rfl
@[simp] theorem State.setPend_twin (e : Nat) (v : BitVec 16) : (s.setPend e v).twin = s.twin := rfl
@[simp] theorem State.setPend_wcs (e : Nat) (v : BitVec 16) : (s.setPend e v).wcs = s.wcs := rfl
@[simp] theorem State.setPend_sup (e : Nat) (v : BitVec 16) : (s.setPend e v).sup = s.sup := rfl
@[simp] theorem State.setPend_pwr (e : Nat) (v : BitVec 16) : (s.setPend e v).pwr = s.pwr := rfl
@[simp] theorem State.setPend_nvm (e : Nat) (v : BitVec 16) : (s.setPend e v).nvm = s.nvm := rfl
@[simp] theorem State.setPend_sec (e : Nat) (v : BitVec 16) : (s.setPend e v).sec = s.sec := rfl
@[simp] theorem State.setPend_safetyStat (e : Nat) (v : BitVec 16) : (s.setPend e v).safetyStat = s.safetyStat := rfl
@[simp] theorem State.setPend_ue (e : Nat) (v : BitVec 16) : (s.setPend e v).ue = s.ue := rfl
@[simp] theorem State.setPend_ce (e : Nat) (v : BitVec 16) : (s.setPend e v).ce = s.ce := rfl

/-! ## `State.putOp` -/

@[simp] theorem State.putOp_pending (o : Op) : (s.putOp o).pending = s.pending := rfl
@[simp] theorem State.putOp_out (o : Op) : (s.putOp o).out = s.out := rfl
@[simp] theorem State.putOp_free (o : Op) : (s.putOp o).free = s.free := rfl
@[simp] theorem State.putOp_cycles (o : Op) : (s.putOp o).cycles = s.cycles := rfl
@[simp] theorem State.putOp_grade (o : Op) : (s.putOp o).grade = s.grade := rfl
@[simp] theorem State.putOp_regs (o : Op) : (s.putOp o).regs = s.regs := rfl
@[simp] theorem State.putOp_lanes (o : Op) : (s.putOp o).lanes = s.lanes := rfl
@[simp] theorem State.putOp_cells (o : Op) : (s.putOp o).cells = s.cells := rfl
@[simp] theorem State.putOp_engines (o : Op) : (s.putOp o).engines = s.engines := rfl
@[simp] theorem State.putOp_guardSram (o : Op) : (s.putOp o).guardSram = s.guardSram := rfl
@[simp] theorem State.putOp_guardOtp (o : Op) : (s.putOp o).guardOtp = s.guardOtp := rfl
@[simp] theorem State.putOp_guardUe (o : Op) : (s.putOp o).guardUe = s.guardUe := rfl
@[simp] theorem State.putOp_guardRej (o : Op) : (s.putOp o).guardRej = s.guardRej := rfl
@[simp] theorem State.putOp_drawerMem (o : Op) : (s.putOp o).drawerMem = s.drawerMem := rfl
@[simp] theorem State.putOp_railMem (o : Op) : (s.putOp o).railMem = s.railMem := rfl
@[simp] theorem State.putOp_ledger (o : Op) : (s.putOp o).ledger = s.ledger := rfl
@[simp] theorem State.putOp_patMem (o : Op) : (s.putOp o).patMem = s.patMem := rfl
@[simp] theorem State.putOp_rails (o : Op) : (s.putOp o).rails = s.rails := rfl
@[simp] theorem State.putOp_sync (o : Op) : (s.putOp o).sync = s.sync := rfl
@[simp] theorem State.putOp_ho (o : Op) : (s.putOp o).ho = s.ho := rfl
@[simp] theorem State.putOp_time (o : Op) : (s.putOp o).time = s.time := rfl
@[simp] theorem State.putOp_encs (o : Op) : (s.putOp o).encs = s.encs := rfl
@[simp] theorem State.putOp_cycs (o : Op) : (s.putOp o).cycs = s.cycs := rfl
@[simp] theorem State.putOp_marks (o : Op) : (s.putOp o).marks = s.marks := rfl
@[simp] theorem State.putOp_plan (o : Op) : (s.putOp o).plan = s.plan := rfl
@[simp] theorem State.putOp_threads (o : Op) : (s.putOp o).threads = s.threads := rfl
@[simp] theorem State.putOp_evPend (o : Op) : (s.putOp o).evPend = s.evPend := rfl
@[simp] theorem State.putOp_deadlock (o : Op) : (s.putOp o).deadlock = s.deadlock := rfl
@[simp] theorem State.putOp_foreign (o : Op) : (s.putOp o).foreign = s.foreign := rfl
@[simp] theorem State.putOp_broken (o : Op) : (s.putOp o).broken = s.broken := rfl
@[simp] theorem State.putOp_routeAt (o : Op) : (s.putOp o).routeAt = s.routeAt := rfl
@[simp] theorem State.putOp_rings (o : Op) : (s.putOp o).rings = s.rings := rfl
@[simp] theorem State.putOp_cqWait (o : Op) : (s.putOp o).cqWait = s.cqWait := rfl
@[simp] theorem State.putOp_eqHeld (o : Op) : (s.putOp o).eqHeld = s.eqHeld := rfl
@[simp] theorem State.putOp_eqLossy (o : Op) : (s.putOp o).eqLossy = s.eqLossy := rfl
@[simp] theorem State.putOp_host (o : Op) : (s.putOp o).host = s.host := rfl
@[simp] theorem State.putOp_extents (o : Op) : (s.putOp o).extents = s.extents := rfl
@[simp] theorem State.putOp_bobs (o : Op) : (s.putOp o).bobs = s.bobs := rfl
@[simp] theorem State.putOp_cap (o : Op) : (s.putOp o).cap = s.cap := rfl
@[simp] theorem State.putOp_twin (o : Op) : (s.putOp o).twin = s.twin := rfl
@[simp] theorem State.putOp_wcs (o : Op) : (s.putOp o).wcs = s.wcs := rfl
@[simp] theorem State.putOp_sup (o : Op) : (s.putOp o).sup = s.sup := rfl
@[simp] theorem State.putOp_pwr (o : Op) : (s.putOp o).pwr = s.pwr := rfl
@[simp] theorem State.putOp_nvm (o : Op) : (s.putOp o).nvm = s.nvm := rfl
@[simp] theorem State.putOp_sec (o : Op) : (s.putOp o).sec = s.sec := rfl
@[simp] theorem State.putOp_safetyStat (o : Op) : (s.putOp o).safetyStat = s.safetyStat := rfl
@[simp] theorem State.putOp_ue (o : Op) : (s.putOp o).ue = s.ue := rfl
@[simp] theorem State.putOp_ce (o : Op) : (s.putOp o).ce = s.ce := rfl

/-! ## `State.modOp` -/

@[simp] theorem State.modOp_pending (g : Nat) (f : Op → Op) : (s.modOp g f).pending = s.pending := rfl
@[simp] theorem State.modOp_out (g : Nat) (f : Op → Op) : (s.modOp g f).out = s.out := rfl
@[simp] theorem State.modOp_free (g : Nat) (f : Op → Op) : (s.modOp g f).free = s.free := rfl
@[simp] theorem State.modOp_cycles (g : Nat) (f : Op → Op) : (s.modOp g f).cycles = s.cycles := rfl
@[simp] theorem State.modOp_grade (g : Nat) (f : Op → Op) : (s.modOp g f).grade = s.grade := rfl
@[simp] theorem State.modOp_regs (g : Nat) (f : Op → Op) : (s.modOp g f).regs = s.regs := rfl
@[simp] theorem State.modOp_lanes (g : Nat) (f : Op → Op) : (s.modOp g f).lanes = s.lanes := rfl
@[simp] theorem State.modOp_cells (g : Nat) (f : Op → Op) : (s.modOp g f).cells = s.cells := rfl
@[simp] theorem State.modOp_engines (g : Nat) (f : Op → Op) : (s.modOp g f).engines = s.engines := rfl
@[simp] theorem State.modOp_guardSram (g : Nat) (f : Op → Op) : (s.modOp g f).guardSram = s.guardSram := rfl
@[simp] theorem State.modOp_guardOtp (g : Nat) (f : Op → Op) : (s.modOp g f).guardOtp = s.guardOtp := rfl
@[simp] theorem State.modOp_guardUe (g : Nat) (f : Op → Op) : (s.modOp g f).guardUe = s.guardUe := rfl
@[simp] theorem State.modOp_guardRej (g : Nat) (f : Op → Op) : (s.modOp g f).guardRej = s.guardRej := rfl
@[simp] theorem State.modOp_drawerMem (g : Nat) (f : Op → Op) : (s.modOp g f).drawerMem = s.drawerMem := rfl
@[simp] theorem State.modOp_railMem (g : Nat) (f : Op → Op) : (s.modOp g f).railMem = s.railMem := rfl
@[simp] theorem State.modOp_ledger (g : Nat) (f : Op → Op) : (s.modOp g f).ledger = s.ledger := rfl
@[simp] theorem State.modOp_patMem (g : Nat) (f : Op → Op) : (s.modOp g f).patMem = s.patMem := rfl
@[simp] theorem State.modOp_rails (g : Nat) (f : Op → Op) : (s.modOp g f).rails = s.rails := rfl
@[simp] theorem State.modOp_sync (g : Nat) (f : Op → Op) : (s.modOp g f).sync = s.sync := rfl
@[simp] theorem State.modOp_ho (g : Nat) (f : Op → Op) : (s.modOp g f).ho = s.ho := rfl
@[simp] theorem State.modOp_time (g : Nat) (f : Op → Op) : (s.modOp g f).time = s.time := rfl
@[simp] theorem State.modOp_encs (g : Nat) (f : Op → Op) : (s.modOp g f).encs = s.encs := rfl
@[simp] theorem State.modOp_cycs (g : Nat) (f : Op → Op) : (s.modOp g f).cycs = s.cycs := rfl
@[simp] theorem State.modOp_marks (g : Nat) (f : Op → Op) : (s.modOp g f).marks = s.marks := rfl
@[simp] theorem State.modOp_plan (g : Nat) (f : Op → Op) : (s.modOp g f).plan = s.plan := rfl
@[simp] theorem State.modOp_threads (g : Nat) (f : Op → Op) : (s.modOp g f).threads = s.threads := rfl
@[simp] theorem State.modOp_evPend (g : Nat) (f : Op → Op) : (s.modOp g f).evPend = s.evPend := rfl
@[simp] theorem State.modOp_deadlock (g : Nat) (f : Op → Op) : (s.modOp g f).deadlock = s.deadlock := rfl
@[simp] theorem State.modOp_foreign (g : Nat) (f : Op → Op) : (s.modOp g f).foreign = s.foreign := rfl
@[simp] theorem State.modOp_broken (g : Nat) (f : Op → Op) : (s.modOp g f).broken = s.broken := rfl
@[simp] theorem State.modOp_routeAt (g : Nat) (f : Op → Op) : (s.modOp g f).routeAt = s.routeAt := rfl
@[simp] theorem State.modOp_rings (g : Nat) (f : Op → Op) : (s.modOp g f).rings = s.rings := rfl
@[simp] theorem State.modOp_cqWait (g : Nat) (f : Op → Op) : (s.modOp g f).cqWait = s.cqWait := rfl
@[simp] theorem State.modOp_eqHeld (g : Nat) (f : Op → Op) : (s.modOp g f).eqHeld = s.eqHeld := rfl
@[simp] theorem State.modOp_eqLossy (g : Nat) (f : Op → Op) : (s.modOp g f).eqLossy = s.eqLossy := rfl
@[simp] theorem State.modOp_host (g : Nat) (f : Op → Op) : (s.modOp g f).host = s.host := rfl
@[simp] theorem State.modOp_extents (g : Nat) (f : Op → Op) : (s.modOp g f).extents = s.extents := rfl
@[simp] theorem State.modOp_bobs (g : Nat) (f : Op → Op) : (s.modOp g f).bobs = s.bobs := rfl
@[simp] theorem State.modOp_cap (g : Nat) (f : Op → Op) : (s.modOp g f).cap = s.cap := rfl
@[simp] theorem State.modOp_twin (g : Nat) (f : Op → Op) : (s.modOp g f).twin = s.twin := rfl
@[simp] theorem State.modOp_wcs (g : Nat) (f : Op → Op) : (s.modOp g f).wcs = s.wcs := rfl
@[simp] theorem State.modOp_sup (g : Nat) (f : Op → Op) : (s.modOp g f).sup = s.sup := rfl
@[simp] theorem State.modOp_pwr (g : Nat) (f : Op → Op) : (s.modOp g f).pwr = s.pwr := rfl
@[simp] theorem State.modOp_nvm (g : Nat) (f : Op → Op) : (s.modOp g f).nvm = s.nvm := rfl
@[simp] theorem State.modOp_sec (g : Nat) (f : Op → Op) : (s.modOp g f).sec = s.sec := rfl
@[simp] theorem State.modOp_safetyStat (g : Nat) (f : Op → Op) : (s.modOp g f).safetyStat = s.safetyStat := rfl
@[simp] theorem State.modOp_ue (g : Nat) (f : Op → Op) : (s.modOp g f).ue = s.ue := rfl
@[simp] theorem State.modOp_ce (g : Nat) (f : Op → Op) : (s.modOp g f).ce = s.ce := rfl

/-! ## `State.dropOp` -/

@[simp] theorem State.dropOp_pending (g : Nat) : (s.dropOp g).pending = s.pending := rfl
@[simp] theorem State.dropOp_out (g : Nat) : (s.dropOp g).out = s.out := rfl
@[simp] theorem State.dropOp_free (g : Nat) : (s.dropOp g).free = s.free := rfl
@[simp] theorem State.dropOp_cycles (g : Nat) : (s.dropOp g).cycles = s.cycles := rfl
@[simp] theorem State.dropOp_grade (g : Nat) : (s.dropOp g).grade = s.grade := rfl
@[simp] theorem State.dropOp_regs (g : Nat) : (s.dropOp g).regs = s.regs := rfl
@[simp] theorem State.dropOp_lanes (g : Nat) : (s.dropOp g).lanes = s.lanes := rfl
@[simp] theorem State.dropOp_cells (g : Nat) : (s.dropOp g).cells = s.cells := rfl
@[simp] theorem State.dropOp_engines (g : Nat) : (s.dropOp g).engines = s.engines := rfl
@[simp] theorem State.dropOp_guardSram (g : Nat) : (s.dropOp g).guardSram = s.guardSram := rfl
@[simp] theorem State.dropOp_guardOtp (g : Nat) : (s.dropOp g).guardOtp = s.guardOtp := rfl
@[simp] theorem State.dropOp_guardUe (g : Nat) : (s.dropOp g).guardUe = s.guardUe := rfl
@[simp] theorem State.dropOp_guardRej (g : Nat) : (s.dropOp g).guardRej = s.guardRej := rfl
@[simp] theorem State.dropOp_drawerMem (g : Nat) : (s.dropOp g).drawerMem = s.drawerMem := rfl
@[simp] theorem State.dropOp_railMem (g : Nat) : (s.dropOp g).railMem = s.railMem := rfl
@[simp] theorem State.dropOp_ledger (g : Nat) : (s.dropOp g).ledger = s.ledger := rfl
@[simp] theorem State.dropOp_patMem (g : Nat) : (s.dropOp g).patMem = s.patMem := rfl
@[simp] theorem State.dropOp_rails (g : Nat) : (s.dropOp g).rails = s.rails := rfl
@[simp] theorem State.dropOp_sync (g : Nat) : (s.dropOp g).sync = s.sync := rfl
@[simp] theorem State.dropOp_ho (g : Nat) : (s.dropOp g).ho = s.ho := rfl
@[simp] theorem State.dropOp_time (g : Nat) : (s.dropOp g).time = s.time := rfl
@[simp] theorem State.dropOp_encs (g : Nat) : (s.dropOp g).encs = s.encs := rfl
@[simp] theorem State.dropOp_cycs (g : Nat) : (s.dropOp g).cycs = s.cycs := rfl
@[simp] theorem State.dropOp_marks (g : Nat) : (s.dropOp g).marks = s.marks := rfl
@[simp] theorem State.dropOp_plan (g : Nat) : (s.dropOp g).plan = s.plan := rfl
@[simp] theorem State.dropOp_threads (g : Nat) : (s.dropOp g).threads = s.threads := rfl
@[simp] theorem State.dropOp_evPend (g : Nat) : (s.dropOp g).evPend = s.evPend := rfl
@[simp] theorem State.dropOp_deadlock (g : Nat) : (s.dropOp g).deadlock = s.deadlock := rfl
@[simp] theorem State.dropOp_foreign (g : Nat) : (s.dropOp g).foreign = s.foreign := rfl
@[simp] theorem State.dropOp_broken (g : Nat) : (s.dropOp g).broken = s.broken := rfl
@[simp] theorem State.dropOp_routeAt (g : Nat) : (s.dropOp g).routeAt = s.routeAt := rfl
@[simp] theorem State.dropOp_rings (g : Nat) : (s.dropOp g).rings = s.rings := rfl
@[simp] theorem State.dropOp_cqWait (g : Nat) : (s.dropOp g).cqWait = s.cqWait := rfl
@[simp] theorem State.dropOp_eqHeld (g : Nat) : (s.dropOp g).eqHeld = s.eqHeld := rfl
@[simp] theorem State.dropOp_eqLossy (g : Nat) : (s.dropOp g).eqLossy = s.eqLossy := rfl
@[simp] theorem State.dropOp_host (g : Nat) : (s.dropOp g).host = s.host := rfl
@[simp] theorem State.dropOp_extents (g : Nat) : (s.dropOp g).extents = s.extents := rfl
@[simp] theorem State.dropOp_bobs (g : Nat) : (s.dropOp g).bobs = s.bobs := rfl
@[simp] theorem State.dropOp_cap (g : Nat) : (s.dropOp g).cap = s.cap := rfl
@[simp] theorem State.dropOp_twin (g : Nat) : (s.dropOp g).twin = s.twin := rfl
@[simp] theorem State.dropOp_wcs (g : Nat) : (s.dropOp g).wcs = s.wcs := rfl
@[simp] theorem State.dropOp_sup (g : Nat) : (s.dropOp g).sup = s.sup := rfl
@[simp] theorem State.dropOp_pwr (g : Nat) : (s.dropOp g).pwr = s.pwr := rfl
@[simp] theorem State.dropOp_nvm (g : Nat) : (s.dropOp g).nvm = s.nvm := rfl
@[simp] theorem State.dropOp_sec (g : Nat) : (s.dropOp g).sec = s.sec := rfl
@[simp] theorem State.dropOp_safetyStat (g : Nat) : (s.dropOp g).safetyStat = s.safetyStat := rfl
@[simp] theorem State.dropOp_ue (g : Nat) : (s.dropOp g).ue = s.ue := rfl
@[simp] theorem State.dropOp_ce (g : Nat) : (s.dropOp g).ce = s.ce := rfl

@[simp] theorem State.commit_eq (o : Op) : s.commit o = s.modOp o.tag fun p => { p with committed := true } := rfl

/-! ## `State.modHost` -/

@[simp] theorem State.modHost_pending (f : HostIf → HostIf) : (s.modHost f).pending = s.pending := rfl
@[simp] theorem State.modHost_out (f : HostIf → HostIf) : (s.modHost f).out = s.out := rfl
@[simp] theorem State.modHost_free (f : HostIf → HostIf) : (s.modHost f).free = s.free := rfl
@[simp] theorem State.modHost_cycles (f : HostIf → HostIf) : (s.modHost f).cycles = s.cycles := rfl
@[simp] theorem State.modHost_grade (f : HostIf → HostIf) : (s.modHost f).grade = s.grade := rfl
@[simp] theorem State.modHost_regs (f : HostIf → HostIf) : (s.modHost f).regs = s.regs := rfl
@[simp] theorem State.modHost_lanes (f : HostIf → HostIf) : (s.modHost f).lanes = s.lanes := rfl
@[simp] theorem State.modHost_cells (f : HostIf → HostIf) : (s.modHost f).cells = s.cells := rfl
@[simp] theorem State.modHost_engines (f : HostIf → HostIf) : (s.modHost f).engines = s.engines := rfl
@[simp] theorem State.modHost_guardSram (f : HostIf → HostIf) : (s.modHost f).guardSram = s.guardSram := rfl
@[simp] theorem State.modHost_guardOtp (f : HostIf → HostIf) : (s.modHost f).guardOtp = s.guardOtp := rfl
@[simp] theorem State.modHost_guardUe (f : HostIf → HostIf) : (s.modHost f).guardUe = s.guardUe := rfl
@[simp] theorem State.modHost_guardRej (f : HostIf → HostIf) : (s.modHost f).guardRej = s.guardRej := rfl
@[simp] theorem State.modHost_drawerMem (f : HostIf → HostIf) : (s.modHost f).drawerMem = s.drawerMem := rfl
@[simp] theorem State.modHost_railMem (f : HostIf → HostIf) : (s.modHost f).railMem = s.railMem := rfl
@[simp] theorem State.modHost_ledger (f : HostIf → HostIf) : (s.modHost f).ledger = s.ledger := rfl
@[simp] theorem State.modHost_patMem (f : HostIf → HostIf) : (s.modHost f).patMem = s.patMem := rfl
@[simp] theorem State.modHost_rails (f : HostIf → HostIf) : (s.modHost f).rails = s.rails := rfl
@[simp] theorem State.modHost_sync (f : HostIf → HostIf) : (s.modHost f).sync = s.sync := rfl
@[simp] theorem State.modHost_ho (f : HostIf → HostIf) : (s.modHost f).ho = s.ho := rfl
@[simp] theorem State.modHost_time (f : HostIf → HostIf) : (s.modHost f).time = s.time := rfl
@[simp] theorem State.modHost_encs (f : HostIf → HostIf) : (s.modHost f).encs = s.encs := rfl
@[simp] theorem State.modHost_cycs (f : HostIf → HostIf) : (s.modHost f).cycs = s.cycs := rfl
@[simp] theorem State.modHost_marks (f : HostIf → HostIf) : (s.modHost f).marks = s.marks := rfl
@[simp] theorem State.modHost_plan (f : HostIf → HostIf) : (s.modHost f).plan = s.plan := rfl
@[simp] theorem State.modHost_threads (f : HostIf → HostIf) : (s.modHost f).threads = s.threads := rfl
@[simp] theorem State.modHost_evPend (f : HostIf → HostIf) : (s.modHost f).evPend = s.evPend := rfl
@[simp] theorem State.modHost_deadlock (f : HostIf → HostIf) : (s.modHost f).deadlock = s.deadlock := rfl
@[simp] theorem State.modHost_foreign (f : HostIf → HostIf) : (s.modHost f).foreign = s.foreign := rfl
@[simp] theorem State.modHost_broken (f : HostIf → HostIf) : (s.modHost f).broken = s.broken := rfl
@[simp] theorem State.modHost_routeAt (f : HostIf → HostIf) : (s.modHost f).routeAt = s.routeAt := rfl
@[simp] theorem State.modHost_rings (f : HostIf → HostIf) : (s.modHost f).rings = s.rings := rfl
@[simp] theorem State.modHost_ops (f : HostIf → HostIf) : (s.modHost f).ops = s.ops := rfl
@[simp] theorem State.modHost_cqWait (f : HostIf → HostIf) : (s.modHost f).cqWait = s.cqWait := rfl
@[simp] theorem State.modHost_eqHeld (f : HostIf → HostIf) : (s.modHost f).eqHeld = s.eqHeld := rfl
@[simp] theorem State.modHost_eqLossy (f : HostIf → HostIf) : (s.modHost f).eqLossy = s.eqLossy := rfl
@[simp] theorem State.modHost_extents (f : HostIf → HostIf) : (s.modHost f).extents = s.extents := rfl
@[simp] theorem State.modHost_bobs (f : HostIf → HostIf) : (s.modHost f).bobs = s.bobs := rfl
@[simp] theorem State.modHost_cap (f : HostIf → HostIf) : (s.modHost f).cap = s.cap := rfl
@[simp] theorem State.modHost_twin (f : HostIf → HostIf) : (s.modHost f).twin = s.twin := rfl
@[simp] theorem State.modHost_wcs (f : HostIf → HostIf) : (s.modHost f).wcs = s.wcs := rfl
@[simp] theorem State.modHost_sup (f : HostIf → HostIf) : (s.modHost f).sup = s.sup := rfl
@[simp] theorem State.modHost_pwr (f : HostIf → HostIf) : (s.modHost f).pwr = s.pwr := rfl
@[simp] theorem State.modHost_nvm (f : HostIf → HostIf) : (s.modHost f).nvm = s.nvm := rfl
@[simp] theorem State.modHost_sec (f : HostIf → HostIf) : (s.modHost f).sec = s.sec := rfl
@[simp] theorem State.modHost_safetyStat (f : HostIf → HostIf) : (s.modHost f).safetyStat = s.safetyStat := rfl
@[simp] theorem State.modHost_ue (f : HostIf → HostIf) : (s.modHost f).ue = s.ue := rfl
@[simp] theorem State.modHost_ce (f : HostIf → HostIf) : (s.modHost f).ce = s.ce := rfl
@[simp] theorem State.modHost_host (f : HostIf → HostIf) : (s.modHost f).host = f s.host := rfl

/-! ## `State.modTwin` -/

@[simp] theorem State.modTwin_pending (f : Twin → Twin) : (s.modTwin f).pending = s.pending := rfl
@[simp] theorem State.modTwin_out (f : Twin → Twin) : (s.modTwin f).out = s.out := rfl
@[simp] theorem State.modTwin_free (f : Twin → Twin) : (s.modTwin f).free = s.free := rfl
@[simp] theorem State.modTwin_cycles (f : Twin → Twin) : (s.modTwin f).cycles = s.cycles := rfl
@[simp] theorem State.modTwin_grade (f : Twin → Twin) : (s.modTwin f).grade = s.grade := rfl
@[simp] theorem State.modTwin_regs (f : Twin → Twin) : (s.modTwin f).regs = s.regs := rfl
@[simp] theorem State.modTwin_lanes (f : Twin → Twin) : (s.modTwin f).lanes = s.lanes := rfl
@[simp] theorem State.modTwin_cells (f : Twin → Twin) : (s.modTwin f).cells = s.cells := rfl
@[simp] theorem State.modTwin_engines (f : Twin → Twin) : (s.modTwin f).engines = s.engines := rfl
@[simp] theorem State.modTwin_guardSram (f : Twin → Twin) : (s.modTwin f).guardSram = s.guardSram := rfl
@[simp] theorem State.modTwin_guardOtp (f : Twin → Twin) : (s.modTwin f).guardOtp = s.guardOtp := rfl
@[simp] theorem State.modTwin_guardUe (f : Twin → Twin) : (s.modTwin f).guardUe = s.guardUe := rfl
@[simp] theorem State.modTwin_guardRej (f : Twin → Twin) : (s.modTwin f).guardRej = s.guardRej := rfl
@[simp] theorem State.modTwin_drawerMem (f : Twin → Twin) : (s.modTwin f).drawerMem = s.drawerMem := rfl
@[simp] theorem State.modTwin_railMem (f : Twin → Twin) : (s.modTwin f).railMem = s.railMem := rfl
@[simp] theorem State.modTwin_ledger (f : Twin → Twin) : (s.modTwin f).ledger = s.ledger := rfl
@[simp] theorem State.modTwin_patMem (f : Twin → Twin) : (s.modTwin f).patMem = s.patMem := rfl
@[simp] theorem State.modTwin_rails (f : Twin → Twin) : (s.modTwin f).rails = s.rails := rfl
@[simp] theorem State.modTwin_sync (f : Twin → Twin) : (s.modTwin f).sync = s.sync := rfl
@[simp] theorem State.modTwin_ho (f : Twin → Twin) : (s.modTwin f).ho = s.ho := rfl
@[simp] theorem State.modTwin_time (f : Twin → Twin) : (s.modTwin f).time = s.time := rfl
@[simp] theorem State.modTwin_encs (f : Twin → Twin) : (s.modTwin f).encs = s.encs := rfl
@[simp] theorem State.modTwin_cycs (f : Twin → Twin) : (s.modTwin f).cycs = s.cycs := rfl
@[simp] theorem State.modTwin_marks (f : Twin → Twin) : (s.modTwin f).marks = s.marks := rfl
@[simp] theorem State.modTwin_plan (f : Twin → Twin) : (s.modTwin f).plan = s.plan := rfl
@[simp] theorem State.modTwin_threads (f : Twin → Twin) : (s.modTwin f).threads = s.threads := rfl
@[simp] theorem State.modTwin_evPend (f : Twin → Twin) : (s.modTwin f).evPend = s.evPend := rfl
@[simp] theorem State.modTwin_deadlock (f : Twin → Twin) : (s.modTwin f).deadlock = s.deadlock := rfl
@[simp] theorem State.modTwin_foreign (f : Twin → Twin) : (s.modTwin f).foreign = s.foreign := rfl
@[simp] theorem State.modTwin_broken (f : Twin → Twin) : (s.modTwin f).broken = s.broken := rfl
@[simp] theorem State.modTwin_routeAt (f : Twin → Twin) : (s.modTwin f).routeAt = s.routeAt := rfl
@[simp] theorem State.modTwin_rings (f : Twin → Twin) : (s.modTwin f).rings = s.rings := rfl
@[simp] theorem State.modTwin_ops (f : Twin → Twin) : (s.modTwin f).ops = s.ops := rfl
@[simp] theorem State.modTwin_cqWait (f : Twin → Twin) : (s.modTwin f).cqWait = s.cqWait := rfl
@[simp] theorem State.modTwin_eqHeld (f : Twin → Twin) : (s.modTwin f).eqHeld = s.eqHeld := rfl
@[simp] theorem State.modTwin_eqLossy (f : Twin → Twin) : (s.modTwin f).eqLossy = s.eqLossy := rfl
@[simp] theorem State.modTwin_host (f : Twin → Twin) : (s.modTwin f).host = s.host := rfl
@[simp] theorem State.modTwin_extents (f : Twin → Twin) : (s.modTwin f).extents = s.extents := rfl
@[simp] theorem State.modTwin_bobs (f : Twin → Twin) : (s.modTwin f).bobs = s.bobs := rfl
@[simp] theorem State.modTwin_cap (f : Twin → Twin) : (s.modTwin f).cap = s.cap := rfl
@[simp] theorem State.modTwin_wcs (f : Twin → Twin) : (s.modTwin f).wcs = s.wcs := rfl
@[simp] theorem State.modTwin_sup (f : Twin → Twin) : (s.modTwin f).sup = s.sup := rfl
@[simp] theorem State.modTwin_pwr (f : Twin → Twin) : (s.modTwin f).pwr = s.pwr := rfl
@[simp] theorem State.modTwin_nvm (f : Twin → Twin) : (s.modTwin f).nvm = s.nvm := rfl
@[simp] theorem State.modTwin_sec (f : Twin → Twin) : (s.modTwin f).sec = s.sec := rfl
@[simp] theorem State.modTwin_safetyStat (f : Twin → Twin) : (s.modTwin f).safetyStat = s.safetyStat := rfl
@[simp] theorem State.modTwin_ue (f : Twin → Twin) : (s.modTwin f).ue = s.ue := rfl
@[simp] theorem State.modTwin_ce (f : Twin → Twin) : (s.modTwin f).ce = s.ce := rfl
@[simp] theorem State.modTwin_twin (f : Twin → Twin) : (s.modTwin f).twin = f s.twin := rfl

/-! ## `State.modSup` -/

@[simp] theorem State.modSup_pending (f : Sup → Sup) : (s.modSup f).pending = s.pending := rfl
@[simp] theorem State.modSup_out (f : Sup → Sup) : (s.modSup f).out = s.out := rfl
@[simp] theorem State.modSup_free (f : Sup → Sup) : (s.modSup f).free = s.free := rfl
@[simp] theorem State.modSup_cycles (f : Sup → Sup) : (s.modSup f).cycles = s.cycles := rfl
@[simp] theorem State.modSup_grade (f : Sup → Sup) : (s.modSup f).grade = s.grade := rfl
@[simp] theorem State.modSup_regs (f : Sup → Sup) : (s.modSup f).regs = s.regs := rfl
@[simp] theorem State.modSup_lanes (f : Sup → Sup) : (s.modSup f).lanes = s.lanes := rfl
@[simp] theorem State.modSup_cells (f : Sup → Sup) : (s.modSup f).cells = s.cells := rfl
@[simp] theorem State.modSup_engines (f : Sup → Sup) : (s.modSup f).engines = s.engines := rfl
@[simp] theorem State.modSup_guardSram (f : Sup → Sup) : (s.modSup f).guardSram = s.guardSram := rfl
@[simp] theorem State.modSup_guardOtp (f : Sup → Sup) : (s.modSup f).guardOtp = s.guardOtp := rfl
@[simp] theorem State.modSup_guardUe (f : Sup → Sup) : (s.modSup f).guardUe = s.guardUe := rfl
@[simp] theorem State.modSup_guardRej (f : Sup → Sup) : (s.modSup f).guardRej = s.guardRej := rfl
@[simp] theorem State.modSup_drawerMem (f : Sup → Sup) : (s.modSup f).drawerMem = s.drawerMem := rfl
@[simp] theorem State.modSup_railMem (f : Sup → Sup) : (s.modSup f).railMem = s.railMem := rfl
@[simp] theorem State.modSup_ledger (f : Sup → Sup) : (s.modSup f).ledger = s.ledger := rfl
@[simp] theorem State.modSup_patMem (f : Sup → Sup) : (s.modSup f).patMem = s.patMem := rfl
@[simp] theorem State.modSup_rails (f : Sup → Sup) : (s.modSup f).rails = s.rails := rfl
@[simp] theorem State.modSup_sync (f : Sup → Sup) : (s.modSup f).sync = s.sync := rfl
@[simp] theorem State.modSup_ho (f : Sup → Sup) : (s.modSup f).ho = s.ho := rfl
@[simp] theorem State.modSup_time (f : Sup → Sup) : (s.modSup f).time = s.time := rfl
@[simp] theorem State.modSup_encs (f : Sup → Sup) : (s.modSup f).encs = s.encs := rfl
@[simp] theorem State.modSup_cycs (f : Sup → Sup) : (s.modSup f).cycs = s.cycs := rfl
@[simp] theorem State.modSup_marks (f : Sup → Sup) : (s.modSup f).marks = s.marks := rfl
@[simp] theorem State.modSup_plan (f : Sup → Sup) : (s.modSup f).plan = s.plan := rfl
@[simp] theorem State.modSup_threads (f : Sup → Sup) : (s.modSup f).threads = s.threads := rfl
@[simp] theorem State.modSup_evPend (f : Sup → Sup) : (s.modSup f).evPend = s.evPend := rfl
@[simp] theorem State.modSup_deadlock (f : Sup → Sup) : (s.modSup f).deadlock = s.deadlock := rfl
@[simp] theorem State.modSup_foreign (f : Sup → Sup) : (s.modSup f).foreign = s.foreign := rfl
@[simp] theorem State.modSup_broken (f : Sup → Sup) : (s.modSup f).broken = s.broken := rfl
@[simp] theorem State.modSup_routeAt (f : Sup → Sup) : (s.modSup f).routeAt = s.routeAt := rfl
@[simp] theorem State.modSup_rings (f : Sup → Sup) : (s.modSup f).rings = s.rings := rfl
@[simp] theorem State.modSup_ops (f : Sup → Sup) : (s.modSup f).ops = s.ops := rfl
@[simp] theorem State.modSup_cqWait (f : Sup → Sup) : (s.modSup f).cqWait = s.cqWait := rfl
@[simp] theorem State.modSup_eqHeld (f : Sup → Sup) : (s.modSup f).eqHeld = s.eqHeld := rfl
@[simp] theorem State.modSup_eqLossy (f : Sup → Sup) : (s.modSup f).eqLossy = s.eqLossy := rfl
@[simp] theorem State.modSup_host (f : Sup → Sup) : (s.modSup f).host = s.host := rfl
@[simp] theorem State.modSup_extents (f : Sup → Sup) : (s.modSup f).extents = s.extents := rfl
@[simp] theorem State.modSup_bobs (f : Sup → Sup) : (s.modSup f).bobs = s.bobs := rfl
@[simp] theorem State.modSup_cap (f : Sup → Sup) : (s.modSup f).cap = s.cap := rfl
@[simp] theorem State.modSup_twin (f : Sup → Sup) : (s.modSup f).twin = s.twin := rfl
@[simp] theorem State.modSup_wcs (f : Sup → Sup) : (s.modSup f).wcs = s.wcs := rfl
@[simp] theorem State.modSup_pwr (f : Sup → Sup) : (s.modSup f).pwr = s.pwr := rfl
@[simp] theorem State.modSup_nvm (f : Sup → Sup) : (s.modSup f).nvm = s.nvm := rfl
@[simp] theorem State.modSup_sec (f : Sup → Sup) : (s.modSup f).sec = s.sec := rfl
@[simp] theorem State.modSup_safetyStat (f : Sup → Sup) : (s.modSup f).safetyStat = s.safetyStat := rfl
@[simp] theorem State.modSup_ue (f : Sup → Sup) : (s.modSup f).ue = s.ue := rfl
@[simp] theorem State.modSup_ce (f : Sup → Sup) : (s.modSup f).ce = s.ce := rfl
@[simp] theorem State.modSup_sup (f : Sup → Sup) : (s.modSup f).sup = f s.sup := rfl

/-! ## `State.modPwr` -/

@[simp] theorem State.modPwr_pending (f : Pwr → Pwr) : (s.modPwr f).pending = s.pending := rfl
@[simp] theorem State.modPwr_out (f : Pwr → Pwr) : (s.modPwr f).out = s.out := rfl
@[simp] theorem State.modPwr_free (f : Pwr → Pwr) : (s.modPwr f).free = s.free := rfl
@[simp] theorem State.modPwr_cycles (f : Pwr → Pwr) : (s.modPwr f).cycles = s.cycles := rfl
@[simp] theorem State.modPwr_grade (f : Pwr → Pwr) : (s.modPwr f).grade = s.grade := rfl
@[simp] theorem State.modPwr_regs (f : Pwr → Pwr) : (s.modPwr f).regs = s.regs := rfl
@[simp] theorem State.modPwr_lanes (f : Pwr → Pwr) : (s.modPwr f).lanes = s.lanes := rfl
@[simp] theorem State.modPwr_cells (f : Pwr → Pwr) : (s.modPwr f).cells = s.cells := rfl
@[simp] theorem State.modPwr_engines (f : Pwr → Pwr) : (s.modPwr f).engines = s.engines := rfl
@[simp] theorem State.modPwr_guardSram (f : Pwr → Pwr) : (s.modPwr f).guardSram = s.guardSram := rfl
@[simp] theorem State.modPwr_guardOtp (f : Pwr → Pwr) : (s.modPwr f).guardOtp = s.guardOtp := rfl
@[simp] theorem State.modPwr_guardUe (f : Pwr → Pwr) : (s.modPwr f).guardUe = s.guardUe := rfl
@[simp] theorem State.modPwr_guardRej (f : Pwr → Pwr) : (s.modPwr f).guardRej = s.guardRej := rfl
@[simp] theorem State.modPwr_drawerMem (f : Pwr → Pwr) : (s.modPwr f).drawerMem = s.drawerMem := rfl
@[simp] theorem State.modPwr_railMem (f : Pwr → Pwr) : (s.modPwr f).railMem = s.railMem := rfl
@[simp] theorem State.modPwr_ledger (f : Pwr → Pwr) : (s.modPwr f).ledger = s.ledger := rfl
@[simp] theorem State.modPwr_patMem (f : Pwr → Pwr) : (s.modPwr f).patMem = s.patMem := rfl
@[simp] theorem State.modPwr_rails (f : Pwr → Pwr) : (s.modPwr f).rails = s.rails := rfl
@[simp] theorem State.modPwr_sync (f : Pwr → Pwr) : (s.modPwr f).sync = s.sync := rfl
@[simp] theorem State.modPwr_ho (f : Pwr → Pwr) : (s.modPwr f).ho = s.ho := rfl
@[simp] theorem State.modPwr_time (f : Pwr → Pwr) : (s.modPwr f).time = s.time := rfl
@[simp] theorem State.modPwr_encs (f : Pwr → Pwr) : (s.modPwr f).encs = s.encs := rfl
@[simp] theorem State.modPwr_cycs (f : Pwr → Pwr) : (s.modPwr f).cycs = s.cycs := rfl
@[simp] theorem State.modPwr_marks (f : Pwr → Pwr) : (s.modPwr f).marks = s.marks := rfl
@[simp] theorem State.modPwr_plan (f : Pwr → Pwr) : (s.modPwr f).plan = s.plan := rfl
@[simp] theorem State.modPwr_threads (f : Pwr → Pwr) : (s.modPwr f).threads = s.threads := rfl
@[simp] theorem State.modPwr_evPend (f : Pwr → Pwr) : (s.modPwr f).evPend = s.evPend := rfl
@[simp] theorem State.modPwr_deadlock (f : Pwr → Pwr) : (s.modPwr f).deadlock = s.deadlock := rfl
@[simp] theorem State.modPwr_foreign (f : Pwr → Pwr) : (s.modPwr f).foreign = s.foreign := rfl
@[simp] theorem State.modPwr_broken (f : Pwr → Pwr) : (s.modPwr f).broken = s.broken := rfl
@[simp] theorem State.modPwr_routeAt (f : Pwr → Pwr) : (s.modPwr f).routeAt = s.routeAt := rfl
@[simp] theorem State.modPwr_rings (f : Pwr → Pwr) : (s.modPwr f).rings = s.rings := rfl
@[simp] theorem State.modPwr_ops (f : Pwr → Pwr) : (s.modPwr f).ops = s.ops := rfl
@[simp] theorem State.modPwr_cqWait (f : Pwr → Pwr) : (s.modPwr f).cqWait = s.cqWait := rfl
@[simp] theorem State.modPwr_eqHeld (f : Pwr → Pwr) : (s.modPwr f).eqHeld = s.eqHeld := rfl
@[simp] theorem State.modPwr_eqLossy (f : Pwr → Pwr) : (s.modPwr f).eqLossy = s.eqLossy := rfl
@[simp] theorem State.modPwr_host (f : Pwr → Pwr) : (s.modPwr f).host = s.host := rfl
@[simp] theorem State.modPwr_extents (f : Pwr → Pwr) : (s.modPwr f).extents = s.extents := rfl
@[simp] theorem State.modPwr_bobs (f : Pwr → Pwr) : (s.modPwr f).bobs = s.bobs := rfl
@[simp] theorem State.modPwr_cap (f : Pwr → Pwr) : (s.modPwr f).cap = s.cap := rfl
@[simp] theorem State.modPwr_twin (f : Pwr → Pwr) : (s.modPwr f).twin = s.twin := rfl
@[simp] theorem State.modPwr_wcs (f : Pwr → Pwr) : (s.modPwr f).wcs = s.wcs := rfl
@[simp] theorem State.modPwr_sup (f : Pwr → Pwr) : (s.modPwr f).sup = s.sup := rfl
@[simp] theorem State.modPwr_nvm (f : Pwr → Pwr) : (s.modPwr f).nvm = s.nvm := rfl
@[simp] theorem State.modPwr_sec (f : Pwr → Pwr) : (s.modPwr f).sec = s.sec := rfl
@[simp] theorem State.modPwr_safetyStat (f : Pwr → Pwr) : (s.modPwr f).safetyStat = s.safetyStat := rfl
@[simp] theorem State.modPwr_ue (f : Pwr → Pwr) : (s.modPwr f).ue = s.ue := rfl
@[simp] theorem State.modPwr_ce (f : Pwr → Pwr) : (s.modPwr f).ce = s.ce := rfl
@[simp] theorem State.modPwr_pwr (f : Pwr → Pwr) : (s.modPwr f).pwr = f s.pwr := rfl

/-! ## `State.modNvm` -/

@[simp] theorem State.modNvm_pending (f : Nvm → Nvm) : (s.modNvm f).pending = s.pending := rfl
@[simp] theorem State.modNvm_out (f : Nvm → Nvm) : (s.modNvm f).out = s.out := rfl
@[simp] theorem State.modNvm_free (f : Nvm → Nvm) : (s.modNvm f).free = s.free := rfl
@[simp] theorem State.modNvm_cycles (f : Nvm → Nvm) : (s.modNvm f).cycles = s.cycles := rfl
@[simp] theorem State.modNvm_grade (f : Nvm → Nvm) : (s.modNvm f).grade = s.grade := rfl
@[simp] theorem State.modNvm_regs (f : Nvm → Nvm) : (s.modNvm f).regs = s.regs := rfl
@[simp] theorem State.modNvm_lanes (f : Nvm → Nvm) : (s.modNvm f).lanes = s.lanes := rfl
@[simp] theorem State.modNvm_cells (f : Nvm → Nvm) : (s.modNvm f).cells = s.cells := rfl
@[simp] theorem State.modNvm_engines (f : Nvm → Nvm) : (s.modNvm f).engines = s.engines := rfl
@[simp] theorem State.modNvm_guardSram (f : Nvm → Nvm) : (s.modNvm f).guardSram = s.guardSram := rfl
@[simp] theorem State.modNvm_guardOtp (f : Nvm → Nvm) : (s.modNvm f).guardOtp = s.guardOtp := rfl
@[simp] theorem State.modNvm_guardUe (f : Nvm → Nvm) : (s.modNvm f).guardUe = s.guardUe := rfl
@[simp] theorem State.modNvm_guardRej (f : Nvm → Nvm) : (s.modNvm f).guardRej = s.guardRej := rfl
@[simp] theorem State.modNvm_drawerMem (f : Nvm → Nvm) : (s.modNvm f).drawerMem = s.drawerMem := rfl
@[simp] theorem State.modNvm_railMem (f : Nvm → Nvm) : (s.modNvm f).railMem = s.railMem := rfl
@[simp] theorem State.modNvm_ledger (f : Nvm → Nvm) : (s.modNvm f).ledger = s.ledger := rfl
@[simp] theorem State.modNvm_patMem (f : Nvm → Nvm) : (s.modNvm f).patMem = s.patMem := rfl
@[simp] theorem State.modNvm_rails (f : Nvm → Nvm) : (s.modNvm f).rails = s.rails := rfl
@[simp] theorem State.modNvm_sync (f : Nvm → Nvm) : (s.modNvm f).sync = s.sync := rfl
@[simp] theorem State.modNvm_ho (f : Nvm → Nvm) : (s.modNvm f).ho = s.ho := rfl
@[simp] theorem State.modNvm_time (f : Nvm → Nvm) : (s.modNvm f).time = s.time := rfl
@[simp] theorem State.modNvm_encs (f : Nvm → Nvm) : (s.modNvm f).encs = s.encs := rfl
@[simp] theorem State.modNvm_cycs (f : Nvm → Nvm) : (s.modNvm f).cycs = s.cycs := rfl
@[simp] theorem State.modNvm_marks (f : Nvm → Nvm) : (s.modNvm f).marks = s.marks := rfl
@[simp] theorem State.modNvm_plan (f : Nvm → Nvm) : (s.modNvm f).plan = s.plan := rfl
@[simp] theorem State.modNvm_threads (f : Nvm → Nvm) : (s.modNvm f).threads = s.threads := rfl
@[simp] theorem State.modNvm_evPend (f : Nvm → Nvm) : (s.modNvm f).evPend = s.evPend := rfl
@[simp] theorem State.modNvm_deadlock (f : Nvm → Nvm) : (s.modNvm f).deadlock = s.deadlock := rfl
@[simp] theorem State.modNvm_foreign (f : Nvm → Nvm) : (s.modNvm f).foreign = s.foreign := rfl
@[simp] theorem State.modNvm_broken (f : Nvm → Nvm) : (s.modNvm f).broken = s.broken := rfl
@[simp] theorem State.modNvm_routeAt (f : Nvm → Nvm) : (s.modNvm f).routeAt = s.routeAt := rfl
@[simp] theorem State.modNvm_rings (f : Nvm → Nvm) : (s.modNvm f).rings = s.rings := rfl
@[simp] theorem State.modNvm_ops (f : Nvm → Nvm) : (s.modNvm f).ops = s.ops := rfl
@[simp] theorem State.modNvm_cqWait (f : Nvm → Nvm) : (s.modNvm f).cqWait = s.cqWait := rfl
@[simp] theorem State.modNvm_eqHeld (f : Nvm → Nvm) : (s.modNvm f).eqHeld = s.eqHeld := rfl
@[simp] theorem State.modNvm_eqLossy (f : Nvm → Nvm) : (s.modNvm f).eqLossy = s.eqLossy := rfl
@[simp] theorem State.modNvm_host (f : Nvm → Nvm) : (s.modNvm f).host = s.host := rfl
@[simp] theorem State.modNvm_extents (f : Nvm → Nvm) : (s.modNvm f).extents = s.extents := rfl
@[simp] theorem State.modNvm_bobs (f : Nvm → Nvm) : (s.modNvm f).bobs = s.bobs := rfl
@[simp] theorem State.modNvm_cap (f : Nvm → Nvm) : (s.modNvm f).cap = s.cap := rfl
@[simp] theorem State.modNvm_twin (f : Nvm → Nvm) : (s.modNvm f).twin = s.twin := rfl
@[simp] theorem State.modNvm_wcs (f : Nvm → Nvm) : (s.modNvm f).wcs = s.wcs := rfl
@[simp] theorem State.modNvm_sup (f : Nvm → Nvm) : (s.modNvm f).sup = s.sup := rfl
@[simp] theorem State.modNvm_pwr (f : Nvm → Nvm) : (s.modNvm f).pwr = s.pwr := rfl
@[simp] theorem State.modNvm_sec (f : Nvm → Nvm) : (s.modNvm f).sec = s.sec := rfl
@[simp] theorem State.modNvm_safetyStat (f : Nvm → Nvm) : (s.modNvm f).safetyStat = s.safetyStat := rfl
@[simp] theorem State.modNvm_ue (f : Nvm → Nvm) : (s.modNvm f).ue = s.ue := rfl
@[simp] theorem State.modNvm_ce (f : Nvm → Nvm) : (s.modNvm f).ce = s.ce := rfl
@[simp] theorem State.modNvm_nvm (f : Nvm → Nvm) : (s.modNvm f).nvm = f s.nvm := rfl

/-! ## `State.modSec` -/

@[simp] theorem State.modSec_pending (f : Sec → Sec) : (s.modSec f).pending = s.pending := rfl
@[simp] theorem State.modSec_out (f : Sec → Sec) : (s.modSec f).out = s.out := rfl
@[simp] theorem State.modSec_free (f : Sec → Sec) : (s.modSec f).free = s.free := rfl
@[simp] theorem State.modSec_cycles (f : Sec → Sec) : (s.modSec f).cycles = s.cycles := rfl
@[simp] theorem State.modSec_grade (f : Sec → Sec) : (s.modSec f).grade = s.grade := rfl
@[simp] theorem State.modSec_regs (f : Sec → Sec) : (s.modSec f).regs = s.regs := rfl
@[simp] theorem State.modSec_lanes (f : Sec → Sec) : (s.modSec f).lanes = s.lanes := rfl
@[simp] theorem State.modSec_cells (f : Sec → Sec) : (s.modSec f).cells = s.cells := rfl
@[simp] theorem State.modSec_engines (f : Sec → Sec) : (s.modSec f).engines = s.engines := rfl
@[simp] theorem State.modSec_guardSram (f : Sec → Sec) : (s.modSec f).guardSram = s.guardSram := rfl
@[simp] theorem State.modSec_guardOtp (f : Sec → Sec) : (s.modSec f).guardOtp = s.guardOtp := rfl
@[simp] theorem State.modSec_guardUe (f : Sec → Sec) : (s.modSec f).guardUe = s.guardUe := rfl
@[simp] theorem State.modSec_guardRej (f : Sec → Sec) : (s.modSec f).guardRej = s.guardRej := rfl
@[simp] theorem State.modSec_drawerMem (f : Sec → Sec) : (s.modSec f).drawerMem = s.drawerMem := rfl
@[simp] theorem State.modSec_railMem (f : Sec → Sec) : (s.modSec f).railMem = s.railMem := rfl
@[simp] theorem State.modSec_ledger (f : Sec → Sec) : (s.modSec f).ledger = s.ledger := rfl
@[simp] theorem State.modSec_patMem (f : Sec → Sec) : (s.modSec f).patMem = s.patMem := rfl
@[simp] theorem State.modSec_rails (f : Sec → Sec) : (s.modSec f).rails = s.rails := rfl
@[simp] theorem State.modSec_sync (f : Sec → Sec) : (s.modSec f).sync = s.sync := rfl
@[simp] theorem State.modSec_ho (f : Sec → Sec) : (s.modSec f).ho = s.ho := rfl
@[simp] theorem State.modSec_time (f : Sec → Sec) : (s.modSec f).time = s.time := rfl
@[simp] theorem State.modSec_encs (f : Sec → Sec) : (s.modSec f).encs = s.encs := rfl
@[simp] theorem State.modSec_cycs (f : Sec → Sec) : (s.modSec f).cycs = s.cycs := rfl
@[simp] theorem State.modSec_marks (f : Sec → Sec) : (s.modSec f).marks = s.marks := rfl
@[simp] theorem State.modSec_plan (f : Sec → Sec) : (s.modSec f).plan = s.plan := rfl
@[simp] theorem State.modSec_threads (f : Sec → Sec) : (s.modSec f).threads = s.threads := rfl
@[simp] theorem State.modSec_evPend (f : Sec → Sec) : (s.modSec f).evPend = s.evPend := rfl
@[simp] theorem State.modSec_deadlock (f : Sec → Sec) : (s.modSec f).deadlock = s.deadlock := rfl
@[simp] theorem State.modSec_foreign (f : Sec → Sec) : (s.modSec f).foreign = s.foreign := rfl
@[simp] theorem State.modSec_broken (f : Sec → Sec) : (s.modSec f).broken = s.broken := rfl
@[simp] theorem State.modSec_routeAt (f : Sec → Sec) : (s.modSec f).routeAt = s.routeAt := rfl
@[simp] theorem State.modSec_rings (f : Sec → Sec) : (s.modSec f).rings = s.rings := rfl
@[simp] theorem State.modSec_ops (f : Sec → Sec) : (s.modSec f).ops = s.ops := rfl
@[simp] theorem State.modSec_cqWait (f : Sec → Sec) : (s.modSec f).cqWait = s.cqWait := rfl
@[simp] theorem State.modSec_eqHeld (f : Sec → Sec) : (s.modSec f).eqHeld = s.eqHeld := rfl
@[simp] theorem State.modSec_eqLossy (f : Sec → Sec) : (s.modSec f).eqLossy = s.eqLossy := rfl
@[simp] theorem State.modSec_host (f : Sec → Sec) : (s.modSec f).host = s.host := rfl
@[simp] theorem State.modSec_extents (f : Sec → Sec) : (s.modSec f).extents = s.extents := rfl
@[simp] theorem State.modSec_bobs (f : Sec → Sec) : (s.modSec f).bobs = s.bobs := rfl
@[simp] theorem State.modSec_cap (f : Sec → Sec) : (s.modSec f).cap = s.cap := rfl
@[simp] theorem State.modSec_twin (f : Sec → Sec) : (s.modSec f).twin = s.twin := rfl
@[simp] theorem State.modSec_wcs (f : Sec → Sec) : (s.modSec f).wcs = s.wcs := rfl
@[simp] theorem State.modSec_sup (f : Sec → Sec) : (s.modSec f).sup = s.sup := rfl
@[simp] theorem State.modSec_pwr (f : Sec → Sec) : (s.modSec f).pwr = s.pwr := rfl
@[simp] theorem State.modSec_nvm (f : Sec → Sec) : (s.modSec f).nvm = s.nvm := rfl
@[simp] theorem State.modSec_safetyStat (f : Sec → Sec) : (s.modSec f).safetyStat = s.safetyStat := rfl
@[simp] theorem State.modSec_ue (f : Sec → Sec) : (s.modSec f).ue = s.ue := rfl
@[simp] theorem State.modSec_ce (f : Sec → Sec) : (s.modSec f).ce = s.ce := rfl
@[simp] theorem State.modSec_sec (f : Sec → Sec) : (s.modSec f).sec = f s.sec := rfl

/-! ## `State.safety` -/

@[simp] theorem State.safety_pending (i : Nat) : (s.safety i).pending = s.pending := rfl
@[simp] theorem State.safety_out (i : Nat) : (s.safety i).out = s.out := rfl
@[simp] theorem State.safety_free (i : Nat) : (s.safety i).free = s.free := rfl
@[simp] theorem State.safety_cycles (i : Nat) : (s.safety i).cycles = s.cycles := rfl
@[simp] theorem State.safety_grade (i : Nat) : (s.safety i).grade = s.grade := rfl
@[simp] theorem State.safety_regs (i : Nat) : (s.safety i).regs = s.regs := rfl
@[simp] theorem State.safety_lanes (i : Nat) : (s.safety i).lanes = s.lanes := rfl
@[simp] theorem State.safety_cells (i : Nat) : (s.safety i).cells = s.cells := rfl
@[simp] theorem State.safety_engines (i : Nat) : (s.safety i).engines = s.engines := rfl
@[simp] theorem State.safety_guardSram (i : Nat) : (s.safety i).guardSram = s.guardSram := rfl
@[simp] theorem State.safety_guardOtp (i : Nat) : (s.safety i).guardOtp = s.guardOtp := rfl
@[simp] theorem State.safety_guardUe (i : Nat) : (s.safety i).guardUe = s.guardUe := rfl
@[simp] theorem State.safety_guardRej (i : Nat) : (s.safety i).guardRej = s.guardRej := rfl
@[simp] theorem State.safety_drawerMem (i : Nat) : (s.safety i).drawerMem = s.drawerMem := rfl
@[simp] theorem State.safety_railMem (i : Nat) : (s.safety i).railMem = s.railMem := rfl
@[simp] theorem State.safety_ledger (i : Nat) : (s.safety i).ledger = s.ledger := rfl
@[simp] theorem State.safety_patMem (i : Nat) : (s.safety i).patMem = s.patMem := rfl
@[simp] theorem State.safety_rails (i : Nat) : (s.safety i).rails = s.rails := rfl
@[simp] theorem State.safety_sync (i : Nat) : (s.safety i).sync = s.sync := rfl
@[simp] theorem State.safety_ho (i : Nat) : (s.safety i).ho = s.ho := rfl
@[simp] theorem State.safety_time (i : Nat) : (s.safety i).time = s.time := rfl
@[simp] theorem State.safety_encs (i : Nat) : (s.safety i).encs = s.encs := rfl
@[simp] theorem State.safety_cycs (i : Nat) : (s.safety i).cycs = s.cycs := rfl
@[simp] theorem State.safety_marks (i : Nat) : (s.safety i).marks = s.marks := rfl
@[simp] theorem State.safety_plan (i : Nat) : (s.safety i).plan = s.plan := rfl
@[simp] theorem State.safety_threads (i : Nat) : (s.safety i).threads = s.threads := rfl
@[simp] theorem State.safety_evPend (i : Nat) : (s.safety i).evPend = s.evPend := rfl
@[simp] theorem State.safety_deadlock (i : Nat) : (s.safety i).deadlock = s.deadlock := rfl
@[simp] theorem State.safety_foreign (i : Nat) : (s.safety i).foreign = s.foreign := rfl
@[simp] theorem State.safety_broken (i : Nat) : (s.safety i).broken = s.broken := rfl
@[simp] theorem State.safety_routeAt (i : Nat) : (s.safety i).routeAt = s.routeAt := rfl
@[simp] theorem State.safety_rings (i : Nat) : (s.safety i).rings = s.rings := rfl
@[simp] theorem State.safety_ops (i : Nat) : (s.safety i).ops = s.ops := rfl
@[simp] theorem State.safety_cqWait (i : Nat) : (s.safety i).cqWait = s.cqWait := rfl
@[simp] theorem State.safety_eqHeld (i : Nat) : (s.safety i).eqHeld = s.eqHeld := rfl
@[simp] theorem State.safety_eqLossy (i : Nat) : (s.safety i).eqLossy = s.eqLossy := rfl
@[simp] theorem State.safety_host (i : Nat) : (s.safety i).host = s.host := rfl
@[simp] theorem State.safety_extents (i : Nat) : (s.safety i).extents = s.extents := rfl
@[simp] theorem State.safety_bobs (i : Nat) : (s.safety i).bobs = s.bobs := rfl
@[simp] theorem State.safety_cap (i : Nat) : (s.safety i).cap = s.cap := rfl
@[simp] theorem State.safety_twin (i : Nat) : (s.safety i).twin = s.twin := rfl
@[simp] theorem State.safety_wcs (i : Nat) : (s.safety i).wcs = s.wcs := rfl
@[simp] theorem State.safety_sup (i : Nat) : (s.safety i).sup = s.sup := rfl
@[simp] theorem State.safety_pwr (i : Nat) : (s.safety i).pwr = s.pwr := rfl
@[simp] theorem State.safety_nvm (i : Nat) : (s.safety i).nvm = s.nvm := rfl
@[simp] theorem State.safety_sec (i : Nat) : (s.safety i).sec = s.sec := rfl
@[simp] theorem State.safety_ue (i : Nat) : (s.safety i).ue = s.ue := rfl
@[simp] theorem State.safety_ce (i : Nat) : (s.safety i).ce = s.ce := rfl
@[simp] theorem State.safety_safetyStat (i : Nat) : (s.safety i).safetyStat = setBit s.safetyStat i true := rfl

/-! ## `State.eccCe` -/

@[simp] theorem State.eccCe_pending : (s.eccCe).pending = s.pending := rfl
@[simp] theorem State.eccCe_out : (s.eccCe).out = s.out := rfl
@[simp] theorem State.eccCe_free : (s.eccCe).free = s.free := rfl
@[simp] theorem State.eccCe_cycles : (s.eccCe).cycles = s.cycles := rfl
@[simp] theorem State.eccCe_grade : (s.eccCe).grade = s.grade := rfl
@[simp] theorem State.eccCe_regs : (s.eccCe).regs = s.regs := rfl
@[simp] theorem State.eccCe_lanes : (s.eccCe).lanes = s.lanes := rfl
@[simp] theorem State.eccCe_cells : (s.eccCe).cells = s.cells := rfl
@[simp] theorem State.eccCe_engines : (s.eccCe).engines = s.engines := rfl
@[simp] theorem State.eccCe_guardSram : (s.eccCe).guardSram = s.guardSram := rfl
@[simp] theorem State.eccCe_guardOtp : (s.eccCe).guardOtp = s.guardOtp := rfl
@[simp] theorem State.eccCe_guardUe : (s.eccCe).guardUe = s.guardUe := rfl
@[simp] theorem State.eccCe_guardRej : (s.eccCe).guardRej = s.guardRej := rfl
@[simp] theorem State.eccCe_drawerMem : (s.eccCe).drawerMem = s.drawerMem := rfl
@[simp] theorem State.eccCe_railMem : (s.eccCe).railMem = s.railMem := rfl
@[simp] theorem State.eccCe_ledger : (s.eccCe).ledger = s.ledger := rfl
@[simp] theorem State.eccCe_patMem : (s.eccCe).patMem = s.patMem := rfl
@[simp] theorem State.eccCe_rails : (s.eccCe).rails = s.rails := rfl
@[simp] theorem State.eccCe_sync : (s.eccCe).sync = s.sync := rfl
@[simp] theorem State.eccCe_ho : (s.eccCe).ho = s.ho := rfl
@[simp] theorem State.eccCe_time : (s.eccCe).time = s.time := rfl
@[simp] theorem State.eccCe_encs : (s.eccCe).encs = s.encs := rfl
@[simp] theorem State.eccCe_cycs : (s.eccCe).cycs = s.cycs := rfl
@[simp] theorem State.eccCe_marks : (s.eccCe).marks = s.marks := rfl
@[simp] theorem State.eccCe_plan : (s.eccCe).plan = s.plan := rfl
@[simp] theorem State.eccCe_threads : (s.eccCe).threads = s.threads := rfl
@[simp] theorem State.eccCe_evPend : (s.eccCe).evPend = s.evPend := rfl
@[simp] theorem State.eccCe_deadlock : (s.eccCe).deadlock = s.deadlock := rfl
@[simp] theorem State.eccCe_foreign : (s.eccCe).foreign = s.foreign := rfl
@[simp] theorem State.eccCe_broken : (s.eccCe).broken = s.broken := rfl
@[simp] theorem State.eccCe_routeAt : (s.eccCe).routeAt = s.routeAt := rfl
@[simp] theorem State.eccCe_rings : (s.eccCe).rings = s.rings := rfl
@[simp] theorem State.eccCe_ops : (s.eccCe).ops = s.ops := rfl
@[simp] theorem State.eccCe_cqWait : (s.eccCe).cqWait = s.cqWait := rfl
@[simp] theorem State.eccCe_eqHeld : (s.eccCe).eqHeld = s.eqHeld := rfl
@[simp] theorem State.eccCe_eqLossy : (s.eccCe).eqLossy = s.eqLossy := rfl
@[simp] theorem State.eccCe_host : (s.eccCe).host = s.host := rfl
@[simp] theorem State.eccCe_extents : (s.eccCe).extents = s.extents := rfl
@[simp] theorem State.eccCe_bobs : (s.eccCe).bobs = s.bobs := rfl
@[simp] theorem State.eccCe_cap : (s.eccCe).cap = s.cap := rfl
@[simp] theorem State.eccCe_twin : (s.eccCe).twin = s.twin := rfl
@[simp] theorem State.eccCe_wcs : (s.eccCe).wcs = s.wcs := rfl
@[simp] theorem State.eccCe_sup : (s.eccCe).sup = s.sup := rfl
@[simp] theorem State.eccCe_pwr : (s.eccCe).pwr = s.pwr := rfl
@[simp] theorem State.eccCe_nvm : (s.eccCe).nvm = s.nvm := rfl
@[simp] theorem State.eccCe_sec : (s.eccCe).sec = s.sec := rfl
@[simp] theorem State.eccCe_safetyStat : (s.eccCe).safetyStat = s.safetyStat := rfl
@[simp] theorem State.eccCe_ue : (s.eccCe).ue = s.ue := rfl
@[simp] theorem State.eccCe_ce : (s.eccCe).ce = satInc 0xFFFF s.ce := rfl

@[simp] theorem State.modDbg_eq (f : Debug → Debug) : s.modDbg f = s.modSec fun c => { c with dbg := f c.dbg } := rfl

end Sys2Proof.Machine
end

