-- ==== Sys2Proof/Laws/Tab.lean ====
section
/-! SUPPORT. Sparse tables: a write is read back, touches no other key, and keeps the canonical form. The same for the units of the state and for the byte
memories. -/

namespace Sys2Proof.Machine

/-! ## Reading a table after a write -/

section
variable {α : Type} (d : Nat → α)

theorem tabGet_tabIns_same (t : List (Nat × α)) (i : Nat) (v : α) : tabGet d (tabIns t i v) i = v := by
  induction t with
  | nil => simp [tabIns, tabGet]
  | cons p t ih =>
    obtain ⟨k, u⟩ := p
    unfold tabIns
    split
    · simp [tabGet]
    · split
      · simp [tabGet]
      · have : k ≠ i := fun h => ‹¬i = k› h.symm
        simp [tabGet, this, ih]

theorem tabGet_tabIns_other (t : List (Nat × α)) (i j : Nat) (v : α) (h : j ≠ i) : tabGet d (tabIns t i v) j = tabGet d t j := by
  have h' : i ≠ j := fun e => h e.symm
  induction t with
  | nil => simp [tabIns, tabGet, h']
  | cons p t ih =>
    obtain ⟨k, u⟩ := p
    unfold tabIns
    split
    · simp [tabGet, h']
    · split
      · rename_i e
        subst e
        simp [tabGet, h']
      · by_cases e : k = j <;> simp [tabGet, e, ih]

theorem tabGet_tabDel_same (t : List (Nat × α)) (i : Nat) : tabGet d (tabDel t i) i = d i := by
  induction t with
  | nil => rfl
  | cons p t ih =>
    obtain ⟨k, u⟩ := p
    unfold tabDel
    split
    · exact ih
    · rename_i e
      simp [tabGet, e, ih]

theorem tabGet_tabDel_other (t : List (Nat × α)) (i j : Nat) (h : j ≠ i) : tabGet d (tabDel t i) j = tabGet d t j := by
  induction t with
  | nil => rfl
  | cons p t ih =>
    obtain ⟨k, u⟩ := p
    unfold tabDel
    split
    · rename_i e
      subst e
      have : k ≠ j := fun e => h e.symm
      simp [tabGet, this, ih]
    · by_cases e : k = j <;> simp [tabGet, e, ih]

variable [DecidableEq α]

/-- What is written at a key is read there. -/
theorem tabGet_tabSet_same (t : List (Nat × α)) (i : Nat) (v : α) : tabGet d (tabSet d t i v) i = v := by
  unfold tabSet
  split
  · rename_i h; rw [tabGet_tabDel_same, h]
  · exact tabGet_tabIns_same d t i v

/-- A write at one key leaves every other key. -/
theorem tabGet_tabSet_other (t : List (Nat × α)) (i j : Nat) (v : α) (h : j ≠ i) : tabGet d (tabSet d t i v) j = tabGet d t j := by
  unfold tabSet
  split
  · exact tabGet_tabDel_other d t i j h
  · exact tabGet_tabIns_other d t i j v h

/-- Both at once. -/
theorem tabGet_tabSet (t : List (Nat × α)) (i j : Nat) (v : α) : tabGet d (tabSet d t i v) j = if j = i then v else tabGet d t j := by
  split
  · rename_i h; rw [h, tabGet_tabSet_same]
  · rename_i h; exact tabGet_tabSet_other d t i j v h

/-! ## The canonical form -/

theorem tabWfFrom_mono (t : List (Nat × α)) (lo lo' : Nat) (h : lo' ≤ lo) (w : tabWfFrom d lo t = true) : tabWfFrom d lo' t = true := by
  cases t with
  | nil => rfl
  | cons p t =>
    obtain ⟨k, u⟩ := p
    simp only [tabWfFrom, Bool.and_eq_true, decide_eq_true_eq] at w ⊢
    exact ⟨⟨by omega, w.1.2⟩, w.2⟩

theorem tabWfFrom_tabIns (t : List (Nat × α)) (lo i : Nat) (v : α) (hv : v ≠ d i) (hl : lo ≤ i) (w : tabWfFrom d lo t = true) :
    tabWfFrom d lo (tabIns t i v) = true := by
  induction t generalizing lo with
  | nil => simp [tabIns, tabWfFrom, hv, hl]
  | cons p t ih =>
    obtain ⟨k, u⟩ := p
    simp only [tabWfFrom, Bool.and_eq_true, decide_eq_true_eq] at w
    unfold tabIns
    split
    · simp only [tabWfFrom, Bool.and_eq_true, decide_eq_true_eq]
      exact ⟨⟨hl, hv⟩, ⟨by omega, w.1.2⟩, w.2⟩
    · split
      · rename_i e
        simp only [tabWfFrom, Bool.and_eq_true, decide_eq_true_eq]
        exact ⟨⟨hl, hv⟩, e ▸ w.2⟩
      · simp only [tabWfFrom, Bool.and_eq_true, decide_eq_true_eq]
        exact ⟨w.1, ih (k + 1) (by omega) w.2⟩

theorem tabWfFrom_tabDel (t : List (Nat × α)) (lo i : Nat) (w : tabWfFrom d lo t = true) : tabWfFrom d lo (tabDel t i) = true := by
  induction t generalizing lo with
  | nil => rfl
  | cons p t ih =>
    obtain ⟨k, u⟩ := p
    simp only [tabWfFrom, Bool.and_eq_true, decide_eq_true_eq] at w
    unfold tabDel
    split
    · exact tabWfFrom_mono d _ (k + 1) lo (by omega) (ih (k + 1) w.2)
    · simp only [tabWfFrom, Bool.and_eq_true, decide_eq_true_eq]
      exact ⟨w.1, ih (k + 1) w.2⟩

/-- A write keeps the canonical form. -/
theorem tabWf_tabSet (t : List (Nat × α)) (i : Nat) (v : α) (w : tabWf d t = true) : tabWf d (tabSet d t i v) = true := by
  unfold tabSet
  split
  · exact tabWfFrom_tabDel d t 0 i w
  · exact tabWfFrom_tabIns d t 0 i v ‹_› (Nat.zero_le i) w

end

/-! ## Byte memories -/

/-- A byte written is read back, and every other byte stays. -/
theorem memGet_memSet (d : Byte) (m : Mem) (a b : Nat) (v : Byte) : memGet d (memSet d m a v) b = if b = a then v else memGet d m b :=
  tabGet_tabSet _ m a b v

/-- A write of bytes changes no byte below it. -/
theorem memGet_memWrite_below (d : Byte) (l : List Byte) (m : Mem) (a b : Nat) (h : b < a) : memGet d (memWrite d m a l) b = memGet d m b := by
  induction l generalizing m a with
  | nil => rfl
  | cons x l ih =>
    have : b ≠ a := by omega
    simp [memWrite, ih _ (a + 1) (by omega), memGet_memSet, this]

/-- A write of bytes: each byte of the list is read at its address, every other address stays. -/
theorem memGet_memWrite (d : Byte) (l : List Byte) (m : Mem) (a b : Nat) :
    memGet d (memWrite d m a l) b = if a ≤ b ∧ b < a + l.length then l.getD (b - a) 0 else memGet d m b := by
  induction l generalizing m a with
  | nil => simp [memWrite]
  | cons x l ih =>
    rw [memWrite, ih]
    by_cases h : b = a
    · subst h
      have : ¬(b + 1 ≤ b ∧ b < b + 1 + l.length) := by omega
      simp [memGet_memSet]
    · by_cases h2 : a + 1 ≤ b ∧ b < a + 1 + l.length
      · have e : b - a = (b - (a + 1)) + 1 := by omega
        have : a ≤ b ∧ b < a + (x :: l).length := by simp; omega
        rw [if_pos h2, if_pos this, e, List.getD_cons_succ]
      · have : ¬(a ≤ b ∧ b < a + (x :: l).length) := by simp; omega
        simp only [h2, this, if_false, memGet_memSet, h]

/-- Outside the bytes written, memory stays. -/
theorem memGet_memWrite_other (d : Byte) (l : List Byte) (m : Mem) (a b : Nat) (h : b < a ∨ a + l.length ≤ b) :
    memGet d (memWrite d m a l) b = memGet d m b := by
  rw [memGet_memWrite, if_neg (by omega)]

/-- The bytes written are read back. -/
theorem memRead_memWrite (d : Byte) (l : List Byte) (m : Mem) (a : Nat) : memRead d (memWrite d m a l) a l.length = l := by
  induction l generalizing m a with
  | nil => rfl
  | cons x l ih =>
    simp only [List.length_cons, memRead, memWrite, ih]
    rw [memGet_memWrite_below d l _ (a + 1) a (by omega), memGet_memSet, if_pos rfl]

/-- A byte write keeps the canonical form. -/
theorem memSet_wf (d : Byte) (m : Mem) (a : Nat) (v : Byte) (w : Memory.wf d m) : Memory.wf d (memSet d m a v) := tabWf_tabSet _ m a v w

/-- A write of bytes keeps the canonical form. -/
theorem memWrite_wf (d : Byte) (l : List Byte) (m : Mem) (a : Nat) (w : Memory.wf d m) : Memory.wf d (memWrite d m a l) := by
  induction l generalizing m a with
  | nil => exact w
  | cons x l ih => exact ih _ _ (memSet_wf d m a x w)

/-- The memories of the reset state are in canonical form. -/
theorem reset_memWf : State.reset.memWf := ⟨rfl, rfl, rfl, rfl⟩

theorem toLe_length (n v : Nat) : (toLe n v).length = n := by
  induction n generalizing v with
  | zero => rfl
  | succ n ih => simp [toLe, ih]

/-! ## Units -/

section
variable (s : State)

@[simp] theorem State.lane_setLane (n m : Nat) (l : Lane) : (s.setLane n l).lane m = if m = n then l else s.lane m := tabGet_tabSet _ _ n m l
@[simp] theorem State.cell_setCell (n m : Nat) (c : Cell) : (s.setCell n c).cell m = if m = n then c else s.cell m := tabGet_tabSet _ _ n m c
@[simp] theorem State.eng_setEng (n m : Nat) (g : Engine) : (s.setEng n g).eng m = if m = n then g else s.eng m := tabGet_tabSet _ _ n m g
@[simp] theorem State.rail_setRail (n m : Nat) (r : Rail) : (s.setRail n r).rail m = if m = n then r else s.rail m := tabGet_tabSet _ _ n m r
@[simp] theorem State.enc_setEnc (n m : Nat) (e : Enc) : (s.setEnc n e).enc m = if m = n then e else s.enc m := tabGet_tabSet _ _ n m e
@[simp] theorem State.cyc_setCyc (n m : Nat) (c : Cyc) : (s.setCyc n c).cyc m = if m = n then c else s.cyc m := tabGet_tabSet _ _ n m c
@[simp] theorem State.thr_setThr (n m : Nat) (x : Thread) : (s.setThr n x).thr m = if m = n then x else s.thr m := tabGet_tabSet _ _ n m x
@[simp] theorem State.ring_setRing (n m : Nat) (r : Ring) : (s.setRing n r).ring m = if m = n then r else s.ring m := tabGet_tabSet _ _ n m r
@[simp] theorem State.bob_setBob (n m : Nat) (x : Bobbin) : (s.setBob n x).bob m = if m = n then x else s.bob m := tabGet_tabSet _ _ n m x
@[simp] theorem State.wc_setWc (n m : Nat) (w : Wc) : (s.setWc n w).wc m = if m = n then w else s.wc m := tabGet_tabSet _ _ n m w
@[simp] theorem State.pend_setPend (n m : Nat) (v : BitVec 16) : (s.setPend n v).pend m = if m = n then v else s.pend m := tabGet_tabSet _ _ n m v

/-- A stored register after a write: itself the value, every other one as before. -/
theorem State.reg_setReg (off ix off' ix' : Nat) (v : Word) :
    (s.setReg off ix v).reg off' ix' = if regKey off' ix' = regKey off ix then v else s.reg off' ix' := tabGet_tabSet _ _ _ _ v

end

/-! A unit is read from its own table alone. -/

section
variable {s t : State}

theorem State.lane_congr (h : t.lanes = s.lanes) (n : Nat) : t.lane n = s.lane n := by simp [State.lane, h]
theorem State.cell_congr (h : t.cells = s.cells) (n : Nat) : t.cell n = s.cell n := by simp [State.cell, h]
theorem State.eng_congr (h : t.engines = s.engines) (n : Nat) : t.eng n = s.eng n := by simp [State.eng, h]
theorem State.rail_congr (h : t.rails = s.rails) (n : Nat) : t.rail n = s.rail n := by simp [State.rail, h]
theorem State.enc_congr (h : t.encs = s.encs) (n : Nat) : t.enc n = s.enc n := by simp [State.enc, h]
theorem State.cyc_congr (h : t.cycs = s.cycs) (n : Nat) : t.cyc n = s.cyc n := by simp [State.cyc, h]
theorem State.thr_congr (h : t.threads = s.threads) (n : Nat) : t.thr n = s.thr n := by simp [State.thr, h]
theorem State.ring_congr (h : t.rings = s.rings) (n : Nat) : t.ring n = s.ring n := by simp [State.ring, h]
theorem State.bob_congr (h : t.bobs = s.bobs) (n : Nat) : t.bob n = s.bob n := by simp [State.bob, h]
theorem State.wc_congr (h : t.wcs = s.wcs) (n : Nat) : t.wc n = s.wc n := by simp [State.wc, h]
theorem State.reg_congr (h : t.regs = s.regs) (off ix : Nat) : t.reg off ix = s.reg off ix := by simp [State.reg, h]
theorem State.pend_congr (h : t.evPend = s.evPend) (e : Nat) : t.pend e = s.pend e := by simp [State.pend, h]

end

end Sys2Proof.Machine
end

