-- ==== Sys2Proof/Laws/Records.lean ====
section
/-! SUPPORT. What the shared operations on records can do: event records, completion records and interrupt messages change nothing behind the host
interface; an operation's end posts its record and leaves nothing of it going on; and how an operation's checks fall through to its effect. -/

namespace Sys2Proof.Machine

/-! ## Nothing behind the host interface changes -/

section
variable (s : State)

@[simp] theorem inner_inner : s.inner.inner = s.inner := rfl
@[simp] theorem inner_emit (o : Out) : (s.emit o).inner = s.inner := rfl
@[simp] theorem inner_modOp (g : Nat) (f : Op → Op) : (s.modOp g f).inner = s.inner := rfl
@[simp] theorem inner_putOp (o : Op) : (s.putOp o).inner = s.inner := rfl
@[simp] theorem inner_dropOp (g : Nat) : (s.dropOp g).inner = s.inner := rfl
@[simp] theorem inner_setRing (k : Nat) (r : Ring) : (s.setRing k r).inner = s.inner := rfl

@[simp] theorem inner_msixSend (k : Nat) : (s.msixSend k).inner = s.inner := by
  unfold State.msixSend
  simp only
  split <;> rfl

@[simp] theorem inner_moderate (k : Nat) (irq : Bool) : (s.moderate k irq).inner = s.inner := by
  unfold State.moderate
  simp only
  split <;> simp

@[simp] theorem inner_eqWrite (r : List Byte) : (s.eqWrite r).inner = s.inner := by
  simp [State.eqWrite, State.takeSlot]
  rfl

@[simp] theorem inner_fetchGate : s.fetchGate.inner = s.inner := rfl

theorem inner_foldl_eqWrite (l : List (List Byte)) : (l.foldl State.eqWrite s).inner = s.inner := by
  induction l generalizing s with
  | nil => rfl
  | cons r l ih => rw [List.foldl_cons, ih, inner_eqWrite]

theorem inner_eqDrain (n : Nat) : (eqDrain n s).inner = s.inner := by
  induction n generalizing s with
  | zero => rfl
  | succ n ih =>
    unfold eqDrain
    split
    · rfl
    · split
      · rw [ih, inner_eqWrite]; rfl
      · split
        · simp only; rw [ih, inner_eqWrite]; rfl
        · split
          · split
            · rw [ih, inner_foldl_eqWrite]; rfl
            · rfl
          · rfl

@[simp] theorem inner_eqFlush : s.eqFlush.inner = s.inner := by
  rw [State.eqFlush, inner_fetchGate, inner_eqDrain]

@[simp] theorem inner_event (ty detail : Nat) (body : List Byte) : (s.event ty detail body).inner = s.inner := by
  unfold State.event
  simp only
  split <;> rw [inner_eqFlush] <;> rfl

@[simp] theorem inner_eventLossy (g : List (List Byte)) : (s.eventLossy g).inner = s.inner := by
  unfold State.eventLossy
  split <;> rw [inner_eqFlush] <;> rfl

theorem inner_cqDrain (n q : Nat) : (cqDrain n q s).inner = s.inner := by
  induction n generalizing s with
  | zero => rfl
  | succ n ih =>
    unfold cqDrain
    split
    · rfl
    · split
      · rfl
      · simp only
        rw [ih, inner_moderate, inner_emit]
        rfl

@[simp] theorem inner_cqFlush (q : Nat) : (s.cqFlush q).inner = s.inner := inner_cqDrain s _ q

@[simp] theorem inner_postCq (tag status code sq flags result : Nat) (irq : Bool) : (s.postCq tag status code sq flags result irq).inner = s.inner := by
  unfold State.postCq
  simp only
  rw [inner_cqFlush]
  rfl

/-- The end of a descriptor's operation changes nothing behind the host interface. -/
theorem inner_complete (o : Op) (status flags result : Nat) (h : o.tag < planTag) : (s.complete o status flags result).inner = s.inner := by
  unfold State.complete
  rw [if_neg (by omega), if_neg (by omega), inner_postCq, inner_modOp]

end

/-! ## The record that an end posts -/

theorem cqRec_isRecord (tag status code sq flags result : Nat) (ht : tag < 2 ^ 15) (hs : status < 256) (hf : flags < 256) (hr : result < 2 ^ 64) :
    isRecord tag status flags result (cqRec tag status code sq flags result) := by
  have e : ∀ n v, v < 256 ^ n → ∀ l, leAt (toLe n v ++ l) 0 n = v := by
    intro n
    have step : ∀ (b : Byte) (l : List Byte) (k i : Nat), leAt (b :: l) (i + 1) k = leAt l i k := by
      intro b l k
      induction k with
      | zero => intro i; rfl
      | succ k ih => intro i; simp [leAt, ih, byteAt]
    induction n with
    | zero => intro v hv l; simp at hv; simp [leAt, hv]
    | succ n ih =>
      intro v hv l
      have hd : v / 256 < 256 ^ n := by rw [Nat.div_lt_iff_lt_mul (by decide)]; rwa [Nat.pow_succ] at hv
      simp only [toLe, List.cons_append, leAt, step, ih (v / 256) hd]
      simp [byteAt]
      omega
  refine ⟨?_, ?_, ?_, ?_⟩
  · have h : tag < 256 ^ 2 := by omega
    simp only [cqRec, List.append_assoc]
    rw [e 2 tag h]
    omega
  · simp [cqRec, toLe, byteAt, Nat.mod_eq_of_lt hs]
  · simp [cqRec, toLe, byteAt, Nat.mod_eq_of_lt hf]
  · have h : result < 256 ^ 8 := by omega
    have := e 8 result h []
    simp only [List.append_nil] at this
    simpa [cqRec, toLe, leAt, byteAt] using this

theorem isRecord_patch (tag status code sq flags result head : Nat) (ph : Bool) (ht : tag < 2 ^ 15)
    (h : isRecord tag status flags result (cqRec tag status code sq flags result)) :
    isRecord tag status flags result
      (patch (patch (cqRec tag status code sq flags result) 1
        [BitVec.ofNat 8 (byteAt (cqRec tag status code sq flags result) 1 ||| 128 * b2n ph)]) 6 (toLe 2 head)) := by
  obtain ⟨-, h2, h5, h8⟩ := h
  refine ⟨?_, ?_, ?_, ?_⟩
  · have hb : tag / 256 < 128 := by omega
    have ho : (tag / 256 ||| 128) = tag / 256 + 128 := by
      have := Nat.two_pow_add_eq_or_of_lt (i := 7) (by omega : tag / 256 < 2 ^ 7) 1
      simp at this
      rw [Nat.or_comm, ← this]; omega
    cases ph <;> simp [cqRec, toLe, patch, leAt, byteAt, b2n] <;> (try rw [Nat.mod_eq_of_lt (by omega : tag / 256 < 256)]) <;> (try rw [ho]) <;> omega
  · simpa [cqRec, toLe, patch, leAt, byteAt] using h2
  · simpa [cqRec, toLe, patch, leAt, byteAt] using h5
  · simpa [cqRec, toLe, patch, leAt, byteAt] using h8

/-! The message and ring bookkeeping around a record keep what has left the device and the waiting records. -/

section
variable (s : State)

theorem msixSend_keeps (k : Nat) : (s.msixSend k).cqWait = s.cqWait ∧ (s.msixSend k).ops = s.ops ∧ ∀ o ∈ s.out, o ∈ (s.msixSend k).out := by
  unfold State.msixSend
  simp only
  split
  · exact ⟨rfl, rfl, fun _ h => h⟩
  · exact ⟨rfl, rfl, fun _ h => List.mem_cons_of_mem _ h⟩

theorem moderate_keeps (k : Nat) (irq : Bool) :
    (s.moderate k irq).cqWait = s.cqWait ∧ (s.moderate k irq).ops = s.ops ∧ ∀ o ∈ s.out, o ∈ (s.moderate k irq).out := by
  unfold State.moderate
  simp only
  split
  · exact msixSend_keeps (s.modRing k _) k
  · exact ⟨rfl, rfl, fun _ h => h⟩

end

/-- The record of a tag, as its end puts it into a queue, is written or waits. -/
def State.hasRecord (t : State) (tag status code sq flags result : Nat) : Prop :=
  (∃ q, ∃ irq, (cqRec tag status code sq flags result, irq, tag) ∈ t.cqWaiting q) ∨
    (∃ q slot b, Out.cqRecord q slot b ∈ t.out ∧ isRecord tag status flags result b)

theorem hasRecord_cqDrain (tag status code sq flags result : Nat) (ht : tag < 2 ^ 15) (hs : status < 256) (hf : flags < 256) (hr : result < 2 ^ 64)
    (n q : Nat) (s : State) (h : s.hasRecord tag status code sq flags result) : (cqDrain n q s).hasRecord tag status code sq flags result := by
  induction n generalizing s with
  | zero => exact h
  | succ n ih =>
    unfold cqDrain
    split
    · exact h
    · split
      · exact h
      · rename_i r irq g rest hw
        suffices H : ∀ (u : State) (slot : Nat) (ph : Bool) (head : Nat), u.cqWait = tabSet (fun _ => []) s.cqWait q rest →
            u.out = .cqRecord q slot (patch (patch r 1 [BitVec.ofNat 8 (byteAt r 1 ||| 128 * b2n ph)]) 6 (toLe 2 head)) :: s.out →
            (cqDrain n q (u.moderate (64 + q) irq)).hasRecord tag status code sq flags result from
          H _ _ (s.ring (64 + q)).phase _ rfl rfl
        intro u slot ph head hc ho
        apply ih
        obtain ⟨kc, -, ko⟩ := moderate_keeps u (64 + q) irq
        have hget : ∀ q', (u.moderate (64 + q) irq).cqWaiting q' = if q' = q then rest else s.cqWaiting q' := by
          intro q'
          rw [State.cqWaiting, kc, hc, tabGet_tabSet]
          rfl
        rcases h with ⟨q', irq', hm⟩ | ⟨q', slot', b, hm, hb⟩
        · by_cases e : q' = q
          · subst e
            rw [hw] at hm
            rcases List.mem_cons.mp hm with he | he
            · have e1 : r = cqRec tag status code sq flags result := by injection he with a _; exact a.symm
              refine Or.inr ⟨q', slot, _, ko _ (ho ▸ List.mem_cons_self ..), ?_⟩
              rw [e1]
              exact isRecord_patch _ _ _ _ _ _ _ _ ht (cqRec_isRecord _ _ _ _ _ _ ht hs hf hr)
            · exact Or.inl ⟨q', irq', by rw [hget, if_pos rfl]; exact he⟩
          · exact Or.inl ⟨q', irq', by rw [hget, if_neg e]; exact hm⟩
        · exact Or.inr ⟨q', slot', b, ko _ (ho ▸ List.mem_cons_of_mem _ hm), hb⟩

/-- Writing records drops no operation that is not done, and adds none. -/
theorem cqDrain_ops (n q : Nat) (s : State) : ∀ p ∈ (cqDrain n q s).ops, p ∈ s.ops := by
  induction n generalizing s with
  | zero => exact fun _ h => h
  | succ n ih =>
    unfold cqDrain
    split
    · exact fun _ h => h
    · split
      · exact fun _ h => h
      · rename_i r irq g rest hw
        suffices H : ∀ u : State, u.ops = s.ops.filter (fun o => !(o.tag == g && o.done)) → ∀ p ∈ (cqDrain n q (u.moderate (64 + q) irq)).ops, p ∈ s.ops from
          H _ rfl
        intro u hu p hp
        have := ih (u.moderate (64 + q) irq) p hp
        rw [(moderate_keeps u (64 + q) irq).2.1, hu] at this
        exact (List.mem_filter.mp this).1

/-- A posted record is written or waits. -/
theorem hasRecord_postCq (m : State) (tag status code sq flags result : Nat) (irq : Bool) (ht : tag < 2 ^ 15) (hs : status < 256) (hf : flags < 256)
    (hr : result < 2 ^ 64) : (m.postCq tag status code sq flags result irq).hasRecord tag status code sq flags result :=
  hasRecord_cqDrain _ _ _ _ _ _ ht hs hf hr _ _ _ (Or.inl ⟨m.cqOf sq, irq, by
    rw [State.cqWaiting, tabGet_tabSet_same]
    exact List.mem_append_right _ (List.mem_cons_self ..)⟩)

/-- The end of a descriptor's operation: its record is written or waits, nothing of it goes on, and nothing else behind the host interface changes. -/
theorem ends_complete (u : State) (o : Op) (status result : Nat) (ht : o.tag < planTag) (hs : status < 256) (hr : result < 2 ^ 64) :
    Ends u o.tag status result (u.complete o status 0 result) := by
  refine ⟨inner_complete u o status 0 result ht, ?_, ?_⟩
  · have h15 : o.tag < 2 ^ 15 := by unfold planTag at ht; omega
    unfold State.complete
    rw [if_neg (by omega), if_neg (by omega)]
    rcases hasRecord_postCq (u.modOp o.tag fun p => { p with done := true }) o.tag status o.code o.sq 0 result (bitOf o.flags 1) h15 hs (by omega) hr with
      ⟨q, irq, hq⟩ | ⟨q, slot, b, hb, hb'⟩
    · exact Or.inl ⟨q, _, hq, rfl, cqRec_isRecord _ _ _ _ _ _ h15 hs (by omega) hr⟩
    · exact Or.inr ⟨q, slot, b, hb, hb'⟩
  · intro p hp e
    unfold State.complete at hp
    rw [if_neg (by omega), if_neg (by omega)] at hp
    have := cqDrain_ops _ _ _ p hp
    obtain ⟨p', -, rfl⟩ := List.mem_map.mp this
    dsimp only at e ⊢
    split at e
    · rename_i h; rw [if_pos h]
    · contradiction

/-- A record stays, written or waiting, when another operation ends. -/
theorem hasRecord_complete {tag status code sq flags result : Nat} (ht : tag < 2 ^ 15) (hs : status < 256) (hf : flags < 256) (hr : result < 2 ^ 64)
    {u : State} (h : u.hasRecord tag status code sq flags result) (o : Op) (st fl re : Nat) (ho : o.tag < planTag) :
    (u.complete o st fl re).hasRecord tag status code sq flags result := by
  unfold State.complete
  rw [if_neg (by omega), if_neg (by omega)]
  refine hasRecord_cqDrain _ _ _ _ _ _ ht hs hf hr _ _ _ ?_
  rcases h with ⟨q, irq, h⟩ | h
  · refine Or.inl ⟨q, irq, ?_⟩
    rw [State.cqWaiting, tabGet_tabSet]
    split
    · rename_i e; subst e; exact List.mem_append_left _ h
    · exact h
  · exact Or.inr h

/-- The end of one operation lets none of another go on. -/
theorem noneLeft_complete {tag : Nat} {u : State} (h : u.noneLeft tag) (o : Op) (st fl re : Nat) (ho : o.tag < planTag) :
    (u.complete o st fl re).noneLeft tag := by
  intro p hp e
  unfold State.complete at hp
  rw [if_neg (by omega), if_neg (by omega)] at hp
  obtain ⟨p', hm, rfl⟩ := List.mem_map.mp (cqDrain_ops _ _ _ p hp)
  dsimp only at e ⊢
  split at e
  · rename_i h; rw [if_pos h]
  · rename_i h'; rw [if_neg h']; exact h _ hm e

/-- The record of an end, as claims speak of it. -/
theorem posted_of_hasRecord {tag status code sq flags result : Nat} (ht : tag < 2 ^ 15) (hs : status < 256) (hf : flags < 256) (hr : result < 2 ^ 64)
    {u : State} (h : u.hasRecord tag status code sq flags result) : u.posted tag status flags result := by
  rcases h with ⟨q, irq, h⟩ | h
  · exact Or.inl ⟨q, _, h, rfl, cqRec_isRecord _ _ _ _ _ _ ht hs hf hr⟩
  · exact Or.inr h

/-! ## Checks of an operation -/

section
variable {s : State} {tag code : Nat} {op : Op}

theorem findOp_tag {p : Op} (h : s.findOp tag = some p) : p.tag = tag := by
  have := List.find?_some h
  simpa using this

theorem liveOp_find (h : s.liveOp tag code = some op) : s.findOp tag = some op ∧ op.code = code ∧ op.done = false := by
  unfold State.liveOp at h
  split at h
  · rename_i o ho
    split at h
    · rename_i hc
      injection h with h
      subst h
      simp at hc
      exact ⟨ho, hc.1.1, hc.1.2⟩
    · contradiction
  · contradiction

theorem liveOp_tag (h : s.liveOp tag code = some op) : op.tag = tag := findOp_tag (liveOp_find h).1

theorem withOp_live (h : s.liveOp tag code = some op) (f : Op → State → State) : withOp s tag code f = f op s := by
  simp [withOp, h]

/-- An operation that starts, and passes the checks of its own, has its effect. -/
theorem opRun_starts (h : Starts s tag code op) {bad : Op → State → Bool} {pre : Op → State → Option Nat} (hb : bad op s = false)
    (hp : pre op s = none) (f : Op → State → State) : opRun s tag code bad pre f = f op s := by
  obtain ⟨hl, ha, -, hr, hk⟩ := h
  rw [opRun, withOp_live hl]
  have htk : roleA code = true → (s.twin.st == .taking) = false := by
    intro hc
    have := hr hc
    unfold State.roleActs at this
    cases hst : s.twin.st <;> simp_all
  simp only [ha, hb, hp]
  cases hc : roleA code <;> cases hd : bulkOp code <;> simp_all

/-- An accepted operation goes on to its effect without checks. -/
theorem opRun_goes (h : GoesOn s tag code op) (bad : Op → State → Bool) (pre : Op → State → Option Nat) (f : Op → State → State) :
    opRun s tag code bad pre f = f op s := by
  obtain ⟨hl, ha, -⟩ := h
  rw [opRun, withOp_live hl]
  simp [ha]

/-- What starts ends with its own tag. -/
theorem ends_of_starts (h : Starts s tag code op) (u : State) {status result : Nat} (hs : status < 256) (hr : result < 2 ^ 64) :
    Ends u tag status result (u.complete op status 0 result) := by
  have := ends_complete u op status result (by rw [liveOp_tag h.1]; exact h.2.2.1) hs hr
  rwa [liveOp_tag h.1] at this

theorem ends_of_goes (h : GoesOn s tag code op) (u : State) {status result : Nat} (hs : status < 256) (hr : result < 2 ^ 64) :
    Ends u tag status result (u.complete op status 0 result) := by
  have := ends_complete u op status result (by rw [liveOp_tag h.1]; exact h.2.2) hs hr
  rwa [liveOp_tag h.1] at this

theorem ends_of_inner {u u' t : State} {status result : Nat} (h : u'.inner = u.inner) (e : Ends u' tag status result t) : Ends u tag status result t :=
  ⟨e.1.trans h, e.2⟩

/-- An operation that is changed is found changed. -/
theorem findOp_modOp (h : s.findOp tag = some op) (f : Op → Op) (hf : (f op).tag = op.tag) : (s.modOp tag f).findOp tag = some (f op) := by
  have ht := findOp_tag h
  unfold State.findOp State.modOp at *
  simp only
  generalize s.ops = l at h ⊢
  induction l with
  | nil => simp at h
  | cons q l ih =>
    simp only [List.map_cons, List.find?_cons] at h ⊢
    by_cases e : q.tag = tag
    · simp only [e, beq_self_eq_true, Option.some.injEq] at h
      subst h
      simp [hf, e]
    · have e' : (q.tag == tag) = false := by simpa using e
      simp only [e', if_neg e] at h ⊢
      exact ih h

/-- An operation that is replaced is found replaced. -/
theorem findOp_putOp (h : s.findOp tag = some op) (p : Op) (hp : p.tag = tag) : (s.putOp p).findOp tag = some p := by
  have := findOp_modOp h (fun _ => p) (by rw [hp, findOp_tag h])
  rw [← this]
  subst hp
  rfl

/-- Another operation is found as before. -/
theorem findOp_modOp_other {g : Nat} (hg : g ≠ tag) (f : Op → Op) (hf : ∀ p, (f p).tag = p.tag) : (s.modOp g f).findOp tag = s.findOp tag := by
  unfold State.findOp State.modOp
  simp only
  induction s.ops with
  | nil => rfl
  | cons q l ih =>
    simp only [List.map_cons, List.find?_cons]
    by_cases e : q.tag = g
    · have : (q.tag == tag) = false := by simpa [e] using hg
      simp only [e, if_true, hf] at this ⊢
      simp only [this]
      exact ih
    · simp only [if_neg e]
      split
      · rfl
      · exact ih

/-- An operation found in flight and marked accepted waits. -/
theorem accepts_modOp (h : s.findOp tag = some op) (hd : op.done = false) {u : State} (hu : s.inner = u.inner) (f : Op → Op) (hf : (f op).tag = op.tag)
    (ha : (f op).accepted = true) (hn : (f op).done = op.done) : Accepts u tag (s.modOp tag f) :=
  ⟨hu, f op, findOp_modOp h f hf, ha, hn.trans hd⟩

end

end Sys2Proof.Machine
end

