-- ==== Sys2Proof/Laws/Plant.lean ====
section
/-! SUPPORT. What recording, tracing and pattern events leave alone: none of them changes the plant. -/

namespace Sys2Proof.Machine

/-- Equal behind the host interface, equal in the plant. -/
theorem plant_of_inner {s t : State} (h : t.inner = s.inner) : t.plant = s.plant := by
  have : ∀ u : State, u.plant = u.inner.plant := fun _ => rfl
  rw [this t, this s, h]

theorem plant_foldl {β : Type} (f : State → β → State) (h : ∀ s x, (f s x).plant = s.plant) (l : List β) (s : State) : (l.foldl f s).plant = s.plant := by
  induction l generalizing s with
  | nil => rfl
  | cons x l ih => rw [List.foldl_cons, ih, h]

section
variable (s : State)

@[simp] theorem plant_emit (o : Out) : (s.emit o).plant = s.plant := rfl
@[simp] theorem plant_modOp (g : Nat) (f : Op → Op) : (s.modOp g f).plant = s.plant := rfl
@[simp] theorem plant_putOp (o : Op) : (s.putOp o).plant = s.plant := rfl
@[simp] theorem plant_dropOp (g : Nat) : (s.dropOp g).plant = s.plant := rfl
@[simp] theorem plant_setRing (k : Nat) (r : Ring) : (s.setRing k r).plant = s.plant := rfl
@[simp] theorem plant_setThr (k : Nat) (x : Thread) : (s.setThr k x).plant = s.plant := rfl
@[simp] theorem plant_setBob (b : Nat) (x : Bobbin) : (s.setBob b x).plant = s.plant := rfl
@[simp] theorem plant_setPend (e : Nat) (v : BitVec 16) : (s.setPend e v).plant = s.plant := rfl
@[simp] theorem plant_ledgerWrite (a : Nat) (b : List Byte) : (s.ledgerWrite a b).plant = s.plant := rfl
@[simp] theorem plant_setExtents (a : Nat) (l : List Extent) : (s.setExtents a l).plant = s.plant := rfl
@[simp] theorem plant_freshWord : s.freshWord.2.plant = s.plant := rfl
@[simp] theorem plant_event (ty detail : Nat) (body : List Byte) : (s.event ty detail body).plant = s.plant := plant_of_inner (inner_event ..)
@[simp] theorem plant_eventLossy (g : List (List Byte)) : (s.eventLossy g).plant = s.plant := plant_of_inner (inner_eventLossy ..)
@[simp] theorem plant_eqFlush : s.eqFlush.plant = s.plant := plant_of_inner (inner_eqFlush ..)
@[simp] theorem plant_cqFlush (q : Nat) : (s.cqFlush q).plant = s.plant := plant_of_inner (inner_cqFlush ..)
@[simp] theorem plant_msixSend (k : Nat) : (s.msixSend k).plant = s.plant := plant_of_inner (inner_msixSend ..)

/-! ## Pattern events -/

@[simp] theorem plant_select (t : Nat) : (s.select t).plant = s.plant := by
  unfold State.select
  split <;> rfl

@[simp] theorem plant_selectAll : s.selectAll.plant = s.plant := plant_foldl _ (fun s t => plant_select s t) _ _

@[simp] theorem plant_withdraw (t e : Nat) : (s.withdraw t e).plant = s.plant := by
  unfold State.withdraw
  split
  · split <;> rfl
  · rfl

@[simp] theorem plant_clearPend (e : Nat) (mask : BitVec 16) : (s.clearPend e mask).plant = s.plant := by
  unfold State.clearPend
  simp only [plant_selectAll, plant_setPend]
  exact plant_foldl _ (fun s t => by split <;> simp) _ _

@[simp] theorem plant_latchWaits (e : Nat) : (s.latchWaits e).plant = s.plant := rfl
@[simp] theorem plant_termRaise (e : Nat) : (s.termRaise e).plant = s.plant := rfl

@[simp] theorem plant_raiseEv (e : Nat) (b : Bool) : (s.raiseEv e b).plant = s.plant := by
  unfold State.raiseEv
  split
  · rfl
  · split
    · rfl
    · simp only [plant_selectAll, plant_termRaise, plant_latchWaits, plant_setPend]

@[simp] theorem plant_source (k detail : Nat) : (s.source k detail).plant = s.plant := by
  unfold State.source
  simp

/-! ## The end of an operation -/

theorem plant_planFetch (n i : Nat) (s : State) : (planFetch n i s).plant = s.plant := by
  induction n generalizing i s with
  | zero => rfl
  | succ n ih =>
    unfold planFetch
    dsimp only
    split
    · rfl
    · split
      · rfl
      · split
        · split
          · rw [ih]; rfl
          · rfl
        · rfl

@[simp] theorem plant_planEnd (st : Nat) : (s.planEnd st).plant = s.plant := by
  unfold State.planEnd
  dsimp only
  split
  · rw [plant_planFetch]; rfl
  · rfl

@[simp] theorem plant_complete (o : Op) (st fl r : Nat) : (s.complete o st fl r).plant = s.plant := by
  unfold State.complete
  split
  · simp
  · split
    · rfl
    · exact plant_of_inner (by rw [inner_postCq, inner_modOp])

@[simp] theorem plant_completeTag (g st fl r : Nat) : (s.completeTag g st fl r).plant = s.plant := by
  unfold State.completeTag
  split
  · split <;> simp
  · rfl

/-! ## The trace -/

@[simp] theorem plant_traceFlush : s.traceFlush.plant = s.plant := by
  unfold State.traceFlush
  dsimp only
  split <;> rfl

@[simp] theorem plant_tracePut (r : List Byte) : (s.tracePut r).plant = s.plant := by
  unfold State.tracePut
  dsimp only
  rw [plant_traceFlush]
  exact plant_traceFlush s

@[simp] theorem plant_traceIdle : s.traceIdle.plant = s.plant := by
  unfold State.traceIdle
  dsimp only
  split
  · rfl
  · exact plant_tracePut s _

@[simp] theorem plant_traceRec (h : Nat) (b : List Byte) : (s.traceRec h b).plant = s.plant := by
  unfold State.traceRec
  split
  · rfl
  · exact (plant_tracePut _ _).trans (plant_traceIdle s)

@[simp] theorem plant_tack (k : Nat) : (s.tack k).plant = s.plant := by
  unfold State.tack
  split
  · rfl
  · exact (plant_tracePut _ _).trans (plant_traceIdle s)

@[simp] theorem plant_traceGate : s.traceGate.plant = s.plant := by
  unfold State.traceGate
  split
  · exact plant_tack s 7
  · split
    · rw [plant_tack]; rfl
    · rfl

@[simp] theorem plant_traceDecision (a b c d : Nat) : (s.traceDecision a b c d).plant = s.plant := by
  unfold State.traceDecision; split <;> simp

@[simp] theorem plant_tracePass (a : Nat) (b c d : Bool) : (s.tracePass a b c d).plant = s.plant := by
  unfold State.tracePass; split <;> simp

@[simp] theorem plant_traceWake (t e k : Nat) : (s.traceWake t e k).plant = s.plant := by
  unfold State.traceWake; split <;> simp

@[simp] theorem plant_traceBranch (t a : Nat) : (s.traceBranch t a).plant = s.plant := by
  unfold State.traceBranch; split <;> simp

@[simp] theorem plant_thrTo (t : Nat) (st : ThrState) : (s.thrTo t st).plant = s.plant := by
  unfold State.thrTo State.traceState
  split
  · rfl
  · split <;> simp

/-! ## Capture -/

@[simp] theorem plant_capEvent (b k f q v : Nat) : (s.capEvent b k f q v).plant = s.plant := by
  unfold State.capEvent; simp

@[simp] theorem plant_archEvent (a k b l m : Nat) : (s.archEvent a k b l m).plant = s.plant := by
  unfold State.archEvent; simp

@[simp] theorem plant_closeReds (b k : Nat) : (s.closeReds b k).plant = s.plant := by
  unfold State.closeReds; dsimp only; simp

@[simp] theorem plant_modObj (b q : Nat) (f : Object → Object) : (s.modObj b q f).plant = s.plant := rfl
@[simp] theorem plant_addObject (b : Nat) (o : Object) : (s.addObject b o).plant = s.plant := rfl
@[simp] theorem plant_dropObject (b q : Nat) : (s.dropObject b q).plant = s.plant := rfl

@[simp] theorem plant_refuseHeld (a : Nat) : (s.refuseHeld a).plant = s.plant := by
  unfold State.refuseHeld
  dsimp only
  rw [plant_foldl _ (fun s e => by simp)]
  simp

@[simp] theorem plant_aqStall (a b q : Nat) : (s.aqStall a b q).plant = s.plant := by
  unfold State.aqStall
  split
  · rfl
  · dsimp only; rw [plant_archEvent]; rfl

@[simp] theorem plant_drainKick (a : Nat) : (s.drainKick a).plant = s.plant := by
  unfold State.drainKick
  split
  · rfl
  · split
    · rfl
    · split
      · split
        · rfl
        · rw [plant_archEvent]; rfl
      · dsimp only
        split
        · rw [plant_aqStall, plant_refuseHeld]; rfl
        · rw [plant_refuseHeld]; rfl

@[simp] theorem plant_drainAllAqs : s.drainAllAqs.plant = s.plant := plant_foldl _ (fun s a => plant_drainKick s a) _ _

@[simp] theorem plant_commitWindow (b n : Nat) (t : Bool) : (s.commitWindow b n t).plant = s.plant := by
  unfold State.commitWindow
  dsimp only
  split <;> simp

@[simp] theorem plant_gapEnter (b n : Nat) : (s.gapEnter b n).plant = s.plant := by
  unfold State.gapEnter; simp

@[simp] theorem plant_gapLeave (b : Nat) : (s.gapLeave b).plant = s.plant := by
  unfold State.gapLeave
  dsimp only
  split <;> simp

@[simp] theorem plant_commitChunk (b : Nat) : (s.commitChunk b).plant = s.plant := by
  unfold State.commitChunk
  dsimp only
  rw [plant_traceFlush]
  split <;> split <;> (try split) <;> simp

@[simp] theorem plant_chunkFreed (b : Nat) : (s.chunkFreed b).plant = s.plant := by
  unfold State.chunkFreed; simp

@[simp] theorem plant_bulkGate : s.bulkGate.plant = s.plant := by
  unfold State.bulkGate
  split
  · rw [plant_foldl]
    · rfl
    · intro s x
      dsimp only
      split
      · simp
      · split
        · simp
        · split <;> simp
  · split
    · dsimp only
      rw [plant_traceFlush, plant_drainAllAqs, plant_foldl (fun (s : State) (e : Nat × Bobbin) => s.gapLeave e.1) (fun s e => plant_gapLeave s e.1)]
      rfl
    · rfl

@[simp] theorem plant_drainAbandon (b : Nat) : (s.drainAbandon b).plant = s.plant := by
  unfold State.drainAbandon
  split
  · rfl
  · dsimp only
    rw [plant_capEvent]
    split <;> rfl

@[simp] theorem plant_drainWrite (a b : Nat) (o : Object) (e : Extent) (n : Nat) : (s.drainWrite a b o e n).plant = s.plant := rfl

/-! ## Superframes into the bobbins -/

@[simp] theorem plant_evalTrigger (b f : Nat) : (s.evalTrigger b f).plant = s.plant := by
  unfold State.evalTrigger
  dsimp only
  split
  · split <;> simp
  · split
    · split
      · simp
      · simp
    · simp

@[simp] theorem plant_bobStore (b n f : Nat) (w : List DWord) (g c : Bool) (st : BitVec 12) (ps : List Pair) :
    (s.bobStore b n f w g c st ps).plant = s.plant := by
  unfold State.bobStore
  dsimp only
  (repeat' split) <;> rfl

@[simp] theorem plant_bobFrame (b n f : Nat) (w : List DWord) (g c : Bool) (st : BitVec 12) (ps : List Pair) :
    (s.bobFrame b n f w g c st ps).plant = s.plant := by
  unfold State.bobFrame
  dsimp only
  split
  · rfl
  · (repeat' split) <;> first | (simp; done) | exact (plant_foldl _ (fun s e => by simp) _ _).trans (by simp)

@[simp] theorem plant_capFrame (n f : Nat) (w : List DWord) (g c : Bool) (st : BitVec 12) (ps : List Pair) :
    (s.capFrame n f w g c st ps).plant = s.plant := plant_foldl _ (fun s e => plant_bobFrame s ..) _ _

end

end Sys2Proof.Machine
end

