-- ==== Sys2Proof/Laws/Lanes.lean ====
section
/-! SUPPORT. What the shared operations on lanes can do: a change of a lane's state touches that lane's state field, engines and what leaves the device. -/

namespace Sys2Proof.Machine

section
variable (s : State)

@[simp] theorem noLinks_setLane (n : Nat) (l : Lane) : (s.setLane n l).noLinks = s.noLinks := rfl
@[simp] theorem noLinks_setEng (n : Nat) (g : Engine) : (s.setEng n g).noLinks = s.noLinks := rfl
@[simp] theorem noLinks_emit (o : Out) : (s.emit o).noLinks = s.noLinks := rfl

@[simp] theorem refreshEng_lanes (n : Nat) : (s.refreshEng n).lanes = s.lanes := by unfold State.refreshEng; simp
@[simp] theorem refreshEng_out (n : Nat) : (s.refreshEng n).out = s.out := by unfold State.refreshEng; simp
@[simp] theorem noLinks_refreshEng (n : Nat) : (s.refreshEng n).noLinks = s.noLinks := by unfold State.refreshEng; rfl

/-- Ending runs touches engines alone. -/
theorem haltRuns_lanes (n : Nat) : (s.haltRuns n).lanes = s.lanes := by
  unfold State.haltRuns
  generalize s.enginesOf n = l
  induction l generalizing s with
  | nil => rfl
  | cons e t ih => rw [List.foldl_cons, ih]; rfl

@[simp] theorem noLinks_haltRuns (n : Nat) : (s.haltRuns n).noLinks = s.noLinks := by
  unfold State.haltRuns
  generalize s.enginesOf n = l
  induction l generalizing s with
  | nil => rfl
  | cons e t ih => rw [List.foldl_cons, ih]; rfl

/-- No swap waits for the lane: nothing is freed. -/
theorem lateFree_none (n : Nat) (h : (s.lane n).lateOp = none) : s.lateFree n = s := by unfold State.lateFree; rw [h]

/-- A lane's change of state touches no lane but its own, and of that the state field alone. -/
theorem lane_laneTo (n m : Nat) (st : LaneState) : (s.laneTo n st).lane m = if m = n then { s.lane n with st := st } else s.lane m := by
  unfold State.laneTo
  dsimp only
  rw [State.lane_congr (refreshEng_lanes _ n)]
  have h : ∀ u : State, u.lanes = (s.modLane n fun l => { l with st := st }).lanes → u.lane m = if m = n then { s.lane n with st := st } else s.lane m := fun u hu => by
    rw [State.lane_congr hu]; simp
  apply h
  repeat' split
  all_goals simp [haltRuns_lanes]

@[simp] theorem noLinks_laneTo (n : Nat) (st : LaneState) : (s.laneTo n st).noLinks = s.noLinks := by
  unfold State.laneTo
  dsimp only
  rw [noLinks_refreshEng]
  repeat' split
  all_goals simp

theorem lane_laneStep1 (n m : Nat) :
    (s.laneStep1 n).lane m = if m = n then { (s.lane n).fresh with trainAt := s.time.st, st := .locking } else s.lane m := by
  unfold State.laneStep1
  rw [lane_laneTo]
  split <;> simp [*]

@[simp] theorem noLinks_laneStep1 (n : Nat) : (s.laneStep1 n).noLinks = s.noLinks := by unfold State.laneStep1; simp

theorem lane_laneTrain (n m : Nat) :
    (s.laneTrain n).lane m = if m = n then { (s.lane n).fresh with trainAt := s.time.st, st := .locking, attempts := 0 } else s.lane m := by
  unfold State.laneTrain
  rw [lane_laneStep1]
  split <;> simp [*, Lane.fresh]

@[simp] theorem noLinks_laneTrain (n : Nat) : (s.laneTrain n).noLinks = s.noLinks := by unfold State.laneTrain; simp

/-- A lane for which no swap waits enters FAULT. -/
theorem laneFault_free (n : Nat) (c : BitVec 4) (h : (s.lane n).lateOp = none) :
    s.laneFault n c = (s.modLane n fun l => { l with cause := c, cfgWait := none, cfgQ := [], cfgMode := 0 }).laneTo n .fault := by
  unfold State.laneFault
  apply lateFree_none
  rw [lane_laneTo, if_pos rfl]
  simp [h]

theorem lane_laneFault (n m : Nat) (c : BitVec 4) (h : (s.lane n).lateOp = none) :
    (s.laneFault n c).lane m = if m = n then { s.lane n with cause := c, cfgWait := none, cfgQ := [], cfgMode := 0, st := .fault } else s.lane m := by
  rw [laneFault_free s n c h, lane_laneTo]
  split <;> simp [*]

theorem noLinks_laneFault (n : Nat) (c : BitVec 4) (h : (s.lane n).lateOp = none) : (s.laneFault n c).noLinks = s.noLinks := by
  rw [laneFault_free s n c h]; simp

/-- A failed bring-up step: the third in a row is FAULT with the cause, the first two start again. -/
theorem lane_laneFail (n m : Nat) (c : BitVec 4) (h : (s.lane n).lateOp = none) :
    (s.laneFail n c).lane m =
      if m = n then
        (if 2 ≤ (s.lane n).attempts then { s.lane n with cause := c, cfgWait := none, cfgQ := [], cfgMode := 0, st := .fault }
         else { (s.lane n).fresh with trainAt := s.time.st, attempts := (s.lane n).attempts + 1, st := .locking })
      else s.lane m := by
  unfold State.laneFail
  dsimp only
  by_cases k : 2 ≤ (s.lane n).attempts
  · rw [if_pos (by omega), lane_laneFault s n m c h, if_pos k]
  · rw [if_neg (by omega), lane_laneStep1, if_neg k]
    split <;> simp [*, Lane.fresh]

theorem noLinks_laneFail (n : Nat) (c : BitVec 4) (h : (s.lane n).lateOp = none) : (s.laneFail n c).noLinks = s.noLinks := by
  unfold State.laneFail; dsimp only; split
  · exact noLinks_laneFault s n c h
  · simp

/-- A lane for which no swap waits goes silent. -/
theorem laneOff_free (n : Nat) (h : (s.lane n).lateOp = none) : s.laneOff n = (s.modLane n Lane.fresh).laneTo n .off := by
  unfold State.laneOff
  apply lateFree_none
  rw [lane_laneTo, if_pos rfl]
  simp [h, Lane.fresh]

theorem lane_laneOff (n m : Nat) (h : (s.lane n).lateOp = none) :
    (s.laneOff n).lane m = if m = n then { (s.lane n).fresh with st := .off } else s.lane m := by
  rw [laneOff_free s n h, lane_laneTo]
  split <;> simp [*]

theorem noLinks_laneOff (n : Nat) (h : (s.lane n).lateOp = none) : (s.laneOff n).noLinks = s.noLinks := by rw [laneOff_free s n h]; simp

@[simp] theorem noLinks_dn (n : Nat) (d : DnCmd) : (s.dn n d).noLinks = s.noLinks := rfl

theorem noLinks_foldl {β : Type} (f : State → β → State) (h : ∀ s x, (f s x).noLinks = s.noLinks) (l : List β) (s : State) :
    (l.foldl f s).noLinks = s.noLinks := by
  induction l generalizing s with
  | nil => rfl
  | cons x l ih => rw [List.foldl_cons, ih, h]

end

end Sys2Proof.Machine
end

