-- ==== Sys2Proof/Laws/Programs.lean ====
section
/-! SUPPORT. One step of a program: what a period program's or a thread's instruction does once it has been decoded, and that the trace changes nothing but what is recorded. -/

namespace Sys2Proof.Machine

/-! ## The trace -/

section
variable (s : State)

/-- What can be read of a part of the state is equal where that part is equal. -/
theorem State.part_congr {α : Type} (part : State → State) (f : State → α) (hf : ∀ u, f (part u) = f u) {s t : State} (h : part t = part s) : f t = f s := by
  rw [← hf t, ← hf s, h]

theorem untraced_of_inner {s t : State} (h : t.inner = s.inner) : t.untraced = s.untraced := by
  have : ∀ u : State, u.untraced = { u.inner with free := 0, bobs := [], cap := {}, extents := [] } := fun _ => rfl
  rw [this t, this s, h]

theorem thr_of_untraced {s t : State} (h : t.untraced = s.untraced) (n : Nat) : t.thr n = s.thr n := State.thr_congr (congrArg State.threads h) n

theorem noThreads_of_untraced {s t : State} (h : t.untraced = s.untraced) : t.noThreads = s.noThreads := by
  have : ∀ u : State, u.noThreads = { u.untraced with threads := [] } := fun _ => rfl
  rw [this t, this s, h]

@[simp] theorem noThreads_setThr (n : Nat) (x : Thread) : (s.setThr n x).noThreads = s.noThreads := rfl

@[simp] theorem untraced_traceFlush : s.traceFlush.untraced = s.untraced := by
  unfold State.traceFlush
  dsimp only
  split <;> rfl

@[simp] theorem untraced_tracePut (r : List Byte) : (s.tracePut r).untraced = s.untraced := by
  unfold State.tracePut
  dsimp only
  rw [untraced_traceFlush]
  exact untraced_traceFlush s

@[simp] theorem untraced_traceIdle : s.traceIdle.untraced = s.untraced := by
  unfold State.traceIdle
  dsimp only
  split
  · rfl
  · exact untraced_tracePut s _

@[simp] theorem untraced_traceRec (h : Nat) (b : List Byte) : (s.traceRec h b).untraced = s.untraced := by
  unfold State.traceRec
  split
  · rfl
  · exact (untraced_tracePut _ _).trans (untraced_traceIdle s)

@[simp] theorem untraced_traceWake (t e k : Nat) : (s.traceWake t e k).untraced = s.untraced := by
  unfold State.traceWake; split <;> simp

@[simp] theorem untraced_traceBranch (t a : Nat) : (s.traceBranch t a).untraced = s.untraced := by
  unfold State.traceBranch; split <;> simp

@[simp] theorem untraced_traceState (t : Nat) (st : ThrState) : (s.traceState t st).untraced = s.untraced := by
  unfold State.traceState; split <;> simp

/-- A thread's change of state. -/
theorem untraced_thrTo (t : Nat) (st : ThrState) (h : (s.thr t).st ≠ st) :
    (s.thrTo t st).untraced = (s.setThr t { s.thr t with st := st, stAt := s.time.st }).untraced := by
  unfold State.thrTo
  rw [if_neg h]
  exact untraced_traceState _ t st

end

/-! ## Period programs -/

/-- A fetch that reports no uncorrectable error changes the count of corrected ones alone. -/
theorem PpAt.fetched {s : State} {e cost : Nat} {op : PpOp} {x : Fields} (h : PpAt s e cost op x) (f : Ecc) : PpAt (s.fetched f) e cost op x := by
  cases f <;> exact h

theorem PatAt.fetched {s : State} {t : Nat} {op : PatOp} {y : Fields} (h : PatAt s t op y) (f : Ecc) : PatAt (s.fetched f) t op y := by
  cases f <;> exact h

@[simp] theorem ppReg_fetched (s : State) (f : Ecc) (e i : Nat) : (s.fetched f).ppReg e i = s.ppReg e i := by cases f <;> rfl

@[simp] theorem eng_fetched (s : State) (f : Ecc) (e : Nat) : (s.fetched f).eng e = s.eng e := by cases f <;> rfl

@[simp] theorem patReg_fetched (s : State) (f : Ecc) (t i : Nat) : (s.fetched f).patReg t i = s.patReg t i := by cases f <;> rfl

@[simp] theorem thr_fetched (s : State) (f : Ecc) (t : Nat) : (s.fetched f).thr t = s.thr t := by cases f <;> rfl

@[simp] theorem seen_fetched (s : State) (f : Ecc) (t b : Nat) : (s.fetched f).seen t b = s.seen t b := by cases f <;> rfl

@[simp] theorem seenLe_fetched (s : State) (f : Ecc) (t a n : Nat) : (s.fetched f).seenLe t a n = s.seenLe t a n := by cases f <;> rfl

@[simp] theorem ledger_fetched (s : State) (f : Ecc) : (s.fetched f).ledger = s.ledger := by cases f <;> rfl

theorem ppRun_at {s : State} {e cost : Nat} {op : PpOp} {x : Fields} (h : PpAt s e cost op x) {f : Ecc} (hf : f ≠ .uncorrectable) (g : Fields → State → State) :
    ppRun s e f op g = g x (s.fetched f) := by
  obtain ⟨h1, h2, h3, h4, h5, -⟩ := h
  unfold ppRun
  have : ¬ 255 < (s.eng e).pc := by omega
  simp only [h1, h2, h3, h5, this, hf]
  simp

theorem eng_reg_setReg (g : Engine) (i j : Nat) (v : Word) : (g.setReg i v).reg j = if j = i then v else g.reg j := by
  unfold Engine.reg Engine.setReg
  dsimp only
  by_cases h : j = i
  · subst h; simp [tabGet_tabSet_same]
  · simp [h, tabGet_tabSet_other]

theorem ppAlu_wrote {s : State} {e cost : Nat} {op : PpOp} {x : Fields} (h : PpAt s e cost op x) (rd : Nat) (v : Word) :
    PpWrote s (s.ppAlu e cost rd v) e cost rd v := by
  have hb := h.2.2.2.2.2
  have e1 : s.ppAlu e cost rd v = s.setEng e { (({ s.eng e with cycles := (s.eng e).cycles + cost } : Engine).setReg rd v) with pc := (s.eng e).pc + 1 } := by
    unfold State.ppAlu State.ppSpend
    dsimp only
    rw [if_neg (by omega)]
  refine ⟨?_, ?_, ?_⟩
  · rw [e1, State.ppReg, State.eng_setEng, if_pos rfl]
    exact (eng_reg_setReg ({ s.eng e with cycles := (s.eng e).cycles + cost } : Engine) rd rd v).trans (if_pos rfl)
  · intro i hi
    rw [e1, State.ppReg, State.eng_setEng, if_pos rfl]
    exact (eng_reg_setReg ({ s.eng e with cycles := (s.eng e).cycles + cost } : Engine) rd i v).trans (if_neg hi)
  · rw [e1, State.eng_setEng, if_pos rfl]
    rfl

theorem ppR_wrote {s : State} {e cost : Nat} {op : PpOp} {x : Fields} (h : PpAt s e cost op x) {f : Ecc} (hf : f ≠ .uncorrectable) (v : Word → Word → Word) (w : Word)
    (hv : v (s.ppReg e x.ra) (s.ppReg e x.rb) = w) : PpWrote (s.fetched f) (ppR s e f cost op v) e cost x.rd w := by
  unfold ppR
  rw [ppRun_at h hf]
  subst hv
  have := ppAlu_wrote (h.fetched f) x.rd (v (s.ppReg e x.ra) (s.ppReg e x.rb))
  simpa [State.ppReg] using this

theorem ppI_wrote {s : State} {e : Nat} {op : PpOp} {x : Fields} (h : PpAt s e 1 op x) {f : Ecc} (hf : f ≠ .uncorrectable) (v : Word → Word → Word) (w : Word)
    (hv : v (s.ppReg e x.ra) x.imm = w) : PpWrote (s.fetched f) (ppI s e f op v) e 1 x.rd w := by
  unfold ppI
  rw [ppRun_at h hf]
  subst hv
  have := ppAlu_wrote (h.fetched f) x.rd (v (s.ppReg e x.ra) x.imm)
  simpa [State.ppReg] using this

theorem sat32_eq (x : Int) : sat32 x = BitVec.ofInt 32 (max (-2 ^ 31) (min (2 ^ 31 - 1) x)) := by
  unfold sat32 clampI
  congr 1
  split <;> (try split) <;> omega

theorem fdiv_pos' (x : Int) (k : Int) (h : 0 ≤ k) : Int.fdiv x k = x / k := Int.fdiv_eq_ediv_of_nonneg _ h

theorem ppJump_went {s : State} {e cost : Nat} {op : PpOp} {x : Fields} (h : PpAt s e cost op x) (b : Bool) (tg : Nat) (hc : cost = if b then 2 else 1) :
    PpWent s (s.ppJump e b tg) e cost (if b then tg else (s.eng e).pc + 1) := by
  have hb := h.2.2.2.2.2
  unfold PpWent State.ppJump State.ppSpend
  subst hc
  cases b <;> (simp only [Bool.false_eq_true, if_false, if_true] at *; rw [if_neg (by omega)])

theorem ppB_went {s : State} {e cost : Nat} {op : PpOp} {x : Fields} (h : PpAt s e cost op x) {f : Ecc} (hf : f ≠ .uncorrectable) (c : Word → Word → Bool) (b : Bool)
    (hv : c (s.ppReg e x.ra) (s.ppReg e x.rb) = b) (hc : cost = if b then 2 else 1) :
    PpWent (s.fetched f) (ppB s e f op c) e cost (if b then x.target else (s.eng e).pc + 1) := by
  unfold ppB
  rw [ppRun_at h hf]
  subst hv
  cases f with
  | ok => exact ppJump_went (h.fetched .ok) _ _ hc
  | corrected => exact ppJump_went (h.fetched .corrected) _ _ hc
  | uncorrectable => exact absurd rfl hf

/-! ## Pattern code -/

theorem patRun_at {s : State} {t : Nat} {op : PatOp} {y : Fields} (h : PatAt s t op y) {f : Ecc} (hf : f ≠ .uncorrectable) (g : Fields → Thread → State → State) :
    patRun s t f op g = g y (s.thr t) (s.fetched f) := by
  obtain ⟨h1, h2, h3⟩ := h
  unfold patRun
  have : ¬ 0xFFFC < (s.thr t).pc := by omega
  simp only [h1, h3, this, hf]
  simp

/-- A fetch without an uncorrectable error is a plain fetch behind the count of corrected ones. -/
theorem patRun_fetched {s : State} {t : Nat} {op : PatOp} {y : Fields} (h : PatAt s t op y) {f : Ecc} (hf : f ≠ .uncorrectable) (g : Fields → Thread → State → State) :
    patRun s t f op g = patRun (s.fetched f) t .ok op g := by
  rw [patRun_at h hf, patRun_at (h.fetched f) (by decide), thr_fetched]
  rfl

theorem thr_reg_setReg (x : Thread) (i j : Nat) (v : Word) : (x.setReg i v).reg j = if j = i then (if i = 0 then 0 else v) else x.reg j := by
  unfold Thread.reg Thread.setReg
  by_cases hi : i = 0
  · subst hi
    simp only [if_true]
    by_cases hj : j = 0 <;> simp [hj]
  · simp only [hi, if_false]
    by_cases hj : j = 0
    · simp [hj, Ne.symm hi]
    · simp only [hj, if_false]
      by_cases hf : x.inFast = true
      · by_cases h8 : 8 ≤ i <;> by_cases k8 : 8 ≤ j <;> simp only [hf, h8, k8, decide_true, decide_false, Bool.and_true, Bool.and_false, if_true, if_false, Bool.false_eq_true]
        · by_cases he : j = i
          · subst he; simp [tabGet_tabSet_same]
          · rw [tabGet_tabSet_other _ _ _ _ _ (by omega), if_neg he]
        · rw [if_neg (by omega)]
        · rw [if_neg (by omega)]
        · by_cases he : j = i
          · subst he; simp [tabGet_tabSet_same]
          · rw [tabGet_tabSet_other _ _ _ _ _ (by omega), if_neg he]
      · simp only [hf, Bool.false_and, Bool.false_eq_true, if_false]
        by_cases he : j = i
        · subst he; simp [tabGet_tabSet_same]
        · rw [tabGet_tabSet_other _ _ _ _ _ (by omega), if_neg he]

theorem thr_setReg_keeps (x : Thread) (i : Nat) (v : Word) (pc : Nat) :
    { x.setReg i v with pc := pc } = { x with p := (x.setReg i v).p, f := (x.setReg i v).f, pc := pc } := by
  unfold Thread.setReg
  split
  · rfl
  · split <;> rfl

/-- An instruction that puts a value into rd and goes on. -/
theorem patPut_wrote (s : State) (t rd : Nat) (v : Word) : PatWrote s (s.patPut t rd v) t rd v := by
  have e : s.patPut t rd v = s.setThr t { (s.thr t).setReg rd v with pc := (s.thr t).pc + 4 } := rfl
  have r : ∀ i, (s.patPut t rd v).patReg t i = if i = rd then (if rd = 0 then 0 else v) else s.patReg t i := by
    intro i
    rw [e, State.patReg, State.thr_setThr, if_pos rfl]
    exact thr_reg_setReg (s.thr t) rd i v
  refine ⟨by rw [r, if_pos rfl], fun i hi => by rw [r, if_neg hi], ?_⟩
  rw [e, State.thr_setThr, if_pos rfl, thr_setReg_keeps]

theorem patR_wrote {s : State} {t : Nat} {op : PatOp} {y : Fields} (h : PatAt s t op y) {f : Ecc} (hf : f ≠ .uncorrectable) (v : Word → Word → Word) (w : Word)
    (hv : v (s.patReg t y.ra) (s.patReg t y.rb) = w) : PatWrote (s.fetched f) (patR s t f op v) t y.rd w := by
  unfold patR
  rw [patRun_at h hf]
  subst hv
  exact patPut_wrote _ _ _ _

theorem patI_wrote {s : State} {t : Nat} {op : PatOp} {y : Fields} (h : PatAt s t op y) {f : Ecc} (hf : f ≠ .uncorrectable) (v : Word → Word → Word) (w : Word)
    (hv : v (s.patReg t y.ra) y.imm = w) : PatWrote (s.fetched f) (patI s t f op v) t y.rd w := by
  unfold patI
  rw [patRun_at h hf]
  subst hv
  exact patPut_wrote _ _ _ _

theorem patNext_went (s : State) (t : Nat) : PatWent s (s.patNext t) t ((s.thr t).pc + 4) := rfl

theorem patJump_went (s : State) (t pc : Nat) : PatWent s (s.patJump t pc) t pc := by
  unfold PatWent State.patJump
  rw [untraced_traceBranch]
  rfl

theorem patB_went {s : State} {t : Nat} {op : PatOp} {y : Fields} (h : PatAt s t op y) {f : Ecc} (hf : f ≠ .uncorrectable) (c : Word → Word → Bool) (b : Bool)
    (hv : c (s.patReg t y.ra) (s.patReg t y.rb) = b) : PatWent (s.fetched f) (patB s t f op c) t (if b then 4 * y.target else (s.thr t).pc + 4) := by
  unfold patB
  rw [patRun_at h hf]
  rw [← thr_fetched s f t]
  have e : c (((s.fetched f).thr t).reg y.ra) (((s.fetched f).thr t).reg y.rb) = b := by rw [thr_fetched]; exact hv
  rw [e]
  cases b
  · exact patNext_went _ t
  · exact patJump_went _ t _

/-! ## Ledger memory as a thread sees it (R307, R308) -/

theorem bufByte_cons (e : StEntry) (l : List StEntry) (a : Nat) :
    bufByte (e :: l) a = (bufByte l a).or (if e.covers a then some (BitVec.ofNat 8 (e.data.toNat >>> (8 * (a - e.adr)))) else none) := by
  have h : ∀ (l : List StEntry) (r : Option Byte),
      l.foldl (fun r e => if e.covers a then some (BitVec.ofNat 8 (e.data.toNat >>> (8 * (a - e.adr)))) else r) r = (bufByte l a).or r := by
    intro l
    induction l with
    | nil => intro r; rfl
    | cons e l ih =>
      intro r
      have hb : bufByte (e :: l) a = (bufByte l a).or (if e.covers a then some (BitVec.ofNat 8 (e.data.toNat >>> (8 * (a - e.adr)))) else none) := by
        conv_lhs => rw [bufByte, List.foldl_cons]
        exact ih _
      rw [List.foldl_cons, ih, hb]
      cases bufByte l a <;> simp
      split <;> simp
  exact h l _

theorem bufByte_append (l : List StEntry) (e : StEntry) (a : Nat) :
    bufByte (l ++ [e]) a = if e.covers a then some (BitVec.ofNat 8 (e.data.toNat >>> (8 * (a - e.adr)))) else bufByte l a := by
  simp [bufByte, List.foldl_append]

theorem toLe_getD (n : Nat) : ∀ v i, i < n → (toLe n v).getD i 0 = BitVec.ofNat 8 (v / 256 ^ i) := by
  induction n with
  | zero => intro v i h; omega
  | succ n ih =>
    intro v i h
    cases i with
    | zero => simp [toLe]
    | succ i =>
      rw [toLe, List.getD_cons_succ, ih _ _ (by omega), Nat.div_div_eq_div_mul, Nat.pow_succ, Nat.mul_comm]

/-- The oldest store of a buffer reaches the memory. -/
theorem drainOne_ledger (s : State) (t : Nat) {e : StEntry} {rest : List StEntry} (h : (s.thr t).buf = e :: rest) (b : Nat) (hb : b < 0x40000) :
    memGet 0 (s.drainOne t).ledger b = if e.adr ≤ b ∧ b < e.adr + e.len then BitVec.ofNat 8 (e.data.toNat / 256 ^ (b - e.adr)) else memGet 0 s.ledger b := by
  unfold State.drainOne
  dsimp only
  rw [h]
  show memGet 0 (memWrite 0 s.ledger e.adr ((toLe e.len e.data.toNat).take (ledgerSize - e.adr))) b = _
  rw [memGet_memWrite, List.length_take, toLe_length]
  unfold ledgerSize
  by_cases hc : e.adr ≤ b ∧ b < e.adr + e.len
  · rw [if_pos hc, if_pos (by omega)]
    rw [List.getD_eq_getElem?_getD, List.getElem?_take_of_lt (by omega), ← List.getD_eq_getElem?_getD, toLe_getD _ _ _ (by omega)]
  · rw [if_neg hc, if_neg (by omega)]

theorem drainOne_thr (s : State) (t : Nat) {e : StEntry} {rest : List StEntry} (h : (s.thr t).buf = e :: rest) (m : Nat) :
    (s.drainOne t).thr m = if m = t then { s.thr t with buf := rest } else s.thr m := by
  unfold State.drainOne
  dsimp only
  rw [h]
  show (s.setThr t _).thr m = _
  rw [State.thr_setThr]

theorem shr_div (v k : Nat) : v >>> (8 * k) = v / 256 ^ k := by
  rw [Nat.shiftRight_eq_div_pow, Nat.pow_mul]

theorem drainOne_seen (s : State) (t b : Nat) (hb : b < 0x40000) : (s.drainOne t).seen t b = s.seen t b := by
  cases h : (s.thr t).buf with
  | nil => unfold State.drainOne; dsimp only; rw [h]
  | cons e rest =>
    unfold State.seen
    rw [drainOne_thr s t h, if_pos rfl, drainOne_ledger s t h b hb, h, bufByte_cons]
    cases bufByte rest b with
    | some v => simp
    | none =>
      simp only [Option.none_or, Option.getD_none, StEntry.covers, decide_eq_true_eq, shr_div]
      split <;> simp

theorem drainOne_noThreads (s : State) (t : Nat) : (s.drainOne t).noThreads = { s.noThreads with ledger := (s.drainOne t).ledger, ce := (s.drainOne t).ce } := by
  unfold State.drainOne
  dsimp only
  split <;> rfl

/-- n stores of a buffer drain. -/
theorem drainN_spec (n t : Nat) (s : State) :
    ((drainN n t s).thr t = { s.thr t with buf := (s.thr t).buf.drop n }) ∧ (∀ m, m ≠ t → (drainN n t s).thr m = s.thr m) ∧
      (∀ b, b < 0x40000 → (drainN n t s).seen t b = s.seen t b) ∧ (drainN n t s).noThreads = { s.noThreads with ledger := (drainN n t s).ledger, ce := (drainN n t s).ce } := by
  induction n generalizing s with
  | zero => exact ⟨rfl, fun _ _ => rfl, fun _ _ => rfl, rfl⟩
  | succ n ih =>
    obtain ⟨i1, i2, i3, i4⟩ := ih (s.drainOne t)
    have hx : ∀ m, (s.drainOne t).thr m = if m = t then { s.thr t with buf := (s.thr t).buf.drop 1 } else s.thr m := by
      intro m
      cases h : (s.thr t).buf with
      | nil =>
        have : s.drainOne t = s := by unfold State.drainOne; dsimp only; rw [h]
        rw [this]
        split
        · rename_i e; subst e
          have : ∀ x : Thread, x.buf = [] → x = { x with buf := x.buf.drop 1 } := by intro x hx; cases x; simp at hx; subst hx; rfl
          have e := this _ h
          conv_rhs at e => rw [h]
          exact e
        · rfl
      | cons e rest => exact drainOne_thr s t h m
    refine ⟨?_, ?_, ?_, ?_⟩
    · show (drainN n t (s.drainOne t)).thr t = _
      rw [i1, hx, if_pos rfl]
      simp
    · intro m hm; show (drainN n t (s.drainOne t)).thr m = _; rw [i2 m hm, hx, if_neg hm]
    · intro b hb; show (drainN n t (s.drainOne t)).seen t b = _; rw [i3 b hb, drainOne_seen s t b hb]
    · show (drainN n t (s.drainOne t)).noThreads = _; rw [i4, drainOne_noThreads]; rfl

theorem overlapDepth_spec (buf : List StEntry) (a n : Nat) : ∀ e ∈ buf.drop (overlapDepth buf a n), ∀ i, i < n → e.covers (a + i) = false := by
  have key : ∀ (l : List StEntry) (k d : Nat), d ≤ k →
      let r := ((List.range' k l.length).zip l).foldl (fun d e => if (List.range n).any fun i => e.2.covers (a + i) then e.1 + 1 else d) d
      d ≤ r ∧ r ≤ k + l.length ∧ ∀ e ∈ l.drop (r - k), ∀ i, i < n → e.covers (a + i) = false := by
    intro l
    induction l with
    | nil => intro k d h; simpa using h
    | cons e l ih =>
      intro k d h
      simp only [List.length_cons, List.range'_succ, List.zip_cons_cons, List.foldl_cons]
      by_cases hc : ((List.range n).any fun i => e.covers (a + i)) = true
      · simp only [hc, if_true]
        obtain ⟨h1, h2, h3⟩ := ih (k + 1) (k + 1) (by omega)
        refine ⟨by omega, by omega, ?_⟩
        generalize List.foldl _ _ _ = r at *
        have : r - k = (r - (k + 1)) + 1 := by omega
        rw [this, List.drop_succ_cons]
        exact h3
      · simp only [hc, Bool.false_eq_true, if_false]
        obtain ⟨h1, h2, h3⟩ := ih (k + 1) d (by omega)
        refine ⟨h1, by omega, ?_⟩
        generalize List.foldl _ _ _ = r at *
        by_cases hr : r ≤ k
        · have e1 : r - (k + 1) = 0 := by omega
          have e2 : r - k = 0 := by omega
          rw [e1] at h3; rw [e2]
          intro x hx i hi
          simp only [List.drop_zero, List.mem_cons] at hx h3
          rcases hx with rfl | hx
          · simp only [List.any_eq_true, List.mem_range, not_exists, not_and, Bool.not_eq_true] at hc
            exact hc i hi
          · exact h3 x hx i hi
        · have : r - k = (r - (k + 1)) + 1 := by omega
          rw [this, List.drop_succ_cons]
          exact h3
  have := (key buf 0 0 (by omega)).2.2
  rw [← List.range_eq_range'] at this
  simpa [overlapDepth] using this

theorem bufByte_none (l : List StEntry) (a : Nat) (h : ∀ e ∈ l, e.covers a = false) : bufByte l a = none := by
  induction l with
  | nil => rfl
  | cons e l ih => rw [bufByte_cons, ih fun x hx => h x (List.mem_cons_of_mem _ hx), h e (List.mem_cons_self ..)]; rfl

theorem memRead_eq_map (d : Byte) (m : Mem) (n : Nat) : ∀ a, memRead d m a n = (List.range n).map fun i => memGet d m (a + i) := by
  induction n with
  | zero => intro a; rfl
  | succ n ih =>
    intro a
    rw [memRead, ih, List.range_succ_eq_map]
    simp [List.map_map, Function.comp_def, Nat.add_assoc, Nat.add_comm 1]

/-- A load's value, and what it leaves (R308). -/
theorem patLoad_spec (s : State) (t a n : Nat) (ecc : Ecc) (he : ecc ≠ .uncorrectable) (hn : a + n ≤ 0x40000) :
    (patLoad s t a n ecc).2 = some (s.seenLe t a n) ∧
      ((patLoad s t a n ecc).1.thr t = { s.thr t with buf := ((patLoad s t a n ecc).1.thr t).buf }) ∧ (∀ m, m ≠ t → (patLoad s t a n ecc).1.thr m = s.thr m) ∧
      (∀ b, b < 0x40000 → (patLoad s t a n ecc).1.seen t b = s.seen t b) ∧
      (patLoad s t a n ecc).1.noThreads = { s.noThreads with ledger := (patLoad s t a n ecc).1.ledger, ce := (patLoad s t a n ecc).1.ce } := by
  unfold patLoad
  dsimp only
  split
  · rename_i h
    refine ⟨?_, rfl, fun _ _ => rfl, fun _ _ => rfl, rfl⟩
    dsimp only
    unfold State.seenLe
    congr 2
    rw [List.map_map]
    apply List.map_congr_left
    intro i hi
    have := List.all_eq_true.mp h (bufByte (s.thr t).buf (a + i)) (List.mem_map_of_mem hi)
    obtain ⟨v, hv⟩ := Option.isSome_iff_exists.mp this
    simp [State.seen, hv]
  · obtain ⟨d1, d2, d3, d4⟩ := drainN_spec (overlapDepth (s.thr t).buf a n) t s
    have hv : (drainN (overlapDepth (s.thr t).buf a n) t s).ledgerLe a n = s.seenLe t a n := by
      unfold State.ledgerLe memLe State.seenLe
      rw [memRead_eq_map]
      congr 1
      apply List.map_congr_left
      intro i hi
      have hi := List.mem_range.mp hi
      rw [← d3 _ (by omega)]
      unfold State.seen
      rw [d1, bufByte_none _ _ fun e h => overlapDepth_spec _ _ _ e h i hi]
      rfl
    cases ecc with
    | ok => exact ⟨by rw [← hv], by dsimp only; rw [d1], d2, d3, d4⟩
    | corrected => exact ⟨by rw [← hv], by dsimp only; exact d1.trans (by rw [State.thr_congr (show (drainN _ t s).eccCe.threads = (drainN _ t s).threads from rfl), d1]), d2, d3, by
        dsimp only; exact (congrArg (fun u : State => { u with ce := (drainN (overlapDepth (s.thr t).buf a n) t s).eccCe.ce }) d4)⟩
    | uncorrectable => exact absurd rfl he

theorem patPut_reached {s v : State} {t rd : Nat} {x : Word} (h1 : v.thr t = { s.thr t with buf := (v.thr t).buf }) (h2 : ∀ m, m ≠ t → v.thr m = s.thr m)
    (h4 : v.noThreads = { s.noThreads with ledger := v.ledger, ce := v.ce }) :
    PatReached s (v.patPut t rd x) t rd x := by
  have hr : ∀ i, v.patReg t i = s.patReg t i := fun i => by unfold State.patReg; rw [h1]; rfl
  obtain ⟨w1, w2, w3⟩ := patPut_wrote v t rd x
  refine ⟨?_, ?_, ?_, ?_⟩
  · intro i
    by_cases hi : i = rd
    · subst hi; rw [w1]
      by_cases h0 : i = 0
      · subst h0; simp [State.patReg, Thread.reg]
      · simp [h0]
    · rw [w2 i hi, hr]; simp [hi]
  · conv_lhs => rw [w3]
    rw [State.thr_setThr, if_pos rfl]
    have hb : ((v.patPut t rd x).thr t).buf = (v.thr t).buf := by conv_lhs => rw [w3, State.thr_setThr, if_pos rfl]
    rw [hb, h1]
  · intro m hm
    rw [w3, State.thr_setThr, if_neg hm, h2 m hm]
  · have : (v.patPut t rd x).noThreads = v.noThreads := by conv_lhs => rw [w3]
                                                           rfl
    rw [this, h4, w3]
    rfl

theorem patLd_ok {s : State} {t n : Nat} {op : PatOp} {y : Fields} {ecc : Ecc} (h : PatAt s t op y) (he : ecc ≠ .uncorrectable)
    (ha : (s.patReg t y.ra + y.imm).toNat % n = 0) (hb : (s.patReg t y.ra + y.imm).toNat + n ≤ 0x40000) :
    PatReached s (patLdN s t .ok op n ecc) t y.rd (wordN (s.seenLe t (s.patReg t y.ra + y.imm).toNat n)) ∧
      ∀ b, b < 0x40000 → (patLdN s t .ok op n ecc).seen t b = s.seen t b := by
  unfold patLdN
  rw [patRun_at h (by decide)]
  rw [show s.fetched .ok = s from rfl]
  have ea : patAddr (s.thr t) y = (s.patReg t y.ra + y.imm).toNat := rfl
  rw [ea]
  generalize (s.patReg t y.ra + y.imm).toNat = a at *
  have hbad : patAddrBad a n = false := by unfold patAddrBad ledgerSize; simp; omega
  obtain ⟨l1, l2, l3, l4, l5⟩ := patLoad_spec s t a n ecc he hb
  simp only [hbad, Bool.false_eq_true, if_false]
  generalize patLoad s t a n ecc = r at *
  obtain ⟨v, o⟩ := r
  dsimp only at *
  subst l1
  dsimp only
  refine ⟨patPut_reached l2 l3 l5, ?_⟩
  intro b hb
  rw [← l4 b hb]
  obtain ⟨w1, w2, w3⟩ := patPut_wrote v t y.rd (wordN (s.seenLe t a n))
  unfold State.seen
  have hb : ((v.patPut t y.rd (wordN (s.seenLe t a n))).thr t).buf = (v.thr t).buf := by conv_lhs => rw [w3, State.thr_setThr, if_pos rfl]
  rw [hb]
  rfl

theorem patLd_done {s : State} {t n : Nat} {op : PatOp} {y : Fields} {f ecc : Ecc} (h : PatAt s t op y) (hf : f ≠ .uncorrectable) (he : ecc ≠ .uncorrectable)
    (ha : (s.patReg t y.ra + y.imm).toNat % n = 0) (hb : (s.patReg t y.ra + y.imm).toNat + n ≤ 0x40000) :
    PatReached (s.fetched f) (patLdN s t f op n ecc) t y.rd (wordN (s.seenLe t (s.patReg t y.ra + y.imm).toNat n)) ∧
      ∀ b, b < 0x40000 → (patLdN s t f op n ecc).seen t b = s.seen t b := by
  rw [show patLdN s t f op n ecc = patLdN (s.fetched f) t .ok op n ecc from patRun_fetched h hf _]
  have := patLd_ok (h.fetched f) (n := n) he (by simpa using ha) (by simpa using hb)
  simpa using this

/-- The marks of a thread that waits for nothing are withdrawn: nothing of its registers, nor of another thread or of ledger memory, changes (R234). -/
theorem marksCancel_thread (t : Nat) (s : State) (h : (s.thr t).waits = []) :
    let u := s.marksCancel fun w => match w with | .thread m _ => m == t | _ => false
    u.ledger = s.ledger ∧ (∀ m, m ≠ t → u.thr m = s.thr m) ∧ u.thr t = { s.thr t with stAt := (u.thr t).stAt } := by
  have key : ∀ (l : List Mark), (∀ k ∈ l, (match k.who with | .thread m _ => m == t | _ => false) = true) → ∀ s : State, (s.thr t).waits = [] →
      let u := l.foldl (fun (s : State) (k : Mark) => match k.who with | .thread _ _ => s.markReport k.who (markWord 3 false 0) s.time.st | _ => s) s
      u.ledger = s.ledger ∧ (∀ m, m ≠ t → u.thr m = s.thr m) ∧ u.thr t = { s.thr t with stAt := (u.thr t).stAt } := by
    intro l
    induction l with
    | nil => intro _ s _; exact ⟨rfl, fun _ _ => rfl, rfl⟩
    | cons k l ih =>
      intro hl s hw
      obtain ⟨m, a, hk⟩ : ∃ m a, k.who = .thread m a ∧ m = t := by
        have := hl k (List.mem_cons_self ..)
        revert this
        cases hk : k.who <;> simp
      obtain ⟨hk, rfl⟩ := hk
      let v := s.markReport k.who (markWord 3 false 0) s.time.st
      have e : v = s.setThr m { s.thr m with stAt := s.time.st } := by
        show s.markReport k.who (markWord 3 false 0) s.time.st = _
        rw [hk]
        show s.setThr m _ = _
        congr 1
        dsimp only
        have hlat : ∀ p w f, (s.thr m).latch p w f = s.thr m := by
          intro p w f
          unfold Thread.latch
          rw [hw, List.map_nil]
          generalize s.thr m = x at hw
          cases x; simp at hw; subst hw; rfl
        simp only [hlat]
      have hv : ∀ j, v.thr j = if j = m then { s.thr m with stAt := s.time.st } else s.thr j := by intro j; rw [e, State.thr_setThr]
      have := ih (fun k h => hl k (List.mem_cons_of_mem _ h)) v (by rw [hv, if_pos rfl]; exact hw)
      have hf : (k :: l).foldl (fun (s : State) (k : Mark) => match k.who with | .thread _ _ => s.markReport k.who (markWord 3 false 0) s.time.st | _ => s) s =
          l.foldl (fun (s : State) (k : Mark) => match k.who with | .thread _ _ => s.markReport k.who (markWord 3 false 0) s.time.st | _ => s) v := by
        rw [List.foldl_cons]
        congr 1
        show _ = s.markReport k.who (markWord 3 false 0) s.time.st
        simp only [hk]
      dsimp only at this ⊢
      rw [hf]
      obtain ⟨i1, i2, i3⟩ := this
      refine ⟨i1.trans (by rw [e]; rfl), fun j hj => by rw [i2 j hj, hv, if_neg hj], ?_⟩
      conv_lhs => rw [i3, hv, if_pos rfl]
  exact key (s.marks.filter fun (k : Mark) => match k.who with | .thread m _ => m == t | _ => false) (fun k hk => (List.mem_filter.mp hk).2) _ h

/-- A thread fault (R291). -/
theorem patFault_faulted (s : State) (t cause : Nat) (h : (s.thr t).st = .run) :
    PatFaulted s (s.patFault t cause) t cause ∧ (s.patFault t cause).ledger = s.ledger := by
  have key : ∀ v : State, v.ledger = s.ledger → (∀ m, m ≠ t → v.thr m = s.thr m) →
      v.thr t = { s.thr t with cause := BitVec.ofNat 4 cause, waits := [], sel := none, stAt := (v.thr t).stAt } → ∀ ty d b,
      PatFaulted s ((v.thrTo t .faulted).event ty d b) t cause ∧ ((v.thrTo t .faulted).event ty d b).ledger = s.ledger := by
    intro v hl hm ht ty d b
    have hu : ((v.thrTo t .faulted).event ty d b).untraced = (v.thrTo t .faulted).untraced := untraced_of_inner (inner_event ..)
    have hto := untraced_thrTo v t .faulted (by rw [ht]; dsimp only; rw [h]; decide)
    have he : ∀ m, ((v.thrTo t .faulted).event ty d b).thr m = if m = t then { v.thr t with st := .faulted, stAt := v.time.st } else v.thr m := by
      intro m
      rw [thr_of_untraced hu, thr_of_untraced hto, State.thr_setThr]
    refine ⟨⟨?_, ?_, ?_, ?_, ?_⟩, ?_⟩
    · rw [he, if_pos rfl]
    · rw [he, if_pos rfl, ht]
    · rw [he, if_pos rfl, ht]
    · rw [he, if_pos rfl, ht]
    · intro m hne; rw [he, if_neg hne, hm m hne]
    · exact ((congrArg State.ledger hu).trans (congrArg State.ledger hto)).trans hl
  have hs : ∀ m, (s.modThr t fun x => { x with cause := BitVec.ofNat 4 cause, waits := [], sel := none }).thr m =
      if m = t then { s.thr t with cause := BitVec.ofNat 4 cause, waits := [], sel := none } else s.thr m := fun m => by unfold State.modThr; rw [State.thr_setThr]
  obtain ⟨c1, c2, c3⟩ := marksCancel_thread t (s.modThr t fun x => { x with cause := BitVec.ofNat 4 cause, waits := [], sel := none }) (by rw [hs, if_pos rfl])
  refine key _ c1 (fun m hm => by rw [c2 m hm, hs, if_neg hm]) ?_ 0x0C t ([BitVec.ofNat 8 cause, 0] ++ toLe 2 (s.thr t).pc)
  conv_lhs => rw [c3, hs, if_pos rfl]

theorem patSt_ok {s : State} {t n : Nat} {op : PatOp} {y : Fields} (h : PatAt s t op y)
    (ha : (s.patReg t y.ra + y.imm).toNat % n = 0) (hb : (s.patReg t y.ra + y.imm).toNat < 0x3BE00) (hn : n ≤ 4) :
    PatReached s (patStN s t .ok op n) t 0 0 ∧
      (∀ b, b < 0x40000 → (patStN s t .ok op n).seen t b = if (s.patReg t y.ra + y.imm).toNat ≤ b ∧ b < (s.patReg t y.ra + y.imm).toNat + n then
        BitVec.ofNat 8 ((s.patReg t y.rd).toNat / 256 ^ (b - (s.patReg t y.ra + y.imm).toNat)) else s.seen t b) ∧
      ((s.thr t).buf.length < 4 → (patStN s t .ok op n).ledger = s.ledger) := by
  unfold patStN
  rw [patRun_at h (by decide), show s.fetched .ok = s from rfl]
  have ea : patAddr (s.thr t) y = (s.patReg t y.ra + y.imm).toNat := rfl
  have ev : (s.thr t).reg y.rd = s.patReg t y.rd := rfl
  rw [ea]
  generalize (s.patReg t y.ra + y.imm).toNat = a at *
  have hbad : patAddrBad a n = false := by unfold patAddrBad ledgerSize; simp; omega
  have hro : ¬ ledgerRo ≤ a := by unfold ledgerRo; omega
  simp only [hbad, Bool.false_eq_true, if_false, hro]
  rw [ev]
  generalize s.patReg t y.rd = w
  have hd : ∃ v : State, (if 4 ≤ (s.thr t).buf.length then s.drainOne t else s) = v ∧ v.thr t = { s.thr t with buf := (v.thr t).buf } ∧ (∀ m, m ≠ t → v.thr m = s.thr m) ∧
      (∀ b, b < 0x40000 → v.seen t b = s.seen t b) ∧ v.noThreads = { s.noThreads with ledger := v.ledger, ce := v.ce } ∧ ((s.thr t).buf.length < 4 → v = s) := by
    split
    · obtain ⟨d1, d2, d3, d4⟩ := drainN_spec 1 t s
      exact ⟨_, rfl, d1.trans (by conv_rhs => rw [show s.drainOne t = drainN 1 t s from rfl, d1]), d2, d3, d4, fun h => by omega⟩
    · exact ⟨_, rfl, rfl, fun _ _ => rfl, fun _ _ => rfl, rfl, fun _ => rfl⟩
  obtain ⟨v, hv, d1, d2, d3, d4, d5⟩ := hd
  rw [hv]
  have e : ((v.modThr t fun z => { z with buf := z.buf ++ [{ adr := a, len := n, data := w }] }).patNext t).thr t =
      { v.thr t with pc := (s.thr t).pc + 4, buf := (v.thr t).buf ++ [{ adr := a, len := n, data := w }] } := by
    unfold State.patNext State.modThr
    rw [State.thr_setThr, if_pos rfl, State.thr_setThr, if_pos rfl, d1]
  refine ⟨⟨?_, ?_, ?_, ?_⟩, ?_, ?_⟩
  · intro i
    have : s.patReg t i = (v.thr t).reg i := by rw [d1]; rfl
    rw [this]
    unfold State.patReg
    rw [e]
    have : ¬ (i = 0 ∧ i ≠ 0) := by omega
    rw [if_neg this]
    rfl
  · rw [e, d1]
  · intro m hm
    unfold State.patNext State.modThr
    rw [State.thr_setThr, if_neg hm, State.thr_setThr, if_neg hm, d2 m hm]
  · exact d4
  · intro b hb
    rw [← d3 b hb]
    unfold State.seen
    rw [e, bufByte_append]
    simp only [StEntry.covers, decide_eq_true_eq, shr_div]
    split
    · rfl
    · rfl
  · intro hl
    rw [d5 hl]; rfl

theorem patSt_done {s : State} {t n : Nat} {op : PatOp} {y : Fields} {f : Ecc} (h : PatAt s t op y) (hf : f ≠ .uncorrectable)
    (ha : (s.patReg t y.ra + y.imm).toNat % n = 0) (hb : (s.patReg t y.ra + y.imm).toNat < 0x3BE00) (hn : n ≤ 4) :
    PatReached (s.fetched f) (patStN s t f op n) t 0 0 ∧
      (∀ b, b < 0x40000 → (patStN s t f op n).seen t b = if (s.patReg t y.ra + y.imm).toNat ≤ b ∧ b < (s.patReg t y.ra + y.imm).toNat + n then
        BitVec.ofNat 8 ((s.patReg t y.rd).toNat / 256 ^ (b - (s.patReg t y.ra + y.imm).toNat)) else s.seen t b) ∧
      ((s.thr t).buf.length < 4 → (patStN s t f op n).ledger = s.ledger) := by
  rw [show patStN s t f op n = patStN (s.fetched f) t .ok op n from patRun_fetched h hf _]
  have := patSt_ok (h.fetched f) (n := n) (by simpa using ha) (by simpa using hb) hn
  simpa using this

theorem drainAll_spec (s : State) (t : Nat) :
    (s.drainAll t).thr t = { s.thr t with buf := [] } ∧ (∀ m, m ≠ t → (s.drainAll t).thr m = s.thr m) ∧ (∀ b, b < 0x40000 → memGet 0 (s.drainAll t).ledger b = s.seen t b) ∧
      (s.drainAll t).noThreads = { s.noThreads with ledger := (s.drainAll t).ledger, ce := (s.drainAll t).ce } := by
  obtain ⟨d1, d2, d3, d4⟩ := drainN_spec (s.thr t).buf.length t s
  have d1' : (s.drainAll t).thr t = { s.thr t with buf := [] } := by unfold State.drainAll; rw [d1]; simp
  refine ⟨d1', d2, ?_, d4⟩
  intro b hb
  rw [← d3 b hb]
  unfold State.seen
  have : ((drainN (s.thr t).buf.length t s).thr t).buf = [] := by
    have := congrArg Thread.buf d1'; exact this
  rw [this]
  rfl


end Sys2Proof.Machine
end

