-- ==== Sys2Proof/Laws/Threads.lean ====
section
/-! SUPPORT. What pattern events, waits and the interrupt controller do to the threads (R293 to R303). -/

namespace Sys2Proof.Machine

section
variable (s : State)

/-! ## The controller's selection -/

theorem pend_setPend (e k : Nat) (v : BitVec 16) : (s.setPend e v).pend k = if k = e then v else s.pend k := tabGet_tabSet _ _ e k v

/-- What selecting again leaves alone. -/
theorem select_spec (t : Nat) :
    (∀ m, ((s.select t).thr m).noSel = (s.thr m).noSel) ∧ (s.select t).noThreads = s.noThreads ∧ (s.select t).evPend = s.evPend ∧ (s.select t).regs = s.regs := by
  unfold State.select
  split
  · exact ⟨fun _ => rfl, rfl, rfl, rfl⟩
  · refine ⟨fun m => ?_, rfl, rfl, rfl⟩
    unfold State.modThr
    rw [State.thr_setThr]
    split
    · rename_i h; subst h; rfl
    · rfl

theorem selects_spec (l : List Nat) : (∀ m, ((l.foldl State.select s).thr m).noSel = (s.thr m).noSel) ∧ (l.foldl State.select s).noThreads = s.noThreads ∧
    (l.foldl State.select s).evPend = s.evPend ∧ (l.foldl State.select s).regs = s.regs := by
  induction l generalizing s with
  | nil => exact ⟨fun _ => rfl, rfl, rfl, rfl⟩
  | cons a l ih =>
    obtain ⟨i1, i2, i3, i4⟩ := ih (s.select a)
    obtain ⟨s1, s2, s3, s4⟩ := select_spec s a
    exact ⟨fun m => (i1 m).trans (s1 m), i2.trans s2, i3.trans s3, i4.trans s4⟩

theorem selectAll_spec : (∀ m, (s.selectAll.thr m).noSel = (s.thr m).noSel) ∧ s.selectAll.noThreads = s.noThreads ∧ s.selectAll.evPend = s.evPend ∧
    s.selectAll.regs = s.regs := selects_spec s _

theorem withdraw_spec (t e : Nat) :
    (∀ m, ((s.withdraw t e).thr m).noSel = (s.thr m).noSel) ∧ (s.withdraw t e).noThreads = s.noThreads ∧ (s.withdraw t e).evPend = s.evPend ∧
      (s.withdraw t e).regs = s.regs := by
  unfold State.withdraw
  split
  · split
    · refine ⟨fun m => ?_, rfl, rfl, rfl⟩
      unfold State.modThr
      rw [State.thr_setThr]
      split
      · rename_i h; subst h; rfl
      · rfl
    · exact ⟨fun _ => rfl, rfl, rfl, rfl⟩
  · exact ⟨fun _ => rfl, rfl, rfl, rfl⟩

/-- Clearing pending bits clears those, and changes of the threads the selection alone (R302). -/
theorem clearPend_spec (e : Nat) (mask : BitVec 16) :
    (∀ m, ((s.clearPend e mask).thr m).noSel = (s.thr m).noSel) ∧ PendIs s (s.clearPend e mask) e (s.pend e &&& ~~~mask) ∧
      { (s.clearPend e mask).noThreads with evPend := s.evPend } = s.noThreads := by
  have hf : ∀ (l : List Nat) (u : State), let v := l.foldl (fun s t => if mask.getLsbD t && (s.pend e).getLsbD t then s.withdraw t e else s) u
      (∀ m, (v.thr m).noSel = (u.thr m).noSel) ∧ v.noThreads = u.noThreads ∧ v.evPend = u.evPend := by
    intro l
    induction l with
    | nil => exact fun u => ⟨fun _ => rfl, rfl, rfl⟩
    | cons a l ih =>
      intro u
      obtain ⟨i1, i2, i3⟩ := ih (if mask.getLsbD a && (u.pend e).getLsbD a then u.withdraw a e else u)
      have hw : let v := (if mask.getLsbD a && (u.pend e).getLsbD a then u.withdraw a e else u)
          (∀ m, (v.thr m).noSel = (u.thr m).noSel) ∧ v.noThreads = u.noThreads ∧ v.evPend = u.evPend := by
        dsimp only
        split
        · obtain ⟨w1, w2, w3, -⟩ := withdraw_spec u a e; exact ⟨w1, w2, w3⟩
        · exact ⟨fun _ => rfl, rfl, rfl⟩
      exact ⟨fun m => (i1 m).trans (hw.1 m), i2.trans hw.2.1, i3.trans hw.2.2⟩
  obtain ⟨f1, f2, f3⟩ := hf (List.range 16) s
  unfold State.clearPend
  dsimp only at *
  generalize List.foldl _ _ _ = v at *
  obtain ⟨a1, a2, a3, -⟩ := selectAll_spec (v.setPend e (v.pend e &&& ~~~mask))
  have hp : ∀ k, v.pend k = s.pend k := fun k => State.pend_congr f3 k
  refine ⟨fun m => (a1 m).trans (f1 m), ⟨?_, ?_⟩, ?_⟩
  · rw [State.pend_congr a3, pend_setPend, if_pos rfl, hp]
  · intro k hk; rw [State.pend_congr a3, pend_setPend, if_neg hk, hp]
  · rw [a2]
    show { v.noThreads with evPend := s.evPend } = _
    rw [f2]
    rfl

end

/-! ## Waits (R293 to R297) -/

theorem irqTakeable_congr {x y : Thread} (h : thrTakes y = thrTakes x) (h1 : y.nie = x.nie) (h2 : y.fie = x.fie) (h3 : y.inNormal = x.inNormal) (h4 : y.inFast = x.inFast) (r : Word) :
    irqTakeable y r = irqTakeable x r := by unfold irqTakeable; rw [h, h1, h2, h3, h4]

theorem noSel_congr {x y : Thread} (h : y.noSel = x.noSel) : y = { x with sel := y.sel, stAt := y.stAt } := by
  cases x; cases y; simp only [Thread.noSel, Thread.mk.injEq] at h ⊢; tauto

theorem noSel_setReg {x y : Thread} (h : y.noSel = x.noSel) (rd : Nat) (v : Word) : (y.setReg rd v).noSel = (x.setReg rd v).noSel := by
  rw [noSel_congr h]
  unfold Thread.setReg
  dsimp only
  split
  · rfl
  · split <;> rfl

theorem noSel_mod {x y : Thread} (h : x.noSel = y.noSel) (st : ThrState) (pc : Nat) (ws : List WaitRec) (a : DWord) :
    ({ x with st := st, stAt := a, pc := pc, waits := ws } : Thread).noSel = ({ y with st := st, pc := pc, waits := ws } : Thread).noSel := by
  rw [noSel_congr h]; rfl

theorem noSel_pc {x y : Thread} (h : x.noSel = y.noSel) (pc : Nat) : ({ x with pc := pc } : Thread).noSel = ({ y with pc := pc } : Thread).noSel := by
  rw [noSel_congr h]; rfl

theorem drainN_ce (n t : Nat) (s : State) : (drainN n t s).ce = s.ce := by
  induction n generalizing s with
  | zero => rfl
  | succ n ih => exact (ih (s.drainOne t)).trans (by unfold State.drainOne; dsimp only; split <;> rfl)

theorem PatMoved.trans' {s u v : State} {t : Nat} {x y : Thread} (h : PatMoved s u t x) (h1 : (v.thr t).noSel = y.noSel) (h2 : ∀ m, m ≠ t → (v.thr m).noSel = (u.thr m).noSel)
    (h3 : v.noThreads = u.noThreads) : PatMoved s v t y := ⟨h1, fun m hm => (h2 m hm).trans (h.2.1 m hm), by rw [h3]; exact h.2.2⟩

/-- A wait ends with a status. -/
theorem endWait_spec (s : State) (t : Nat) (v : Word) (fire : DWord) {w : WaitRec} {rest : List WaitRec} (h : (s.thr t).waits = w :: rest) (hs : (s.thr t).st = .wait) :
    (s.endWait t v fire).thr t = (match w.on with
      | .event _ rd _ => { (s.thr t).setReg rd v with st := .run, stAt := s.time.st, pc := w.pc + 4, waits := rest }
      | .mark _ rd => { (s.thr t).setReg rd v with st := .run, stAt := s.time.st, pc := w.pc + 4, waits := rest, fire := fire }) ∧
    (∀ m, m ≠ t → (s.endWait t v fire).thr m = s.thr m) ∧ (s.endWait t v fire).noThreads = s.noThreads ∧ (∀ e, (s.endWait t v fire).pend e = s.pend e) := by
  unfold State.endWait
  dsimp only
  rw [h]
  dsimp only
  have st_setReg : ∀ (x : Thread) rd v, (x.setReg rd v).st = x.st := fun x rd v => by unfold Thread.setReg; split <;> (try split) <;> rfl
  have key : ∀ (u : State) (x : Thread) (ev : Nat), u.untraced = s.untraced → x.st = .wait →
      (((u.setThr t x).thrTo t .run).traceWake t ev 0).thr t = { x with st := .run, stAt := s.time.st } ∧
      (∀ m, m ≠ t → (((u.setThr t x).thrTo t .run).traceWake t ev 0).thr m = s.thr m) ∧
      (((u.setThr t x).thrTo t .run).traceWake t ev 0).noThreads = s.noThreads ∧ (∀ e, (((u.setThr t x).thrTo t .run).traceWake t ev 0).pend e = s.pend e) := by
    intro u x ev hu hx
    have h1 := untraced_traceWake ((u.setThr t x).thrTo t .run) t ev 0
    have h2 := untraced_thrTo (u.setThr t x) t .run (by rw [State.thr_setThr, if_pos rfl, hx]; decide)
    have hm : ∀ m, (((u.setThr t x).thrTo t .run).traceWake t ev 0).thr m = if m = t then { x with st := .run, stAt := s.time.st } else s.thr m := by
      intro m
      rw [thr_of_untraced h1, thr_of_untraced h2, State.thr_setThr]
      split
      · rw [State.thr_setThr, if_pos rfl, ← State.part_congr State.untraced (fun u => u.time.st) (fun _ => rfl) hu]
        rfl
      · rename_i hm; rw [State.thr_setThr, if_neg hm, thr_of_untraced hu]
    refine ⟨by rw [hm, if_pos rfl], fun m h => by rw [hm, if_neg h], ?_, ?_⟩
    · rw [noThreads_of_untraced h1, noThreads_of_untraced h2, noThreads_setThr, noThreads_setThr]; exact noThreads_of_untraced hu
    · intro e
      have := (congrArg State.evPend h1).trans ((congrArg State.evPend h2).trans (show ((u.setThr t x).setThr t _).untraced.evPend = s.untraced.evPend from (congrArg State.evPend hu : u.untraced.evPend = s.untraced.evPend)))
      exact State.pend_congr (s := s) this e
  cases hw : w.on with
  | event e rd v2 =>
    dsimp only
    have := key s { (s.thr t).setReg rd v with pc := w.pc + 4, waits := rest } e rfl (by dsimp only; rw [st_setReg, hs])
    exact this
  | mark a rd =>
    dsimp only
    refine (fun k => ⟨k.1.trans ?_, k.2⟩ : (_ ∧ _) → (_ ∧ _)) (key _ _ _ rfl (by dsimp only; rw [st_setReg]; exact hs))
    unfold Thread.setReg
    dsimp only
    split
    · rfl
    · split <;> rfl

theorem waitFree_of {s : State} {t e : Nat} (h1 : (s.pend e).getLsbD t = true) (h2 : irqTakeable (s.thr t) (s.route e) = false) : s.waitFree t e = true := by
  unfold State.waitFree; simp [h1, h2]

/-- A waiting thread's event has come. -/
theorem tryWait_event (s : State) (t : Nat) {w : WaitRec} {rest : List WaitRec} {e rd : Nat} {v2 : Word} (h : (s.thr t).waits = w :: rest) (hs : (s.thr t).st = .wait)
    (ho : w.on = .event e rd v2) (hr : w.result = none) (hf : s.waitFree t e = true) :
    PatMoved s (s.tryWait t) t { (s.thr t).setReg rd 0 with st := .run, pc := w.pc + 4, waits := rest } ∧ PendIs s (s.tryWait t) e (s.pend e &&& ~~~thrMask t) := by
  unfold State.tryWait
  simp only [h, hr, ho, hf, if_true]
  obtain ⟨c1, c2, c3⟩ := clearPend_spec s e (thrMask t)
  have c1t := noSel_congr (c1 t)
  obtain ⟨e1, e2, e3, e4⟩ := endWait_spec (s.clearPend e (thrMask t)) t 0 0 (w := w) (rest := rest) (by rw [c1t]; exact h) (by rw [c1t]; exact hs)
  rw [ho] at e1
  dsimp only at e1
  refine ⟨⟨?_, ?_, ?_⟩, ?_, ?_⟩
  · rw [e1]
    exact noSel_mod (noSel_setReg (c1 t) rd 0) .run (w.pc + 4) rest _
  · intro m hm; rw [e2 m hm]; exact c1 m
  · rw [e3]; exact c3
  · rw [e4]; exact c2.1
  · intro k hk; rw [e4]; exact c2.2 k hk

theorem armWait_spec (s : State) (t : Nat) (on : Wait) (h : (s.thr t).st = .run) :
    (s.armWait t on).thr t =
      { s.thr t with st := .wait, stAt := s.time.st, waits := { on := on, pc := (s.thr t).pc, level := (s.thr t).level, since := s.time.st } :: (s.thr t).waits } ∧
    (∀ m, m ≠ t → (s.armWait t on).thr m = s.thr m) ∧ (s.armWait t on).noThreads = s.noThreads ∧ (s.armWait t on).untraced.evPend = s.evPend ∧
    (s.armWait t on).untraced.ledger = s.ledger ∧ (s.armWait t on).untraced.marks = s.marks ∧ (s.armWait t on).untraced.regs = s.regs := by
  unfold State.armWait
  have h2 := untraced_thrTo (s.modThr t fun x => { x with waits := { on := on, pc := x.pc, level := x.level, since := s.time.st } :: x.waits }) t .wait (by unfold State.modThr; rw [State.thr_setThr, if_pos rfl]; dsimp only; rw [h]; decide)
  refine ⟨?_, ?_, ?_, ?_, ?_, ?_, ?_⟩
  · rw [thr_of_untraced h2, State.thr_setThr, if_pos rfl]; unfold State.modThr; rw [State.thr_setThr, if_pos rfl]; rfl
  · intro m hm; rw [thr_of_untraced h2, State.thr_setThr, if_neg hm]; unfold State.modThr; rw [State.thr_setThr, if_neg hm]
  · rw [noThreads_of_untraced h2]; rfl
  all_goals rw [h2]; rfl

/-! ## Raising events (R298, R299) -/

theorem tabGet_map {α : Type} (d : Nat → α) (f : Nat → α → α) (hd : ∀ k, f k (d k) = d k) (l : List (Nat × α)) (i : Nat) :
    tabGet d (l.map fun (k, v) => (k, f k v)) i = f i (tabGet d l i) := by
  induction l with
  | nil => simp [tabGet, hd]
  | cons a l ih =>
    obtain ⟨k, v⟩ := a
    simp only [List.map_cons, tabGet]
    split
    · rename_i h; subst h; rfl
    · exact ih

/-- What a raise leaves of a thread: its waits may have latched results, and the controller may have selected again (R297, R299). -/
theorem raiseEv_thr (s : State) (e m : Nat) (b : Bool) :
    ∃ ws sl a, (s.raiseEv e b).thr m = { s.thr m with waits := ws, sel := sl, stAt := a } ∧ ws.map (fun w => (w.on, w.pc, w.level)) = (s.thr m).waits.map (fun w => (w.on, w.pc, w.level)) := by
  unfold State.raiseEv
  split
  · exact ⟨_, _, _, rfl, rfl⟩
  · split
    · exact ⟨_, _, _, rfl, rfl⟩
    · have h1 := (selectAll_spec (((s.setPend e (s.pend e ||| (s.route e).setWidth 16)).latchWaits e).termRaise e)).1 m
      have h2 : ((((s.setPend e (s.pend e ||| (s.route e).setWidth 16)).latchWaits e).termRaise e)).thr m =
          if wbit (s.route e) m && (m < 16) then (s.thr m).latch (fun w => w.isEvent e && decide (w.level < (s.thr m).level)) 0 0 else s.thr m := by
        show tabGet _ (s.threads.map _) m = _
        have := tabGet_map (fun _ => ({} : Thread)) (fun k x => if wbit (s.route e) k && (k < 16) then x.latch (fun w => w.isEvent e && decide (w.level < x.level)) 0 0 else x)
          (fun k => by split <;> rfl) s.threads m
        refine Eq.trans ?_ this
        congr 1
        apply List.map_congr_left
        intro a _
        obtain ⟨k, v⟩ := a
        dsimp only
        split <;> rename_i h <;> simp only [State.route, State.reg_congr (State.setPend_regs _ _ _)] at h <;> simp only [State.route, h] <;> rfl
      rw [noSel_congr h1, h2]
      split
      · refine ⟨_, _, _, rfl, ?_⟩
        unfold Thread.latch
        simp only [List.map_map]
        apply List.map_congr_left
        intro w _
        simp only [Function.comp_def]
        split <;> rfl
      · exact ⟨_, _, _, rfl, rfl⟩

theorem raiseEv_pend (s : State) (e k : Nat) (b : Bool) (he : e < 511) (hb : b = true ∨ wbit (s.route e) 31 = false) :
    (s.raiseEv e b).pend k = if k = e then s.pend e ||| (s.route e).setWidth 16 else s.pend k := by
  unfold State.raiseEv
  rw [if_neg (by omega), if_neg (by rcases hb with h | h <;> simp [h])]
  rw [State.pend_congr (selectAll_spec _).2.2.1]
  show (s.setPend e _).pend k = _
  exact pend_setPend s e k _

theorem raiseEv_ledger (s : State) (e : Nat) (b : Bool) : (s.raiseEv e b).ledger = s.ledger := by
  unfold State.raiseEv
  split
  · rfl
  · split
    · rfl
    · have h := State.part_congr State.noThreads State.ledger (fun _ => rfl) (selectAll_spec (((s.setPend e (s.pend e ||| (s.route e).setWidth 16)).latchWaits e).termRaise e)).2.1
      rw [h]; rfl

theorem drainAll_keeps (s : State) (t : Nat) : (s.drainAll t).noThreads = { s.noThreads with ledger := (s.drainAll t).ledger } := by
  have h := (drainN_spec (s.thr t).buf.length t s).2.2.2
  rw [drainN_ce] at h
  exact h

theorem drainAll_field {α : Type} (f : State → α) (hf : ∀ u : State, f u.noThreads = f u) (hl : ∀ (u : State) l, f { u with ledger := l } = f u) (s : State) (t : Nat) : f (s.drainAll t) = f s := by
  rw [← hf, drainAll_keeps, hl, hf]

theorem claim_spec (s : State) (t : Nat) (x : Thread) (e : Nat) (k : Nat) (hx : thrTakes x = true) (y : Thread) (hy : y = { x with st := .run }) :
    ∃ sl a, ((((s.setThr t x).thrTo t .run).traceWake t e k).select t).thr t = { y with sel := sl, stAt := a } ∧
    (∀ m, m ≠ t → ((((s.setThr t x).thrTo t .run).traceWake t e k).select t).thr m = s.thr m) ∧
    ((((s.setThr t x).thrTo t .run).traceWake t e k).select t).evPend = s.evPend ∧
    ((((s.setThr t x).thrTo t .run).traceWake t e k).select t).noThreads = s.noThreads := by
  subst hy
  obtain ⟨s1, s2, s3, -⟩ := select_spec (((s.setThr t x).thrTo t .run).traceWake t e k) t
  have h1 := untraced_traceWake ((s.setThr t x).thrTo t .run) t e k
  have h2 : ∃ a, ∀ m, ((s.setThr t x).thrTo t .run).thr m = if m = t then { x with st := .run, stAt := a } else s.thr m := by
    by_cases hr : x.st = .run
    · refine ⟨x.stAt, fun m => ?_⟩
      have : (s.setThr t x).thrTo t .run = s.setThr t x := by unfold State.thrTo; rw [if_pos (by rw [State.thr_setThr, if_pos rfl]; exact hr)]
      rw [this, State.thr_setThr]
      split
      · rw [← hr]
      · rfl
    · refine ⟨s.time.st, fun m => ?_⟩
      rw [thr_of_untraced (untraced_thrTo (s.setThr t x) t .run (by rw [State.thr_setThr, if_pos rfl]; exact hr)), State.thr_setThr]
      split
      · rw [State.thr_setThr, if_pos rfl]; rfl
      · rename_i hm; rw [State.thr_setThr, if_neg hm]
  obtain ⟨a, h2⟩ := h2
  have h3 : ((s.setThr t x).thrTo t .run).noThreads = s.noThreads ∧ ((s.setThr t x).thrTo t .run).evPend = s.evPend := by
    unfold State.thrTo
    split
    · exact ⟨rfl, rfl⟩
    · constructor
      · rw [noThreads_of_untraced (untraced_traceState _ _ _)]; rfl
      · have h := State.part_congr State.untraced State.evPend (fun _ => rfl) (untraced_traceState ((s.setThr t x).modThr t fun z => { z with st := .run, stAt := (s.setThr t x).time.st }) t .run)
        rw [h]; rfl
  refine ⟨((((s.setThr t x).thrTo t .run).traceWake t e k).select t |>.thr t).sel, ((((s.setThr t x).thrTo t .run).traceWake t e k).select t |>.thr t).stAt, ?_, ?_, ?_, ?_⟩
  · have h := noSel_congr (s1 t)
    rw [thr_of_untraced h1, h2, if_pos rfl] at h
    exact h
  · intro m hm
    have : ((((s.setThr t x).thrTo t .run).traceWake t e k).select t).thr m = (((s.setThr t x).thrTo t .run).traceWake t e k).thr m := by
      unfold State.select
      split
      · rfl
      · unfold State.modThr; rw [State.thr_setThr, if_neg hm]
    rw [this, thr_of_untraced h1, h2, if_neg hm]
  · rw [s3]; exact (State.part_congr State.untraced State.evPend (fun _ => rfl) h1).trans h3.2
  · rw [s2, noThreads_of_untraced h1, h3.1]

theorem select_moved (s : State) (t : Nat) (x : Thread) : PatMoved s ((s.setThr t x).select t) t x ∧ ∀ e, ((s.setThr t x).select t).pend e = s.pend e := by
  obtain ⟨s1, s2, s3, -⟩ := select_spec (s.setThr t x) t
  refine ⟨⟨?_, ?_, ?_⟩, ?_⟩
  · rw [s1 t, State.thr_setThr, if_pos rfl]
  · intro m hm; rw [s1 m, State.thr_setThr, if_neg hm]
  · rw [s2]; rfl
  · intro e; exact State.pend_congr s3 e

theorem next_moved {s u : State} {t : Nat} {x : Thread} (h : PatMoved s u t x) : PatMoved s (u.patNext t) t { x with pc := x.pc + 4 } := by
  obtain ⟨h1, h2, h3⟩ := h
  refine ⟨?_, ?_, h3⟩
  · unfold State.patNext State.modThr
    rw [State.thr_setThr, if_pos rfl]
    have hp : (u.thr t).noSel.pc = x.noSel.pc := by rw [h1]
    have hp : (u.thr t).pc = x.pc := hp
    dsimp only
    rw [hp]
    exact noSel_pc h1 _
  · intro m hm
    unfold State.patNext State.modThr
    rw [State.thr_setThr, if_neg hm]
    exact h2 m hm

theorem setThr_moved (s : State) (t : Nat) (x : Thread) : PatMoved s (s.setThr t x) t x :=
  ⟨by rw [State.thr_setThr, if_pos rfl], fun m hm => by rw [State.thr_setThr, if_neg hm], rfl⟩

theorem PatMoved.congr' {s u : State} {t : Nat} {x y : Thread} (h : PatMoved s u t x) (e : x.noSel = y.noSel) : PatMoved s u t y := ⟨h.1.trans e, h.2⟩

theorem patPut_facts (v : State) (t rd : Nat) (x : Word) : (∀ i, (v.patPut t rd x).patReg t i = if i = rd then (if rd = 0 then 0 else x) else v.patReg t i) ∧
    ((v.patPut t rd x).thr t).pc = (v.thr t).pc + 4 ∧ (∀ m, m ≠ t → (v.patPut t rd x).thr m = v.thr m) ∧ (v.patPut t rd x).noThreads = v.noThreads ∧
    ((v.patPut t rd x).thr t).stHi = (v.thr t).stHi := by
  obtain ⟨w1, w2, w3⟩ := patPut_wrote v t rd x
  refine ⟨?_, ?_, ?_, rfl, ?_⟩
  · intro i
    by_cases hi : i = rd
    · subst hi; rw [w1, if_pos rfl]
    · rw [w2 i hi, if_neg hi]
  · rw [w3, State.thr_setThr, if_pos rfl]
  · intro m hm; rw [w3, State.thr_setThr, if_neg hm]
  · rw [w3, State.thr_setThr, if_pos rfl]

end Sys2Proof.Machine
end

