-- ==== Sys2Proof/WellFormed.lean ====
section
/-! DEFINITION. Well-formed commands: the sizes that R43, R328, R332, R359 and others give to what a command carries. Unit numbers need no
check, their types bound them. -/

namespace Sys2Proof

/-- Data read from host memory has the length its structure has; a failed read carries none. -/
def readWf (n : Nat) : HostRead → Bool
  | .data b => b.length == n
  | .failed => true

/-- A dovetail item has the sizes of the memories it copies (R396, R172, R147). -/
def DvItem.wf : DvItem → Bool
  | .railOp d _ => d.length == 64
  | .ledgerMem b => b.all fun e => decide (e.1 < 0x3BE00)
  | .realignCopy _ r d => (r.all fun e => decide (0x100 ≤ e.1 ∧ e.1 < 0x1000)) && d.all fun e => decide (e.1 < 0x40000)
  | .joinState _ _ _ r d l _ _ _ _ => (r.all fun e => decide (e.1 < 0x40000)) && (d.all fun e => decide (e.1 < 0x40000)) && l.all fun e => decide (e.1 < 0x3BE00)
  | .stamp .. | .crcBitmap _ | .outDigest .. | .pubDigest .. | .rsp .. | .request _ | .passResult _ | .laneFaults _ => true

/-- The command is well formed. -/
def Instr.wf : Instr → Bool
  | .upstreamSuperframe _ w _ => w.length == 25
  | .downstreamSuperframe _ => true
  | .laneLockLost _ => true
  | .laneBlind _ => true
  | .laneRetrain _ => true
  | .laneEnWrite _ => true
  | .bringUpStepTimeout _ => true
  | .cellPeriodBoundary _ _ => true
  | .programOverrun _ => true
  | .guardDutyLimit _ => true
  | .healthRecordClose _ _ => true
  | .guardDataWrite _ => true
  | .engineStall _ => true
  | .coldTakeover _ => true
  | .reliefStateCopy _ => true
  | .takeoverBoundary _ => true
  | .ppNop _ _ => true
  | .ppAdd _ _ => true
  | .ppSub _ _ => true
  | .ppAdds _ _ => true
  | .ppSubs _ _ => true
  | .ppMul _ _ => true
  | .ppMulh _ _ => true
  | .ppQmul _ _ => true
  | .ppDiv _ _ => true
  | .ppAnd _ _ => true
  | .ppOr _ _ => true
  | .ppXor _ _ => true
  | .ppShl _ _ => true
  | .ppShr _ _ => true
  | .ppSar _ _ => true
  | .ppMin _ _ => true
  | .ppMax _ _ => true
  | .ppAbs _ _ => true
  | .ppAddi _ _ => true
  | .ppAndi _ _ => true
  | .ppOri _ _ => true
  | .ppShli _ _ => true
  | .ppShri _ _ => true
  | .ppSari _ _ => true
  | .ppLui _ _ => true
  | .ppLi _ _ => true
  | .ppLd _ _ _ => true
  | .ppSt _ _ => true
  | .ppBeq _ _ => true
  | .ppBne _ _ => true
  | .ppBlt _ _ => true
  | .ppBge _ _ => true
  | .ppJmp _ _ => true
  | .ppEvt _ _ => true
  | .ppEnd _ _ => true
  | .leadBoundary _ _ => true
  | .railPublication _ => true
  | .prearmHoldExpiry _ => true
  | .envTrip _ => true
  | .burstEnd _ => true
  | .undershootHoldoffEnd _ => true
  | .syncInEdge => true
  | .syncEdgeMissing => true
  | .glideComplete _ => true
  | .sourceQualified _ => true
  | .sourceOnline _ => true
  | .sourceLoss _ _ => true
  | .handoverDone => true
  | .hoLate => true
  | .taperDone _ => true
  | .limitsStale _ => true
  | .ppsEdge _ => true
  | .discHoldover => true
  | .stStep _ => true
  | .discModeSet _ => true
  | .stLoRead => true
  | .encCount _ _ => true
  | .encZEdge _ => true
  | .ssiFrame _ _ _ => true
  | .angleTick => true
  | .encCfgWrite _ => true
  | .encAngleRead => true
  | .cycAmplitudeLoss _ => true
  | .cycHoldExpiry _ => true
  | .markFire _ => true
  | .slotBoundary => true
  | .passStart => true
  | .passEnd _ => true
  | .genTripNFall _ => true
  | .patNop _ _ => true
  | .patAdd _ _ => true
  | .patSub _ _ => true
  | .patAnd _ _ => true
  | .patOr _ _ => true
  | .patXor _ _ => true
  | .patShl _ _ => true
  | .patShr _ _ => true
  | .patSar _ _ => true
  | .patMul _ _ => true
  | .patMulh _ _ => true
  | .patMin _ _ => true
  | .patMax _ _ => true
  | .patSlt _ _ => true
  | .patSltu _ _ => true
  | .patAddi _ _ => true
  | .patAndi _ _ => true
  | .patOri _ _ => true
  | .patXori _ _ => true
  | .patShli _ _ => true
  | .patShri _ _ => true
  | .patSari _ _ => true
  | .patLui _ _ => true
  | .patLi _ _ => true
  | .patLd _ _ _ => true
  | .patLdh _ _ _ => true
  | .patLdb _ _ _ => true
  | .patSt _ _ => true
  | .patSth _ _ => true
  | .patStb _ _ => true
  | .patXchg _ _ _ => true
  | .patBeq _ _ => true
  | .patBne _ _ => true
  | .patBlt _ _ => true
  | .patBge _ _ => true
  | .patBltu _ _ => true
  | .patBgeu _ _ => true
  | .patJmp _ _ => true
  | .patCall _ _ => true
  | .patJr _ _ => true
  | .patWaite _ _ => true
  | .patWaitm _ _ _ => true
  | .patEmit _ _ => true
  | .patEvclr _ _ => true
  | .patGrant _ _ _ => true
  | .patGrel _ _ => true
  | .patKick _ _ => true
  | .patReti _ _ => true
  | .patMfs _ _ => true
  | .patMts _ _ => true
  | .patSync _ _ => true
  | .patHalt _ _ => true
  | .patRsp _ _ => true
  | .waiteComplete _ => true
  | .waiteTimeout _ => true
  | .waitmComplete _ => true
  | .interruptClaim _ => true
  | .storeBufferDrain _ => true
  | .deadlockBreak => true
  | .evPendWrite _ => true
  | .nudge => true
  | .doorbellPoll => true
  | .doorbellReadComplete d => readWf 0x230 d
  | .descriptorFetch _ d => readWf 64 d
  | .extentFetch _ d => readWf 32 d
  | .cqRecordRelease _ => true
  | .eqRecordRelease => true
  | .msixCoalTimer _ => true
  | .ringEnable _ => true
  | .ringDisable _ => true
  | .hostResetKey _ => true
  | .perst _ => true
  | .malformedAccess _ => true
  | .registerWrite _ off _ => off % 4 == 0
  | .rcRegisterRead _ off => off % 4 == 0
  | .nop _ => true
  | .abort _ => true
  | .fence _ => true
  | .fenceRelease _ => true
  | .powerRun _ => true
  | .powerTrim _ => true
  | .powerPark _ => true
  | .powerSleep _ => true
  | .railStart _ => true
  | .railStop _ => true
  | .railSetpoint _ => true
  | .railSetpointAt _ => true
  | .railRelease _ => true
  | .railLimits _ => true
  | .grantRequest _ => true
  | .grantRelease _ => true
  | .patLoad _ => true
  | .threadStart _ => true
  | .threadHalt _ => true
  | .patEventRaise _ => true
  | .patEventClear _ => true
  | .bobbinCfg _ => true
  | .bobbinArm _ => true
  | .bobbinTrigger _ => true
  | .bobbinRead _ _ => true
  | .bobbinRelease _ => true
  | .archiveBind _ => true
  | .archiveRelease _ => true
  | .traceCtl _ => true
  | .stageCell _ => true
  | .stageRail _ => true
  | .swapCell _ => true
  | .swapRailAll _ => true
  | .swapRail _ => true
  | .profileLoad _ => true
  | .profileLoadTimeout _ => true
  | .nvmRead _ _ => true
  | .nvmWrite _ => true
  | .nvmAppend _ => true
  | .nvmRingRead _ _ => true
  | .nvmProgramDone _ => true
  | .challenge _ => true
  | .response _ => true
  | .challengeExpiry => true
  | .rngRead _ drawn => decide (drawn ≤ 4096)
  | .lcTransition _ => true
  | .quarantine _ => true
  | .selvedgeClose _ => true
  | .quarantineTimeout _ => true
  | .quarantineEnd _ => true
  | .relieve _ => true
  | .handback _ => true
  | .reliefTimeout _ => true
  | .imageLoadEngine _ => true
  | .imageLoadFirmware _ => true
  | .imageStaged _ _ => true
  | .firmwarePairRestart _ _ => true
  | .twowireCycle _ => true
  | .twowireIslandUp => true
  | .windowCommit _ => true
  | .chunkCommit _ => true
  | .extentDone _ _ => true
  | .drainComplete _ => true
  | .traceTack => true
  | .dovetailFrame k => k.wf
  | .realign _ => true
  | .aliveToggle => true
  | .takeReqLow => true
  | .yieldReceived => true
  | .aliveLoss => true
  | .linkLoss => true
  | .bidResolve => true
  | .resetReqReceived => true
  | .twinYield _ => true
  | .twinSolo _ => true
  | .twinDetach _ => true
  | .startWaitExpiry => true
  | .joinDigestMatch => true
  | .joinComplete => true
  | .termStore => true
  | .applyInstant => true
  | .railPowerGood => true
  | .stepDelayExpiry => true
  | .sequenceFault => true
  | .railDown => true
  | .comparatorChange _ _ => true
  | .wcSelftest _ _ => true
  | .selftestDone _ => true
  | .braceStart _ => true
  | .braceEnd => true
  | .vinReset _ => true
  | .hkRoundStart => true
  | .hkRoundEnd codes => decide (codes.length ≤ 16)
  | .tempBlock temps => temps.length == 5
  | .throttleEnforce _ => true
  | .thermTrip => true
  | .thermClear => true
  | .rtcSecond => true
  | .rtcWrite _ off _ => decide (0xA0100 ≤ off ∧ off ≤ 0xA0114) && off % 4 == 0
  | .rtcRead _ off => decide (0xA0100 ≤ off ∧ off ≤ 0xA0114) && off % 4 == 0
  | .rtcShadowExpiry _ => true
  | .oscStop => true
  | .wdtKickWrite _ => true
  | .wdtEnable _ => true
  | .wdtWarning => true
  | .wdtExpiry => true
  | .wdxPulseEnd => true
  | .pbShortPress _ => true
  | .pbForceOff => true
  | .pbLayup => true
  | .batswPulseEnd => true
  | .mrAssert => true
  | .mrRelease => true
  | .por _ => true
  | .lockstepMismatch => true
  | .dieLinkFault => true
  | .resetTakeHold => true
  | .resetRelease => true
  | .firmwareLoadDone => true
  | .runReady => true
  | .startTimeout => true
  | .failedStartClear => true
  | .stAlarm => true
  | .wakeComplete => true
  | .pwrOffCmd _ => true
  | .pwrTwinReset _ => true
  | .sealLock _ => true
  | .setPwd _ => true
  | .unlock _ => true
  | .relock _ => true
  | .nvmwRead _ => true
  | .nvmwProgram _ => true
  | .otpRowRead _ => true
  | .trngReady => true
  | .trngHealthFail => true
  | .jtagIdcode => true
  | .jtagSamplePreload _ _ => true
  | .jtagExtest => true
  | .jtagClamp => true
  | .jtagHighz => true
  | .jtagDbgSel _ => true
  | .jtagBypass _ => true
  | .tapReset => true
  | .scanEnWrite _ => true
  | .recLoad _ _ => true
  | .recClear _ => true
  | .recReset _ => true
  | .twowireWrite _ _ => true
  | .twowireRead _ len => decide (1 ≤ len)
  | .twowireHang => true
  | .pbNRelease _ => true
  | .borHoldDownExpiry => true
  | .sequenceFaultRetry => true
  | .resetSourceHoldEnd src => src == .twin || src == .host || src == .safety
  | .startStepDone _ => true
  | .otpRowProgrammed _ => true
  | .vinsAboveVinWarn => true
  | .backupDomainPowerUp => true
  | .dovetailLaneLoss _ => true
  | .operandReadComplete _ _ => true

end Sys2Proof
end

