-- ==== Sys2Proof/Tests/Slice0.lean ====
section
/-! SUPPORT. Tests of the model: the well-formedness smoke test, the check values and worked examples that the spec gives, and for every statement with
hypotheses the states and operands that meet them, each clause at a boundary of its range. -/




namespace Sys2Proof.Tests

open Sys2Proof Sys2Proof.Machine

set_option maxRecDepth 4000
set_option linter.unusedVariables false
set_option Elab.async false

/-! ## Small states -/

/-- A device in RUN that leads alone. -/
def wRun : State :=
  { twin := { st := .solo }, pwr := { st := .run, episode := false, raised := [], held := [], taken := false }, sup := { seq := 2, en := 0xFFF#12, target := 12 }, host := { ready := true } }

/-- A descriptor with an opcode and operand bytes from byte 8 on. -/
def wDesc (code : Nat) (l : List Nat) : List Byte := ([code, 0, 5, 0, 0, 0, 0, 0] ++ l ++ List.replicate (56 - l.length) 0).map (BitVec.ofNat 8)

/-- An operation with tag 5 that has not been accepted. -/
def wOp (code : Nat) (l : List Nat) : Op := { tag := 5, sq := 0, desc := wDesc code l }

/-- The same, accepted. -/
def wGo (code : Nat) (l : List Nat) : Op := { wOp code l with accepted := true }

/-- The device in RUN with one operation. -/
def wWith (o : Op) : State := { wRun with ops := [o] }

/-- An instruction word. -/
def wIns (op rd ra rest : Nat) : Word := wordN (op * 2 ^ 26 + rd * 2 ^ 22 + ra * 2 ^ 18 + rest)

/-- Engine 0 before a custom instruction, in a period of 2 us. -/
def wPp (w : Word) (regs : List (Nat × Word)) : State :=
  { wRun with
    lanes := [(0, { st := .run })], rails := [(0, { tAct := 32000 })], cells := [(0, { active := [0, 0xFF, 0, 0] })],
    engines := [(0, { st := .run, running := true, image := [w], regs := regs })] }

/-- Thread 1 before an instruction. -/
def wPat (w : Word) (regs : List (Nat × Word)) : State :=
  { wRun with patMem := [(0, w)], threads := [(1, { st := .run, p := regs })] }

/-- The fields of a period-program word. -/
def ppX (w : Word) : Fields := match ppDecode w with | some (_, x) => x | none => {}

/-- The fields of a pattern word. -/
def patX (w : Word) : Fields := match patDecode w with | some (_, x) => x | none => {}

/-- A request record: rail 0, peak 1 kW, any energy, the current slot. -/
def wReq : List Byte := ([0, 0, 0, 0, 0xE8, 3] ++ List.replicate 26 0).map (BitVec.ofNat 8)

/-- A grant of thread 1 with tag 4. -/
def wGrant : Grant := requestOf 4 (some 1) 0 wReq

/-- A set-up register set to a value. -/
def wReg (r ix : Nat) (v : Word) : List (Nat × Word) := [(regKey r ix, v)]

/-- A good upstream superframe of zeros, as it comes on the line after a scrambler state of 0. -/
def wSf : List (BitVec 2 × DWord) :=
  (lineOf 0 0 (List.replicate 24 0 ++ [BitVec.ofNat 64 (0xE7 * 2 ^ 56 + crcWords (List.replicate 24 0) (0xE7 * 2 ^ 40) 48)])).1

/-- A parameter page of n bytes, 0 but for the listed ones. -/
def wPg (n : Nat) (l : List (Nat × Nat)) : List Byte := (List.range n).map fun i => BitVec.ofNat 8 (((l.find? fun e => e.1 == i).map (·.2)).getD 0)

/-- The device with rail 63 as given. -/
def wRail (r : Rail) : State := { wRun with rails := [(63, r)] }

/-- A captured object of bobbin 0 with no frames. -/
def wObj : Object :=
  { seq := 0, flags := 0, stFirst := 0, stTrig := 0, first := 0, pre := 0, post := 0, trig := 0, extra := 0, gap := 0, frames := [], bytes := [], pieces := [], drained := 0 }

/-- A device with the operation and its whole machine state taken from another. -/
def wPut (o : Op) (s : State) : State := { s with ops := o :: s.ops }

/-- The device in a given power state. -/
def wIn (p : PwrState) : State := { wRun with pwr := { wRun.pwr with st := p } }

/-- A device at an instant. -/
def wAt (t : DWord) (s : State) : State := { s with time := { s.time with st := t } }

/-- The device with lane 1,023 as given. -/
def wLane (l : Lane) : State := { wRun with lanes := [(1023, l)] }

/-- An image with a well-formed header: its kind and the length it states. -/
def wImg (kind len : Nat) : List Byte := wPg 160 [(0, 1), (1, kind), (4, len % 256), (5, len / 256)]

/-- The registers that hold the hash of the integrator's key as it stands in the memory of a device that was never programmed. -/
def wKeyRegs : List (Nat × Word) :=
  let h := sha256 (State.reset.nvmBytes 0 64)
  (List.range 8).map fun i => (regKey (Reg.secKeyHash + 4 * i) 0, wordN (leAt h (4 * i) 4))

/-! ## Checks -/

/-- Every check of Instr.wf refuses an ill-formed command (R43, R328, R332, R359, R396, R565). -/
theorem test_wf_refuses : ([
    .upstreamSuperframe 0 [] 0,
    .doorbellReadComplete (.data []), .descriptorFetch 0 (.data []), .extentFetch 0 (.data []), .registerWrite .bar0 2 0, .rcRegisterRead .bar0 2,
    .rngRead 0 4097, .dovetailFrame (.railOp [] 0), .dovetailFrame (.ledgerMem [(0x3BE00, 1)]), .dovetailFrame (.realignCopy 0 [(0xFF, 1)] []),
    .dovetailFrame (.realignCopy 0 [] [(0x40000, 1)]), .dovetailFrame (.joinState 0 0 0 [(0x40000, 1)] [] [] [] [] [] []), .dovetailFrame (.joinState 0 0 0 [] [(0x40000, 1)] [] [] [] [] []),
    .dovetailFrame (.joinState 0 0 0 [] [] [(0x3BE00, 1)] [] [] [] []), .hkRoundEnd (List.replicate 17 0), .tempBlock [], .rtcWrite .bar0 0xA0118 0, .rtcWrite .bar0 0xA0102 0,
    .rtcRead .bar0 0xA00FC, .rtcRead .bar0 0xA0102, .twowireRead 0x58 0, .resetSourceHoldEnd .por] : List Instr).all (fun c => !c.wf) = true := by decide +kernel

/-- R46: the check value of the CRC over the nine ASCII bytes 123456789. -/
theorem test_crc_check_value : crcBytes [0x31, 0x32, 0x33, 0x34, 0x35, 0x36, 0x37, 0x38, 0x39] = 0x29B1 := by decide +kernel

/-- R48: pair 2 lies in bits 15 to 0 of block 0 and bits 63 to 56 of block 1. -/
theorem test_pair_two : rawPair (payloadOf ([0x1237#64, 0x8900000000000000#64] ++ List.replicate 22 0)) 2 = (0x123, 0x789) := by decide +kernel

/-- R431: comparator 6, on VCORE, starts with LO 2,850 and HI 3,150. -/
theorem test_core_thresholds : fld (State.reset.reg Reg.supWcCfg 6) 19 8 = 2850 ∧ fld (State.reset.reg Reg.supWcCfg 6) 31 20 = 3150 := by decide +kernel

/-- The calendar registers after one second. -/
def wSecond (l : List (Nat × Byte)) : List Byte :=
  match exec .rtcSecond { wRun with sup := { wRun.sup with rtc := l }, cycles := 100000000 } with
  | .next s => (List.range 6).map s.rtc
  | _ => []

/-- R446: 29 February written in year 0x23 becomes 1 March at midnight. -/
theorem test_rtc_february : wSecond [(0, 0x59), (1, 0x59), (2, 0x23), (3, 0x29), (4, 0x02), (5, 0x23)] = [0, 0, 0, 1, 3, 0x23] := by decide +kernel

/-- R446: month 0x15 lasts 31 days and gives January of the next year. -/
theorem test_rtc_month_fifteen : wSecond [(0, 0x59), (1, 0x59), (2, 0x23), (3, 0x31), (4, 0x15), (5, 0x23)] = [0, 0, 0, 1, 1, 0x24] := by decide +kernel

/-- The instruction words that the worked example of the pattern chapter gives (R286 and the worked example after R315). -/
theorem test_pattern_words : patDecode 0x98001000 = some (.jmp, { target := 0x1000 }) ∧ (patDecode 0xC4C80040).map (fun e => (e.1, e.2.rd, e.2.ra, e.2.imm)) = some (.waitm, 3, 2, 0x40)
    ∧ (patDecode 0xC8000008).map (fun e => (e.1, e.2.num)) = some (.emit, 8) ∧ (patDecode 0xDC000000).map (·.1) = some .reti := by decide +kernel

/-- R523: SHA-256 of abc, the example of FIPS 180-4. -/
theorem test_sha256 : beNat (sha256 [0x61, 0x62, 0x63]) = 0xba7816bf8f01cfea414140de5dae2223b00361a396177a9cb410ff61f20015ad := by decide +kernel

/-- R523: twice the base point of P-256. -/
theorem test_p256_double : (ecAdd (some p256G) (some p256G)).map (·.1) = some 0x7cf27b188d034f7e8a52380304b51ac3c08969e277f21b35a60b48fc47669978 := by decide +kernel

/-- R461, R420 (log entry 1): power that rises holds the device in reset while the main supplies come up. -/
theorem test_power_up : (match exec (.por true) State.reset with | .next s => (s.pwr.st, s.sup.seq) | _ => (.off, 9)) = (PwrState.reset, 1) := by decide +kernel

/-- R42, R44: what one side scrambles, the other descrambles, and of 64 good sync headers comes block lock. -/
theorem test_scrambler : (payloadsOf 0 (lineOf 0 0 [0x0123456789ABCDEF, 0xFEDCBA9876543210]).1).1 = [0x0123456789ABCDEF, 0xFEDCBA9876543210]
    ∧ ((List.replicate 64 (1 : BitVec 2)).foldl Lane.blockLock {}).blkLock = true := by decide +kernel

/-- R42: the first 39 bits after a state of 0 go out as they are; the next bit is the exclusive-or with the bit sent 39 bits earlier. -/
theorem test_scrambler_taps : ((lineOf 0 0 [0x8000000000000000]).1.map (·.2)) = [0x8000000001000020] := by decide +kernel

/-! ## The hypotheses of the statements -/

/-- States and operands that meet the hypotheses of Obligations.StepRunsTheFrontCommand. -/
theorem witness_StepRunsTheFrontCommand :
  (∃ (c : Instr) (s : State) (q : List Instr), s.pending = c :: q) ∧
  (∃ (s : State), s.pending = []) :=
  ⟨⟨.rtcSecond, { wRun with pending := [.rtcSecond] }, [], by decide +kernel⟩,
   ⟨wRun, by decide +kernel⟩⟩

/-- States and operands that meet the hypotheses of Obligations.StepsKeepMemoriesCanonical. -/
theorem witness_StepsKeepMemoriesCanonical :
  (∃ (s : State) (t : State), s.memWf ∧ step s = .next t) :=
  ⟨wRun, tick wRun, by exact ⟨⟨rfl, rfl, rfl, rfl⟩, rfl⟩⟩

/-- States and operands that meet the hypotheses of Obligations.NoStepClearsAnOtpBit. -/
theorem witness_NoStepClearsAnOtpBit :
  (∃ (s : State) (t : State) (r : Nat), step s = .next t) ∧
  (∃ (s : State) (t : State), step s = .next t) :=
  ⟨⟨wRun, tick wRun, 2, by exact rfl⟩,
   ⟨wRun, tick wRun, by exact rfl⟩⟩

/-- States and operands that meet the hypotheses of Obligations.PeriodProgramsStayInside. -/
theorem witness_PeriodProgramsStayInside_1 :
  (∃ (s : State) (t : State) (e : Fin 1088) (f : Ecc) (r : Ecc) (c : Instr) (k : Nat), c ∈ periodCommands e f r ∧ exec c s = .next t ∧ k ≠ e.val) ∧
  (∃ (s : State) (t : State) (e : Fin 1088) (f : Ecc) (r : Ecc) (c : Instr) (k : Nat), c ∈ periodCommands e f r ∧ exec c s = .next t) ∧
  (∃ (s : State) (t : State) (e : Fin 1088) (f : Ecc) (r : Ecc) (c : Instr), c ∈ periodCommands e f r ∧ exec c s = .next t) ∧
  (∃ (s : State) (t : State) (e : Fin 1088) (f : Ecc) (r : Ecc) (c : Instr), c ∈ periodCommands e f r ∧ exec c s = .next t) ∧
  (∃ (s : State) (t : State) (e : Fin 1088) (f : Ecc) (r : Ecc) (c : Instr), c ∈ periodCommands e f r ∧ exec c s = .next t) :=
  ⟨⟨wPp (wIns 0x31 0 0 0) [], nextOf wRun (exec (.ppEnd 0 .ok) (wPp (wIns 0x31 0 0 0) [])), 0, .ok, .ok, .ppEnd 0 .ok, 1, by exact ⟨by decide +kernel, rfl, by decide +kernel⟩⟩,
   ⟨wPp (wIns 0x31 0 0 0) [], nextOf wRun (exec (.ppEnd 0 .ok) (wPp (wIns 0x31 0 0 0) [])), 0, .ok, .ok, .ppEnd 0 .ok, 1, by exact ⟨by decide +kernel, rfl⟩⟩,
   ⟨wPp (wIns 0x31 0 0 0) [], nextOf wRun (exec (.ppEnd 0 .ok) (wPp (wIns 0x31 0 0 0) [])), 0, .ok, .ok, .ppEnd 0 .ok, by exact ⟨by decide +kernel, rfl⟩⟩,
   ⟨wPp (wIns 0x31 0 0 0) [], nextOf wRun (exec (.ppEnd 0 .ok) (wPp (wIns 0x31 0 0 0) [])), 0, .ok, .ok, .ppEnd 0 .ok, by exact ⟨by decide +kernel, rfl⟩⟩,
   ⟨wPp (wIns 0x31 0 0 0) [], nextOf wRun (exec (.ppEnd 0 .ok) (wPp (wIns 0x31 0 0 0) [])), 0, .ok, .ok, .ppEnd 0 .ok, by exact ⟨by decide +kernel, rfl⟩⟩⟩

/-- States and operands that meet the hypotheses of Obligations.PeriodProgramsStayInside. -/
theorem witness_PeriodProgramsStayInside_2 :
  (∃ (s : State) (t : State) (e : Fin 1088) (f : Ecc) (r : Ecc) (c : Instr), c ∈ periodCommands e f r ∧ exec c s = .next t) ∧
  (∃ (s : State) (t : State) (e : Fin 1088) (f : Ecc) (r : Ecc) (c : Instr) (m : Nat), c ∈ periodCommands e f r ∧ exec c s = .next t ∧ (s.cellOf e).bind s.railOf ≠ some m) ∧
  (∃ (s : State) (t : State) (e : Fin 1088) (f : Ecc) (r : Ecc) (c : Instr) (a : Nat), c ∈ periodCommands e f r ∧ exec c s = .next t ∧ (s.cellOf e).map (· / 16) ≠ some (a / 4096)) ∧
  (∃ (s : State) (t : State) (e : Fin 1088) (f : Ecc) (r : Ecc) (c : Instr) (a : Nat), c ∈ periodCommands e f r ∧ exec c s = .next t ∧ (s.cellOf e).bind s.railOf ≠ some (a / 4096)) :=
  ⟨⟨wPp (wIns 0x31 0 0 0) [], nextOf wRun (exec (.ppEnd 0 .ok) (wPp (wIns 0x31 0 0 0) [])), 0, .ok, .ok, .ppEnd 0 .ok, by exact ⟨by decide +kernel, rfl⟩⟩,
   ⟨wPp (wIns 0x31 0 0 0) [], nextOf wRun (exec (.ppEnd 0 .ok) (wPp (wIns 0x31 0 0 0) [])), 0, .ok, .ok, .ppEnd 0 .ok, 1, by exact ⟨by decide +kernel, rfl, by decide +kernel⟩⟩,
   ⟨wPp (wIns 0x31 0 0 0) [], nextOf wRun (exec (.ppEnd 0 .ok) (wPp (wIns 0x31 0 0 0) [])), 0, .ok, .ok, .ppEnd 0 .ok, 4096, by exact ⟨by decide +kernel, rfl, by decide +kernel⟩⟩,
   ⟨wPp (wIns 0x31 0 0 0) [], nextOf wRun (exec (.ppEnd 0 .ok) (wPp (wIns 0x31 0 0 0) [])), 0, .ok, .ok, .ppEnd 0 .ok, 4096, by exact ⟨by decide +kernel, rfl, by decide +kernel⟩⟩⟩

/-- States and operands that meet the hypotheses of Obligations.NopFencesAndAborts. -/
theorem witness_NopFencesAndAborts_1 :
  (∃ (s : State) (o : Nat) (op : Op), Starts s o 0x00 op) ∧
  (∃ (s : State) (o : Nat) (op : Op), Starts s o 0x02 op ∧ ((∀ p ∈ opsBefore s.ops o, p.done = true ∨ planTag ≤ p.tag ∨ (op.u8 8 = 0 ∧ p.sq ≠ op.sq)))) ∧
  (∃ (s : State) (o : Nat) (op : Op), Starts s o 0x02 op ∧ ((∃ p ∈ opsBefore s.ops o, p.done = false ∧ p.tag < planTag ∧ (op.u8 8 = 0 → p.sq = op.sq)))) ∧
  (∃ (s : State) (o : Nat) (op : Op), GoesOn s o 0x02 op ∧ ((∀ p ∈ opsBefore s.ops o, p.done = true ∨ planTag ≤ p.tag ∨ (op.u8 8 = 0 ∧ p.sq ≠ op.sq)))) ∧
  (∃ (s : State) (o : Nat) (op : Op) (p : Op), Starts s o 0x01 op ∧ op.u16 8 ≠ o ∧ op.u16 8 < planTag ∧ s.findOp (op.u16 8) = some p ∧ p.code ≠ 0x01 ∧ p.done = false ∧ p.committed = false ∧ s.plan.pass = none) :=
  ⟨⟨wWith (wOp 0 []), 5, wOp 0 [], by unfold Starts; decide +kernel⟩,
   ⟨{ wRun with ops := [{ wGo 0 [] with tag := 4, sq := 1 }, wOp 2 [0]] }, 5, wOp 2 [0], by unfold Starts; decide +kernel⟩,
   ⟨{ wRun with ops := [{ wGo 0 [] with tag := 4, sq := 1 }, wOp 2 [1]] }, 5, wOp 2 [1], by unfold Starts; decide +kernel⟩,
   ⟨{ wRun with ops := [{ wGo 0 [] with tag := 4, sq := 1, done := true }, wGo 2 [1]] }, 5, wGo 2 [1], by unfold GoesOn; decide +kernel⟩,
   ⟨{ wRun with ops := [{ wGo 0x22 [] with tag := 4 }, wOp 1 [4]] }, 5, wOp 1 [4], { wGo 0x22 [] with tag := 4 }, by unfold Starts; decide +kernel⟩⟩

/-- States and operands that meet the hypotheses of Obligations.NopFencesAndAborts. -/
theorem witness_NopFencesAndAborts_2 :
  (∃ (s : State) (o : Nat) (op : Op), Starts s o 0x01 op ∧ op.u16 8 ≠ o ∧ s.findOp (op.u16 8) = none) ∧
  (∃ (s : State) (o : Nat) (op : Op) (p : Op), Starts s o 0x01 op ∧ op.u16 8 ≠ o ∧ s.findOp (op.u16 8) = some p ∧ p.code ≠ 0x01 ∧ (p.done || p.committed) = true) :=
  ⟨⟨wWith (wOp 1 [4]), 5, wOp 1 [4], by unfold Starts; decide +kernel⟩,
   ⟨{ wRun with ops := [{ wGo 0x22 [] with tag := 4, committed := true }, wOp 1 [4]] }, 5, wOp 1 [4], { wGo 0x22 [] with tag := 4, committed := true }, by unfold Starts; decide +kernel⟩⟩

/-- States and operands that meet the hypotheses of Obligations.LaneLossesAndTimeouts. -/
theorem witness_LaneLossesAndTimeouts_1 :
  (∃ (s : State) (n : Fin 1024), (s.lane n).st = .run ∧ (s.lane n).locked = true ∧ s.missed n 4 = true ∧ (s.lane n).lateOp = none) ∧
  (∃ (s : State) (n : Fin 1024), ((s.lane n).st = .measuring ∨ (s.lane n).st = .configuring) ∧ (s.lane n).locked = true ∧ s.missed n 4 = true ∧ (s.lane n).lateOp = none) ∧
  (∃ (s : State) (n : Fin 1024), ((s.lane n).st = .ready ∨ (s.lane n).st = .parked) ∧ (s.lane n).locked = true ∧ s.missed n 4 = true) ∧
  (∃ (s : State) (n : Fin 1024), ((s.lane n).st = .off ∨ (s.lane n).st = .locking ∨ (s.lane n).st = .aligning ∨ (s.lane n).st = .fault) ∧ (s.lane n).locked = true ∧ s.missed n 4 = true) ∧
  (∃ (s : State) (n : Fin 1024), ((s.lane n).locked = false ∨ s.missed n 4 = false)) :=
  ⟨⟨wLane { st := .run, locked := true, badRun := 4 }, 1023, by decide +kernel⟩,
   ⟨wAt 4096 (wLane { st := .configuring, locked := true }), 1023, by decide +kernel⟩,
   ⟨wAt 4096 (wLane { st := .parked, locked := true }), 1023, by decide +kernel⟩,
   ⟨wAt 4096 (wLane { st := .aligning, locked := true }), 1023, by decide +kernel⟩,
   ⟨wAt 4095 (wLane { st := .run, locked := true, badRun := 3 }), 1023, by decide +kernel⟩⟩

/-- States and operands that meet the hypotheses of Obligations.LaneLossesAndTimeouts. -/
theorem witness_LaneLossesAndTimeouts_2 :
  (∃ (s : State) (n : Fin 1024) (lim : Nat) (c : BitVec 4), (((s.lane n).st = .locking ∧ lim = 480000 ∧ c = 1) ∨ ((s.lane n).st = .measuring ∧ lim = 560000 ∧ c = (if (s.lane n).auxAll then 1 else 8)) ∨ ((s.lane n).st = .aligning ∧ lim = 960000 ∧ c = 4) ∨ ((s.lane n).st = .configuring ∧ lim = 1440000 ∧ c = (if (s.lane n).cfgWait.isSome || (s.lane n).cfgQ != [] || s.capsWaits n then 5 else 6))) ∧ (s.lane n).lateOp = none ∧ lim ≤ (s.time.st - (s.lane n).trainAt).toNat) ∧
  (∃ (s : State) (n : Fin 1024), ((∀ lim, stepLimit (s.lane n).st = some lim → (s.time.st - (s.lane n).trainAt).toNat < lim))) :=
  ⟨⟨wAt 960000 (wLane { st := .aligning, attempts := 2 }), 1023, 960000, 4, by decide +kernel⟩,
   ⟨wAt 959999 (wLane { st := .aligning, attempts := 2 }), 1023, by intro lim h; have h2 : stepLimit LaneState.aligning = some lim := h; cases h2; decide +kernel⟩⟩

/-- States and operands that meet the hypotheses of Obligations.LaneControlAndBlindness. -/
theorem witness_LaneControlAndBlindness_1 :
  (∃ (s : State) (v : Word) (n : Nat), s.ringsUp = true ∧ n = fld (s.reg Reg.linkLaneSel) 9 0 ∧ s.laneOk n = true ∧ s.lanesHeld = false ∧ wbit v 0 = true ∧ wbit v 1 = true) ∧
  (∃ (s : State) (v : Word) (n : Nat), s.ringsUp = true ∧ n = fld (s.reg Reg.linkLaneSel) 9 0 ∧ s.laneOk n = true ∧ (s.lane n).lateOp = none ∧ wbit v 0 = false ∧ wbit (s.reg Reg.linkLaneCtl n) 0 = true) ∧
  (∃ (s : State) (v : Word) (n : Nat), s.ringsUp = true ∧ n = fld (s.reg Reg.linkLaneSel) 9 0 ∧ s.laneOk n = true ∧ wbit v 0 = true ∧ wbit (s.reg Reg.linkLaneCtl n) 0 = false) ∧
  (∃ (s : State) (v : Word) (n : Nat), s.ringsUp = true ∧ n = fld (s.reg Reg.linkLaneSel) 9 0 ∧ s.laneOk n = true ∧ wbit v 0 = true ∧ wbit v 1 = false ∧ wbit (s.reg Reg.linkLaneCtl n) 0 = true) ∧
  (∃ (s : State) (v : Word), s.ringsUp = false) :=
  ⟨⟨{ wRun with regs := wReg Reg.linkLaneSel 0 1023, lanes := [(1023, { st := .ready })] }, 3, 1023, by decide +kernel⟩,
   ⟨{ wRun with regs := wReg Reg.linkLaneSel 0 1023 ++ wReg Reg.linkLaneCtl 1023 1, lanes := [(1023, { st := .ready })] }, 2, 1023, by decide +kernel⟩,
   ⟨{ wRun with regs := wReg Reg.linkLaneSel 0 1023 ++ wReg Reg.linkLaneCtl 1023 0 }, 1, 1023, by decide +kernel⟩,
   ⟨{ wRun with regs := wReg Reg.linkLaneSel 0 1023 ++ wReg Reg.linkLaneCtl 1023 1, lanes := [(1023, { st := .ready })] }, 1, 1023, by decide +kernel⟩,
   ⟨{ wRun with host := {} }, 1, by decide +kernel⟩⟩

/-- States and operands that meet the hypotheses of Obligations.LaneControlAndBlindness. -/
theorem witness_LaneControlAndBlindness_2 :
  (∃ (s : State) (v : Word), s.ringsUp = false) ∧
  (∃ (s : State) (n : Fin 1024), (s.lane n).st = .run ∧ (s.lane n).blind = false ∧ s.missed n 2 = true) ∧
  (∃ (s : State) (n : Fin 1024), s.missed n 2 = false) :=
  ⟨⟨{ wRun with host := { ready := true, perst := true } }, 1, by decide +kernel⟩,
   ⟨wLane { st := .run, badRun := 2 }, 1023, by decide +kernel⟩,
   ⟨wAt 2047 (wLane { st := .run, badRun := 1 }), 1023, by decide +kernel⟩⟩

/-- States and operands that meet the hypotheses of Obligations.SuperframesBothWays. -/
theorem witness_SuperframesBothWays_1 :
  (∃ (s : State) (n : Fin 1024) (w : List (BitVec 2 × DWord)) (x : Nat), (s.lane n).st ≠ .off ∧ s.laneOk n = true ∧ sfGood ((s.lane n).receive w).blkLock (w.getD 24 (0, 0)).1 (payloadsOf (s.lane n).rxScr w).1 = false ∧ (s.lane n).badRun = 0) ∧
  (∃ (s : State) (n : Fin 1024) (w : List (BitVec 2 × DWord)) (x : Nat), (s.lane n).st = .run ∧ s.laneOk n = true ∧ sfGood ((s.lane n).receive w).blkLock (w.getD 24 (0, 0)).1 (payloadsOf (s.lane n).rxScr w).1 = false ∧ (s.lane n).badRun = 1) ∧
  (∃ (s : State) (n : Fin 1024) (w : List (BitVec 2 × DWord)) (x : Nat), (s.lane n).st = .run ∧ (s.lane n).locked = true ∧ s.laneOk n = true ∧ (s.lane n).lateOp = none ∧ sfGood ((s.lane n).receive w).blkLock (w.getD 24 (0, 0)).1 (payloadsOf (s.lane n).rxScr w).1 = false ∧ 3 ≤ (s.lane n).badRun) ∧
  (∃ (s : State) (n : Fin 1024) (w : List (BitVec 2 × DWord)) (x : Nat), (s.lane n).st = .locking ∧ s.laneOk n = true ∧ sfGood ((s.lane n).receive w).blkLock (w.getD 24 (0, 0)).1 (payloadsOf (s.lane n).rxScr w).1 = true ∧ (s.lane n).cfgWait = none ∧ (s.lane n).profOp = none) ∧
  (∃ (s : State) (n : Fin 1024) (w : List (BitVec 2 × DWord)) (x : Nat), ((s.lane n).st = .off ∨ s.laneOk n = false)) :=
  ⟨⟨wLane { st := .run, good := 3, blkLock := true }, 1023, [(1, 0)], 0, by decide +kernel⟩,
   ⟨wLane { st := .run, good := 3, blkLock := true, badRun := 1 }, 1023, [(1, 0)], 0, by decide +kernel⟩,
   ⟨wLane { st := .run, locked := true, good := 4, blkLock := true, badRun := 3 }, 1023, [(1, 0)], 0, by decide +kernel⟩,
   ⟨wLane { st := .locking, good := 3, blkLock := true }, 1023, wSf, 0, by decide +kernel⟩,
   ⟨wRun, 1023, wSf, 0, by decide +kernel⟩⟩

/-- States and operands that meet the hypotheses of Obligations.SuperframesBothWays. -/
theorem witness_SuperframesBothWays_2 :
  (∃ (s : State) (n : Fin 1024), (s.lane n).st ≠ .off ∧ s.laneOk n = true ∧ (s.lane n).lastDn ≠ some (s.dnStrobe n)) ∧
  (∃ (s : State) (n : Fin 1024), ((s.lane n).st = .off ∨ s.laneOk n = false ∨ (s.lane n).lastDn = some (s.dnStrobe n))) :=
  ⟨⟨wAt 1024 (wLane { st := .run, lastDn := some 0 }), 1023, by decide +kernel⟩,
   ⟨wAt 1024 (wLane { st := .run, lastDn := some 1 }), 1023, by decide +kernel⟩⟩

/-- States and operands that meet the hypotheses of Obligations.PeriodRegisterOperations. -/
theorem witness_PeriodRegisterOperations_1 :
  (∃ (s : State) (e : Fin 1088) (f : Ecc) (x : Fields), f ≠ .uncorrectable ∧ PpAt s e 1 .add x) ∧
  (∃ (s : State) (e : Fin 1088) (f : Ecc) (x : Fields), f ≠ .uncorrectable ∧ PpAt s e 1 .sub x) ∧
  (∃ (s : State) (e : Fin 1088) (f : Ecc) (x : Fields), f ≠ .uncorrectable ∧ PpAt s e 1 .adds x) ∧
  (∃ (s : State) (e : Fin 1088) (f : Ecc) (x : Fields), f ≠ .uncorrectable ∧ PpAt s e 1 .subs x) ∧
  (∃ (s : State) (e : Fin 1088) (f : Ecc) (x : Fields), f ≠ .uncorrectable ∧ PpAt s e 2 .mul x) :=
  ⟨⟨wPp (wIns 0x01 3 1 0x8000) [(1, 0x80000005), (2, 7), (3, 9)], 0, .corrected, ppX (wIns 0x01 3 1 0x8000), by unfold PpAt; decide +kernel⟩,
   ⟨wPp (wIns 0x02 3 1 0x8000) [(1, 0x80000005), (2, 7), (3, 9)], 0, .corrected, ppX (wIns 0x02 3 1 0x8000), by unfold PpAt; decide +kernel⟩,
   ⟨wPp (wIns 0x03 3 1 0x8000) [(1, 0x80000005), (2, 7), (3, 9)], 0, .corrected, ppX (wIns 0x03 3 1 0x8000), by unfold PpAt; decide +kernel⟩,
   ⟨wPp (wIns 0x04 3 1 0x8000) [(1, 0x80000005), (2, 7), (3, 9)], 0, .corrected, ppX (wIns 0x04 3 1 0x8000), by unfold PpAt; decide +kernel⟩,
   ⟨wPp (wIns 0x05 3 1 0x8000) [(1, 0x80000005), (2, 7), (3, 9)], 0, .corrected, ppX (wIns 0x05 3 1 0x8000), by unfold PpAt; decide +kernel⟩⟩

/-- States and operands that meet the hypotheses of Obligations.PeriodRegisterOperations. -/
theorem witness_PeriodRegisterOperations_2 :
  (∃ (s : State) (e : Fin 1088) (f : Ecc) (x : Fields), f ≠ .uncorrectable ∧ PpAt s e 2 .mulh x) ∧
  (∃ (s : State) (e : Fin 1088) (f : Ecc) (x : Fields), f ≠ .uncorrectable ∧ PpAt s e 2 .qmul x) ∧
  (∃ (s : State) (e : Fin 1088) (f : Ecc) (x : Fields), f ≠ .uncorrectable ∧ PpAt s e 18 .div x) ∧
  (∃ (s : State) (e : Fin 1088) (f : Ecc) (x : Fields), f ≠ .uncorrectable ∧ PpAt s e 1 .and_ x) ∧
  (∃ (s : State) (e : Fin 1088) (f : Ecc) (x : Fields), f ≠ .uncorrectable ∧ PpAt s e 1 .or_ x) :=
  ⟨⟨wPp (wIns 0x06 3 1 0x8000) [(1, 0x80000005), (2, 7), (3, 9)], 0, .corrected, ppX (wIns 0x06 3 1 0x8000), by unfold PpAt; decide +kernel⟩,
   ⟨wPp (wIns 0x07 3 1 0x8000) [(1, 0x80000005), (2, 7), (3, 9)], 0, .corrected, ppX (wIns 0x07 3 1 0x8000), by unfold PpAt; decide +kernel⟩,
   ⟨wPp (wIns 0x08 3 1 0x8000) [(1, 0x80000005), (2, 7), (3, 9)], 0, .corrected, ppX (wIns 0x08 3 1 0x8000), by unfold PpAt; decide +kernel⟩,
   ⟨wPp (wIns 0x09 3 1 0x8000) [(1, 0x80000005), (2, 7), (3, 9)], 0, .corrected, ppX (wIns 0x09 3 1 0x8000), by unfold PpAt; decide +kernel⟩,
   ⟨wPp (wIns 0x0A 3 1 0x8000) [(1, 0x80000005), (2, 7), (3, 9)], 0, .corrected, ppX (wIns 0x0A 3 1 0x8000), by unfold PpAt; decide +kernel⟩⟩

/-- States and operands that meet the hypotheses of Obligations.PeriodRegisterOperations. -/
theorem witness_PeriodRegisterOperations_3 :
  (∃ (s : State) (e : Fin 1088) (f : Ecc) (x : Fields), f ≠ .uncorrectable ∧ PpAt s e 1 .xor x) ∧
  (∃ (s : State) (e : Fin 1088) (f : Ecc) (x : Fields), f ≠ .uncorrectable ∧ PpAt s e 1 .shl x) ∧
  (∃ (s : State) (e : Fin 1088) (f : Ecc) (x : Fields), f ≠ .uncorrectable ∧ PpAt s e 1 .shr x) ∧
  (∃ (s : State) (e : Fin 1088) (f : Ecc) (x : Fields), f ≠ .uncorrectable ∧ PpAt s e 1 .sar x) ∧
  (∃ (s : State) (e : Fin 1088) (f : Ecc) (x : Fields), f ≠ .uncorrectable ∧ PpAt s e 1 .min x) :=
  ⟨⟨wPp (wIns 0x0B 3 1 0x8000) [(1, 0x80000005), (2, 7), (3, 9)], 0, .corrected, ppX (wIns 0x0B 3 1 0x8000), by unfold PpAt; decide +kernel⟩,
   ⟨wPp (wIns 0x0C 3 1 0x8000) [(1, 0x80000005), (2, 7), (3, 9)], 0, .corrected, ppX (wIns 0x0C 3 1 0x8000), by unfold PpAt; decide +kernel⟩,
   ⟨wPp (wIns 0x0D 3 1 0x8000) [(1, 0x80000005), (2, 7), (3, 9)], 0, .corrected, ppX (wIns 0x0D 3 1 0x8000), by unfold PpAt; decide +kernel⟩,
   ⟨wPp (wIns 0x0E 3 1 0x8000) [(1, 0x80000005), (2, 7), (3, 9)], 0, .corrected, ppX (wIns 0x0E 3 1 0x8000), by unfold PpAt; decide +kernel⟩,
   ⟨wPp (wIns 0x0F 3 1 0x8000) [(1, 0x80000005), (2, 7), (3, 9)], 0, .corrected, ppX (wIns 0x0F 3 1 0x8000), by unfold PpAt; decide +kernel⟩⟩

/-- States and operands that meet the hypotheses of Obligations.PeriodRegisterOperations. -/
theorem witness_PeriodRegisterOperations_4 :
  (∃ (s : State) (e : Fin 1088) (f : Ecc) (x : Fields), f ≠ .uncorrectable ∧ PpAt s e 1 .max x) ∧
  (∃ (s : State) (e : Fin 1088) (f : Ecc) (x : Fields), f ≠ .uncorrectable ∧ PpAt s e 1 .abs x) :=
  ⟨⟨wPp (wIns 0x10 3 1 0x8000) [(1, 0x80000005), (2, 7), (3, 9)], 0, .corrected, ppX (wIns 0x10 3 1 0x8000), by unfold PpAt; decide +kernel⟩,
   ⟨wPp (wIns 0x11 3 1 0) [(1, 0x80000005), (2, 7), (3, 9)], 0, .corrected, ppX (wIns 0x11 3 1 0), by unfold PpAt; decide +kernel⟩⟩

/-- States and operands that meet the hypotheses of Obligations.PeriodImmediatesAndBranches. -/
theorem witness_PeriodImmediatesAndBranches_1 :
  (∃ (s : State) (e : Fin 1088) (f : Ecc) (x : Fields), f ≠ .uncorrectable ∧ PpAt s e 1 .addi x) ∧
  (∃ (s : State) (e : Fin 1088) (f : Ecc) (x : Fields), f ≠ .uncorrectable ∧ PpAt s e 1 .andi x) ∧
  (∃ (s : State) (e : Fin 1088) (f : Ecc) (x : Fields), f ≠ .uncorrectable ∧ PpAt s e 1 .ori x) ∧
  (∃ (s : State) (e : Fin 1088) (f : Ecc) (x : Fields), f ≠ .uncorrectable ∧ PpAt s e 1 .shli x) ∧
  (∃ (s : State) (e : Fin 1088) (f : Ecc) (x : Fields), f ≠ .uncorrectable ∧ PpAt s e 1 .shri x) :=
  ⟨⟨wPp (wIns 0x12 3 1 12) [(1, 0x80000005), (2, 7), (3, 9)], 0, .corrected, ppX (wIns 0x12 3 1 12), by unfold PpAt; decide +kernel⟩,
   ⟨wPp (wIns 0x13 3 1 12) [(1, 0x80000005), (2, 7), (3, 9)], 0, .corrected, ppX (wIns 0x13 3 1 12), by unfold PpAt; decide +kernel⟩,
   ⟨wPp (wIns 0x14 3 1 12) [(1, 0x80000005), (2, 7), (3, 9)], 0, .corrected, ppX (wIns 0x14 3 1 12), by unfold PpAt; decide +kernel⟩,
   ⟨wPp (wIns 0x15 3 1 12) [(1, 0x80000005), (2, 7), (3, 9)], 0, .corrected, ppX (wIns 0x15 3 1 12), by unfold PpAt; decide +kernel⟩,
   ⟨wPp (wIns 0x16 3 1 12) [(1, 0x80000005), (2, 7), (3, 9)], 0, .corrected, ppX (wIns 0x16 3 1 12), by unfold PpAt; decide +kernel⟩⟩

/-- States and operands that meet the hypotheses of Obligations.PeriodImmediatesAndBranches. -/
theorem witness_PeriodImmediatesAndBranches_2 :
  (∃ (s : State) (e : Fin 1088) (f : Ecc) (x : Fields), f ≠ .uncorrectable ∧ PpAt s e 1 .sari x) ∧
  (∃ (s : State) (e : Fin 1088) (f : Ecc) (x : Fields), f ≠ .uncorrectable ∧ PpAt s e 1 .lui x) ∧
  (∃ (s : State) (e : Fin 1088) (f : Ecc) (x : Fields), f ≠ .uncorrectable ∧ PpAt s e 1 .li x) ∧
  (∃ (s : State) (e : Fin 1088) (f : Ecc) (x : Fields), f ≠ .uncorrectable ∧ PpAt s e 2 .beq x ∧ s.ppReg e x.ra = s.ppReg e x.rb) ∧
  (∃ (s : State) (e : Fin 1088) (f : Ecc) (x : Fields), f ≠ .uncorrectable ∧ PpAt s e 1 .beq x ∧ (¬ (s.ppReg e x.ra = s.ppReg e x.rb))) :=
  ⟨⟨wPp (wIns 0x17 3 1 12) [(1, 0x80000005), (2, 7), (3, 9)], 0, .corrected, ppX (wIns 0x17 3 1 12), by unfold PpAt; decide +kernel⟩,
   ⟨wPp (wIns 0x18 3 0 5) [(1, 0x80000005), (2, 7), (3, 9)], 0, .corrected, ppX (wIns 0x18 3 0 5), by unfold PpAt; decide +kernel⟩,
   ⟨wPp (wIns 0x19 3 0 12) [(1, 0x80000005), (2, 7), (3, 9)], 0, .corrected, ppX (wIns 0x19 3 0 12), by unfold PpAt; decide +kernel⟩,
   ⟨wPp (wIns 0x20 1 1 9) [(1, 0x80000005), (2, 7), (3, 9)], 0, .corrected, ppX (wIns 0x20 1 1 9), by unfold PpAt; decide +kernel⟩,
   ⟨wPp (wIns 0x20 3 1 9) [(1, 0x80000005), (2, 7), (3, 9)], 0, .corrected, ppX (wIns 0x20 3 1 9), by unfold PpAt; decide +kernel⟩⟩

/-- States and operands that meet the hypotheses of Obligations.PeriodImmediatesAndBranches. -/
theorem witness_PeriodImmediatesAndBranches_3 :
  (∃ (s : State) (e : Fin 1088) (f : Ecc) (x : Fields), f ≠ .uncorrectable ∧ PpAt s e 2 .bne x ∧ s.ppReg e x.ra ≠ s.ppReg e x.rb) ∧
  (∃ (s : State) (e : Fin 1088) (f : Ecc) (x : Fields), f ≠ .uncorrectable ∧ PpAt s e 1 .bne x ∧ (¬ (s.ppReg e x.ra ≠ s.ppReg e x.rb))) ∧
  (∃ (s : State) (e : Fin 1088) (f : Ecc) (x : Fields), f ≠ .uncorrectable ∧ PpAt s e 2 .blt x ∧ (s.ppReg e x.ra).toInt < (s.ppReg e x.rb).toInt) ∧
  (∃ (s : State) (e : Fin 1088) (f : Ecc) (x : Fields), f ≠ .uncorrectable ∧ PpAt s e 1 .blt x ∧ (¬ ((s.ppReg e x.ra).toInt < (s.ppReg e x.rb).toInt))) ∧
  (∃ (s : State) (e : Fin 1088) (f : Ecc) (x : Fields), f ≠ .uncorrectable ∧ PpAt s e 2 .bge x ∧ (s.ppReg e x.rb).toInt ≤ (s.ppReg e x.ra).toInt) :=
  ⟨⟨wPp (wIns 0x21 3 1 9) [(1, 0x80000005), (2, 7), (3, 9)], 0, .corrected, ppX (wIns 0x21 3 1 9), by unfold PpAt; decide +kernel⟩,
   ⟨wPp (wIns 0x21 1 1 9) [(1, 0x80000005), (2, 7), (3, 9)], 0, .corrected, ppX (wIns 0x21 1 1 9), by unfold PpAt; decide +kernel⟩,
   ⟨wPp (wIns 0x22 1 2 9) [(1, 0x80000005), (2, 7), (3, 9)], 0, .corrected, ppX (wIns 0x22 1 2 9), by unfold PpAt; decide +kernel⟩,
   ⟨wPp (wIns 0x22 2 2 9) [(1, 0x80000005), (2, 7), (3, 9)], 0, .corrected, ppX (wIns 0x22 2 2 9), by unfold PpAt; decide +kernel⟩,
   ⟨wPp (wIns 0x23 2 1 9) [(1, 0x80000005), (2, 7), (3, 9)], 0, .corrected, ppX (wIns 0x23 2 1 9), by unfold PpAt; decide +kernel⟩⟩

/-- States and operands that meet the hypotheses of Obligations.PeriodImmediatesAndBranches. -/
theorem witness_PeriodImmediatesAndBranches_4 :
  (∃ (s : State) (e : Fin 1088) (f : Ecc) (x : Fields), f ≠ .uncorrectable ∧ PpAt s e 1 .bge x ∧ (¬ ((s.ppReg e x.rb).toInt ≤ (s.ppReg e x.ra).toInt))) ∧
  (∃ (s : State) (e : Fin 1088) (f : Ecc) (x : Fields), f ≠ .uncorrectable ∧ PpAt s e 2 .jmp x) ∧
  (∃ (s : State) (e : Fin 1088) (f : Ecc) (x : Fields), f ≠ .uncorrectable ∧ PpAt s e 1 .nop x) :=
  ⟨⟨wPp (wIns 0x23 1 2 9) [(1, 0x80000005), (2, 7), (3, 9)], 0, .corrected, ppX (wIns 0x23 1 2 9), by unfold PpAt; decide +kernel⟩,
   ⟨wPp (wIns 0x24 0 0 9) [(1, 0x80000005), (2, 7), (3, 9)], 0, .corrected, ppX (wIns 0x24 0 0 9), by unfold PpAt; decide +kernel⟩,
   ⟨wPp (wIns 0x00 0 0 0) [(1, 0x80000005), (2, 7), (3, 9)], 0, .corrected, ppX (wIns 0x00 0 0 0), by unfold PpAt; decide +kernel⟩⟩

/-- States and operands that meet the hypotheses of Obligations.PeriodLoadsAndStores. -/
theorem witness_PeriodLoadsAndStores_1 :
  (∃ (s : State) (e : Fin 1088) (f : Ecc) (x : Fields) (n : Nat) (a : Nat) (ecc : Ecc), f ≠ .uncorrectable ∧ PpAt s e 1 .ld x ∧ s.cellOf e = some n ∧ a = (s.ppReg e x.ra + x.imm).toNat ∧ a % 4 = 0 ∧ a < 0x100 ∧ ecc ≠ .uncorrectable) ∧
  (∃ (s : State) (e : Fin 1088) (f : Ecc) (x : Fields) (n : Nat) (a : Nat) (ecc : Ecc), f ≠ .uncorrectable ∧ PpAt s e 4 .ld x ∧ s.cellOf e = some n ∧ a = (s.ppReg e x.ra + x.imm).toNat ∧ a % 4 = 0 ∧ 0x1000 ≤ a ∧ a < 0x2000 ∧ ecc ≠ .uncorrectable) ∧
  (∃ (s : State) (e : Fin 1088) (f : Ecc) (x : Fields) (n : Nat) (a : Nat) (ecc : Ecc), f ≠ .uncorrectable ∧ PpAt s e 1 .ld x ∧ s.cellOf e = some n ∧ a = (s.ppReg e x.ra + x.imm).toNat ∧ (a % 4 ≠ 0 ∨ ecc = .uncorrectable)) ∧
  (∃ (s : State) (e : Fin 1088) (f : Ecc) (x : Fields) (n : Nat) (a : Nat), f ≠ .uncorrectable ∧ PpAt s e 1 .st x ∧ s.cellOf e = some n ∧ a = (s.ppReg e x.ra + x.imm).toNat ∧ a % 4 = 0 ∧ a < 0x100) ∧
  (∃ (s : State) (e : Fin 1088) (f : Ecc) (x : Fields) (n : Nat), f ≠ .uncorrectable ∧ PpAt s e 1 .st x ∧ s.cellOf e = some n ∧ s.ppReg e x.ra + x.imm = 0x300) :=
  ⟨⟨wPp (wIns 0x1A 3 1 12) [(1, 0xF0)], 0, .corrected, ppX (wIns 0x1A 3 1 12), 0, 0xFC, .corrected, by unfold PpAt; decide +kernel⟩,
   ⟨wPp (wIns 0x1A 3 1 12) [(1, 0x1FF0)], 0, .corrected, ppX (wIns 0x1A 3 1 12), 0, 0x1FFC, .corrected, by unfold PpAt; decide +kernel⟩,
   ⟨wPp (wIns 0x1A 3 1 12) [(1, 1)], 0, .corrected, ppX (wIns 0x1A 3 1 12), 0, 13, .corrected, by unfold PpAt; decide +kernel⟩,
   ⟨wPp (wIns 0x1B 3 1 12) [(1, 0xF0)], 0, .corrected, ppX (wIns 0x1B 3 1 12), 0, 0xFC, by unfold PpAt; decide +kernel⟩,
   ⟨wPp (wIns 0x1B 3 1 12) [(1, 0x2F4)], 0, .corrected, ppX (wIns 0x1B 3 1 12), 0, by unfold PpAt; decide +kernel⟩⟩

/-- States and operands that meet the hypotheses of Obligations.PeriodLoadsAndStores. -/
theorem witness_PeriodLoadsAndStores_2 :
  (∃ (s : State) (e : Fin 1088) (f : Ecc) (x : Fields) (n : Nat) (a : Nat), f ≠ .uncorrectable ∧ PpAt s e 1 .st x ∧ s.cellOf e = some n ∧ a = (s.ppReg e x.ra + x.imm).toNat ∧ 0x100 ≤ a ∧ a < 0x300) :=
  ⟨wPp (wIns 0x1B 3 1 12) [(1, 0x2F3)], 0, .corrected, ppX (wIns 0x1B 3 1 12), 0, 0x2FF, by unfold PpAt; decide +kernel⟩

/-- States and operands that meet the hypotheses of Obligations.PeriodRunsEnd. -/
theorem witness_PeriodRunsEnd :
  (∃ (s : State) (e : Fin 1088) (f : Ecc) (x : Fields), f ≠ .uncorrectable ∧ PpAt s e 1 .end_ x) ∧
  (∃ (s : State) (e : Fin 1088), (s.eng e).running = true ∧ s.reached ((s.eng e).bound + BitVec.ofNat 64 (16 * s.ppBudget e)) = true) ∧
  (∃ (s : State) (e : Fin 1088), ((s.eng e).running = false ∨ s.reached ((s.eng e).bound + BitVec.ofNat 64 (16 * s.ppBudget e)) = false)) ∧
  (∃ (s : State) (e : Fin 1088) (f : Ecc) (x : Fields), f ≠ .uncorrectable ∧ PpAt s e 1 .evt x ∧ x.num < 511 ∧ wbit (s.route x.num) 31 = false) ∧
  (∃ (s : State) (e : Fin 1088) (r : Ecc) (c : Instr), c ∈ periodCommands e .uncorrectable r ∧ c ≠ .programOverrun e ∧ (s.eng e).running = true ∧ s.custom e = true ∧ s.cellInRun e = true ∧ (s.eng e).pc ≤ 255) :=
  ⟨⟨wPp (wIns 0x31 0 0 0) [(1, 0x80000005), (2, 7), (3, 9)], 0, .corrected, ppX (wIns 0x31 0 0 0), by unfold PpAt; decide +kernel⟩,
   ⟨wAt 32000 (wPp 0 []), 0, by decide +kernel⟩,
   ⟨wPp 0 [], 0, by decide +kernel⟩,
   ⟨wPp (wIns 0x30 0 0 510) [(1, 0x80000005), (2, 7), (3, 9)], 0, .corrected, ppX (wIns 0x30 0 0 510), by unfold PpAt; decide +kernel⟩,
   ⟨wPp (wIns 0x31 0 0 0) [], 0, .ok, .ppEnd 0 .uncorrectable, by decide +kernel⟩⟩

/-- States and operands that meet the hypotheses of Obligations.ThreadRegisterAndImmediateOperations. -/
theorem witness_ThreadRegisterAndImmediateOperations_1 :
  (∃ (s : State) (t : Fin 16) (f : Ecc) (y : Fields), f ≠ .uncorrectable ∧ PatAt s t .add y) ∧
  (∃ (s : State) (t : Fin 16) (f : Ecc) (y : Fields), f ≠ .uncorrectable ∧ PatAt s t .sub y) ∧
  (∃ (s : State) (t : Fin 16) (f : Ecc) (y : Fields), f ≠ .uncorrectable ∧ PatAt s t .and_ y) ∧
  (∃ (s : State) (t : Fin 16) (f : Ecc) (y : Fields), f ≠ .uncorrectable ∧ PatAt s t .or_ y) ∧
  (∃ (s : State) (t : Fin 16) (f : Ecc) (y : Fields), f ≠ .uncorrectable ∧ PatAt s t .xor y) :=
  ⟨⟨wPat (wIns 0x01 3 1 0x8000) [(1, 4), (2, 7), (3, 9)], 1, .corrected, patX (wIns 0x01 3 1 0x8000), by unfold PatAt; decide +kernel⟩,
   ⟨wPat (wIns 0x02 3 1 0x8000) [(1, 4), (2, 7), (3, 9)], 1, .corrected, patX (wIns 0x02 3 1 0x8000), by unfold PatAt; decide +kernel⟩,
   ⟨wPat (wIns 0x03 3 1 0x8000) [(1, 4), (2, 7), (3, 9)], 1, .corrected, patX (wIns 0x03 3 1 0x8000), by unfold PatAt; decide +kernel⟩,
   ⟨wPat (wIns 0x04 3 1 0x8000) [(1, 4), (2, 7), (3, 9)], 1, .corrected, patX (wIns 0x04 3 1 0x8000), by unfold PatAt; decide +kernel⟩,
   ⟨wPat (wIns 0x05 3 1 0x8000) [(1, 4), (2, 7), (3, 9)], 1, .corrected, patX (wIns 0x05 3 1 0x8000), by unfold PatAt; decide +kernel⟩⟩

/-- States and operands that meet the hypotheses of Obligations.ThreadRegisterAndImmediateOperations. -/
theorem witness_ThreadRegisterAndImmediateOperations_2 :
  (∃ (s : State) (t : Fin 16) (f : Ecc) (y : Fields), f ≠ .uncorrectable ∧ PatAt s t .shl y) ∧
  (∃ (s : State) (t : Fin 16) (f : Ecc) (y : Fields), f ≠ .uncorrectable ∧ PatAt s t .shr y) ∧
  (∃ (s : State) (t : Fin 16) (f : Ecc) (y : Fields), f ≠ .uncorrectable ∧ PatAt s t .sar y) ∧
  (∃ (s : State) (t : Fin 16) (f : Ecc) (y : Fields), f ≠ .uncorrectable ∧ PatAt s t .mul y) ∧
  (∃ (s : State) (t : Fin 16) (f : Ecc) (y : Fields), f ≠ .uncorrectable ∧ PatAt s t .mulh y) :=
  ⟨⟨wPat (wIns 0x06 3 1 0x8000) [(1, 4), (2, 7), (3, 9)], 1, .corrected, patX (wIns 0x06 3 1 0x8000), by unfold PatAt; decide +kernel⟩,
   ⟨wPat (wIns 0x07 3 1 0x8000) [(1, 4), (2, 7), (3, 9)], 1, .corrected, patX (wIns 0x07 3 1 0x8000), by unfold PatAt; decide +kernel⟩,
   ⟨wPat (wIns 0x08 3 1 0x8000) [(1, 4), (2, 7), (3, 9)], 1, .corrected, patX (wIns 0x08 3 1 0x8000), by unfold PatAt; decide +kernel⟩,
   ⟨wPat (wIns 0x09 3 1 0x8000) [(1, 4), (2, 7), (3, 9)], 1, .corrected, patX (wIns 0x09 3 1 0x8000), by unfold PatAt; decide +kernel⟩,
   ⟨wPat (wIns 0x0A 3 1 0x8000) [(1, 4), (2, 7), (3, 9)], 1, .corrected, patX (wIns 0x0A 3 1 0x8000), by unfold PatAt; decide +kernel⟩⟩

/-- States and operands that meet the hypotheses of Obligations.ThreadRegisterAndImmediateOperations. -/
theorem witness_ThreadRegisterAndImmediateOperations_3 :
  (∃ (s : State) (t : Fin 16) (f : Ecc) (y : Fields), f ≠ .uncorrectable ∧ PatAt s t .min y) ∧
  (∃ (s : State) (t : Fin 16) (f : Ecc) (y : Fields), f ≠ .uncorrectable ∧ PatAt s t .max y) ∧
  (∃ (s : State) (t : Fin 16) (f : Ecc) (y : Fields), f ≠ .uncorrectable ∧ PatAt s t .slt y) ∧
  (∃ (s : State) (t : Fin 16) (f : Ecc) (y : Fields), f ≠ .uncorrectable ∧ PatAt s t .sltu y) ∧
  (∃ (s : State) (t : Fin 16) (f : Ecc) (y : Fields), f ≠ .uncorrectable ∧ PatAt s t .addi y) :=
  ⟨⟨wPat (wIns 0x0B 3 1 0x8000) [(1, 4), (2, 7), (3, 9)], 1, .corrected, patX (wIns 0x0B 3 1 0x8000), by unfold PatAt; decide +kernel⟩,
   ⟨wPat (wIns 0x0C 3 1 0x8000) [(1, 4), (2, 7), (3, 9)], 1, .corrected, patX (wIns 0x0C 3 1 0x8000), by unfold PatAt; decide +kernel⟩,
   ⟨wPat (wIns 0x0D 3 1 0x8000) [(1, 4), (2, 7), (3, 9)], 1, .corrected, patX (wIns 0x0D 3 1 0x8000), by unfold PatAt; decide +kernel⟩,
   ⟨wPat (wIns 0x0E 3 1 0x8000) [(1, 4), (2, 7), (3, 9)], 1, .corrected, patX (wIns 0x0E 3 1 0x8000), by unfold PatAt; decide +kernel⟩,
   ⟨wPat (wIns 0x10 3 1 12) [(1, 4), (2, 7), (3, 9)], 1, .corrected, patX (wIns 0x10 3 1 12), by unfold PatAt; decide +kernel⟩⟩

/-- States and operands that meet the hypotheses of Obligations.ThreadRegisterAndImmediateOperations. -/
theorem witness_ThreadRegisterAndImmediateOperations_4 :
  (∃ (s : State) (t : Fin 16) (f : Ecc) (y : Fields), f ≠ .uncorrectable ∧ PatAt s t .andi y) ∧
  (∃ (s : State) (t : Fin 16) (f : Ecc) (y : Fields), f ≠ .uncorrectable ∧ PatAt s t .ori y) ∧
  (∃ (s : State) (t : Fin 16) (f : Ecc) (y : Fields), f ≠ .uncorrectable ∧ PatAt s t .xori y) ∧
  (∃ (s : State) (t : Fin 16) (f : Ecc) (y : Fields), f ≠ .uncorrectable ∧ PatAt s t .shli y) ∧
  (∃ (s : State) (t : Fin 16) (f : Ecc) (y : Fields), f ≠ .uncorrectable ∧ PatAt s t .shri y) :=
  ⟨⟨wPat (wIns 0x11 3 1 12) [(1, 4), (2, 7), (3, 9)], 1, .corrected, patX (wIns 0x11 3 1 12), by unfold PatAt; decide +kernel⟩,
   ⟨wPat (wIns 0x12 3 1 12) [(1, 4), (2, 7), (3, 9)], 1, .corrected, patX (wIns 0x12 3 1 12), by unfold PatAt; decide +kernel⟩,
   ⟨wPat (wIns 0x13 3 1 12) [(1, 4), (2, 7), (3, 9)], 1, .corrected, patX (wIns 0x13 3 1 12), by unfold PatAt; decide +kernel⟩,
   ⟨wPat (wIns 0x14 3 1 12) [(1, 4), (2, 7), (3, 9)], 1, .corrected, patX (wIns 0x14 3 1 12), by unfold PatAt; decide +kernel⟩,
   ⟨wPat (wIns 0x15 3 1 12) [(1, 4), (2, 7), (3, 9)], 1, .corrected, patX (wIns 0x15 3 1 12), by unfold PatAt; decide +kernel⟩⟩

/-- States and operands that meet the hypotheses of Obligations.ThreadRegisterAndImmediateOperations. -/
theorem witness_ThreadRegisterAndImmediateOperations_5 :
  (∃ (s : State) (t : Fin 16) (f : Ecc) (y : Fields), f ≠ .uncorrectable ∧ PatAt s t .sari y) ∧
  (∃ (s : State) (t : Fin 16) (f : Ecc) (y : Fields), f ≠ .uncorrectable ∧ PatAt s t .lui y) ∧
  (∃ (s : State) (t : Fin 16) (f : Ecc) (y : Fields), f ≠ .uncorrectable ∧ PatAt s t .li y) :=
  ⟨⟨wPat (wIns 0x16 3 1 12) [(1, 4), (2, 7), (3, 9)], 1, .corrected, patX (wIns 0x16 3 1 12), by unfold PatAt; decide +kernel⟩,
   ⟨wPat (wIns 0x17 3 0 5) [(1, 4), (2, 7), (3, 9)], 1, .corrected, patX (wIns 0x17 3 0 5), by unfold PatAt; decide +kernel⟩,
   ⟨wPat (wIns 0x18 3 0 12) [(1, 4), (2, 7), (3, 9)], 1, .corrected, patX (wIns 0x18 3 0 12), by unfold PatAt; decide +kernel⟩⟩

/-- States and operands that meet the hypotheses of Obligations.ThreadBranchesAndCalls. -/
theorem witness_ThreadBranchesAndCalls_1 :
  (∃ (s : State) (t : Fin 16) (f : Ecc) (y : Fields), f ≠ .uncorrectable ∧ PatAt s t .beq y) ∧
  (∃ (s : State) (t : Fin 16) (f : Ecc) (y : Fields), f ≠ .uncorrectable ∧ PatAt s t .bne y) ∧
  (∃ (s : State) (t : Fin 16) (f : Ecc) (y : Fields), f ≠ .uncorrectable ∧ PatAt s t .blt y) ∧
  (∃ (s : State) (t : Fin 16) (f : Ecc) (y : Fields), f ≠ .uncorrectable ∧ PatAt s t .bge y) ∧
  (∃ (s : State) (t : Fin 16) (f : Ecc) (y : Fields), f ≠ .uncorrectable ∧ PatAt s t .bltu y) :=
  ⟨⟨wPat (wIns 0x20 1 1 9) [(1, 4), (2, 7), (3, 9)], 1, .corrected, patX (wIns 0x20 1 1 9), by unfold PatAt; decide +kernel⟩,
   ⟨wPat (wIns 0x21 3 1 9) [(1, 4), (2, 7), (3, 9)], 1, .corrected, patX (wIns 0x21 3 1 9), by unfold PatAt; decide +kernel⟩,
   ⟨wPat (wIns 0x22 3 1 9) [(1, 4), (2, 7), (3, 9)], 1, .corrected, patX (wIns 0x22 3 1 9), by unfold PatAt; decide +kernel⟩,
   ⟨wPat (wIns 0x23 1 1 9) [(1, 4), (2, 7), (3, 9)], 1, .corrected, patX (wIns 0x23 1 1 9), by unfold PatAt; decide +kernel⟩,
   ⟨wPat (wIns 0x24 3 1 9) [(1, 4), (2, 7), (3, 9)], 1, .corrected, patX (wIns 0x24 3 1 9), by unfold PatAt; decide +kernel⟩⟩

/-- States and operands that meet the hypotheses of Obligations.ThreadBranchesAndCalls. -/
theorem witness_ThreadBranchesAndCalls_2 :
  (∃ (s : State) (t : Fin 16) (f : Ecc) (y : Fields), f ≠ .uncorrectable ∧ PatAt s t .bgeu y) ∧
  (∃ (s : State) (t : Fin 16) (f : Ecc) (y : Fields), f ≠ .uncorrectable ∧ PatAt s t .jmp y) ∧
  (∃ (s : State) (t : Fin 16) (f : Ecc) (y : Fields), f ≠ .uncorrectable ∧ PatAt s t .jr y) ∧
  (∃ (s : State) (t : Fin 16) (f : Ecc) (y : Fields), f ≠ .uncorrectable ∧ PatAt s t .call y) ∧
  (∃ (s : State) (t : Fin 16) (r : Ecc) (c : Instr), c ∈ threadCommands t .uncorrectable r ∧ (s.thr t).st = .run ∧ (s.thr t).pc ≤ 0xFFFC) :=
  ⟨⟨wPat (wIns 0x25 3 1 9) [(1, 4), (2, 7), (3, 9)], 1, .corrected, patX (wIns 0x25 3 1 9), by unfold PatAt; decide +kernel⟩,
   ⟨wPat (wIns 0x26 0 0 9) [(1, 4), (2, 7), (3, 9)], 1, .corrected, patX (wIns 0x26 0 0 9), by unfold PatAt; decide +kernel⟩,
   ⟨wPat (wIns 0x28 0 1 12) [(1, 4), (2, 7), (3, 9)], 1, .corrected, patX (wIns 0x28 0 1 12), by unfold PatAt; decide +kernel⟩,
   ⟨wPat (wIns 0x27 3 0 9) [(1, 4), (2, 7), (3, 9)], 1, .corrected, patX (wIns 0x27 3 0 9), by unfold PatAt; decide +kernel⟩,
   ⟨wPat (wIns 0 0 0 0) [], 1, .ok, .patAdd 1 .uncorrectable, by decide +kernel⟩⟩

/-- States and operands that meet the hypotheses of Obligations.ThreadBranchesAndCalls. -/
theorem witness_ThreadBranchesAndCalls_3 :
  (∃ (s : State) (t : Fin 16) (f : Ecc) (y : Fields), f ≠ .uncorrectable ∧ PatAt s t .nop y) :=
  ⟨wPat (wIns 0x00 0 0 0) [(1, 4), (2, 7), (3, 9)], 1, .corrected, patX (wIns 0x00 0 0 0), by unfold PatAt; decide +kernel⟩

/-- States and operands that meet the hypotheses of Obligations.ThreadLoadsSeeOwnStores. -/
theorem witness_ThreadLoadsSeeOwnStores_1 :
  (∃ (s : State) (t : Fin 16) (f : Ecc) (y : Fields) (ecc : Ecc), f ≠ .uncorrectable ∧ PatAt s t .ld y ∧ ecc ≠ .uncorrectable ∧ (s.patReg t y.ra + y.imm).toNat % 4 = 0 ∧ (s.patReg t y.ra + y.imm).toNat + 4 ≤ 0x40000) ∧
  (∃ (s : State) (t : Fin 16) (f : Ecc) (y : Fields) (ecc : Ecc), f ≠ .uncorrectable ∧ PatAt s t .ldh y ∧ ecc ≠ .uncorrectable ∧ (s.patReg t y.ra + y.imm).toNat % 2 = 0 ∧ (s.patReg t y.ra + y.imm).toNat + 2 ≤ 0x40000) ∧
  (∃ (s : State) (t : Fin 16) (f : Ecc) (y : Fields) (ecc : Ecc), f ≠ .uncorrectable ∧ PatAt s t .ldb y ∧ ecc ≠ .uncorrectable ∧ (s.patReg t y.ra + y.imm).toNat + 1 ≤ 0x40000) ∧
  (∃ (s : State) (t : Fin 16) (f : Ecc) (y : Fields) (ecc : Ecc), f ≠ .uncorrectable ∧ PatAt s t .ld y ∧ ((s.patReg t y.ra + y.imm).toNat % 4 ≠ 0 ∨ 0x40000 < (s.patReg t y.ra + y.imm).toNat + 4)) ∧
  (∃ (s : State) (t : Fin 16) (f : Ecc) (y : Fields) (ecc : Ecc), f ≠ .uncorrectable ∧ PatAt s t .ldh y ∧ ((s.patReg t y.ra + y.imm).toNat % 2 ≠ 0 ∨ 0x40000 < (s.patReg t y.ra + y.imm).toNat + 2)) :=
  ⟨⟨{ wPat (wIns 0x19 3 1 12) [(1, 0x3FFF0)] with threads := [(1, { st := .run, p := [(1, 0x3FFF0)], buf := [{ adr := 0x3FFFE, len := 1, data := 0x77 }] })] }, 1, .corrected, patX (wIns 0x19 3 1 12), .corrected, by unfold PatAt; decide +kernel⟩,
   ⟨wPat (wIns 0x1A 3 1 12) [(1, 0x3FFF2)], 1, .corrected, patX (wIns 0x1A 3 1 12), .corrected, by unfold PatAt; decide +kernel⟩,
   ⟨wPat (wIns 0x1B 3 1 12) [(1, 0x3FFF3)], 1, .corrected, patX (wIns 0x1B 3 1 12), .corrected, by unfold PatAt; decide +kernel⟩,
   ⟨wPat (wIns 0x19 3 1 12) [(1, 0x3FFF1)], 1, .corrected, patX (wIns 0x19 3 1 12), .corrected, by unfold PatAt; decide +kernel⟩,
   ⟨wPat (wIns 0x1A 3 1 12) [(1, 0x3FFF5)], 1, .corrected, patX (wIns 0x1A 3 1 12), .corrected, by unfold PatAt; decide +kernel⟩⟩

/-- States and operands that meet the hypotheses of Obligations.ThreadLoadsSeeOwnStores. -/
theorem witness_ThreadLoadsSeeOwnStores_2 :
  (∃ (s : State) (t : Fin 16) (f : Ecc) (y : Fields) (ecc : Ecc), f ≠ .uncorrectable ∧ PatAt s t .ldb y ∧ 0x40000 < (s.patReg t y.ra + y.imm).toNat + 1) ∧
  (∃ (s : State) (t : Fin 16) (f : Ecc) (y : Fields) (i : Nat), f ≠ .uncorrectable ∧ PatAt s t .ld y ∧ (s.patReg t y.ra + y.imm).toNat % 4 = 0 ∧ (s.patReg t y.ra + y.imm).toNat + 4 ≤ 0x40000 ∧ i < 4 ∧ bufByte (s.thr t).buf ((s.patReg t y.ra + y.imm).toNat + i) = none) ∧
  (∃ (s : State) (t : Fin 16) (f : Ecc) (y : Fields) (i : Nat), f ≠ .uncorrectable ∧ PatAt s t .ldh y ∧ (s.patReg t y.ra + y.imm).toNat % 2 = 0 ∧ (s.patReg t y.ra + y.imm).toNat + 2 ≤ 0x40000 ∧ i < 2 ∧ bufByte (s.thr t).buf ((s.patReg t y.ra + y.imm).toNat + i) = none) ∧
  (∃ (s : State) (t : Fin 16) (f : Ecc) (y : Fields) (i : Nat), f ≠ .uncorrectable ∧ PatAt s t .ldb y ∧ (s.patReg t y.ra + y.imm).toNat + 1 ≤ 0x40000 ∧ i < 1 ∧ bufByte (s.thr t).buf ((s.patReg t y.ra + y.imm).toNat + i) = none) :=
  ⟨⟨wPat (wIns 0x1B 3 1 12) [(1, 0x3FFF4)], 1, .corrected, patX (wIns 0x1B 3 1 12), .corrected, by unfold PatAt; decide +kernel⟩,
   ⟨wPat (wIns 0x19 3 1 12) [(1, 0x3FFF0)], 1, .corrected, patX (wIns 0x19 3 1 12), 3, by unfold PatAt; decide +kernel⟩,
   ⟨wPat (wIns 0x1A 3 1 12) [(1, 0x3FFF2)], 1, .corrected, patX (wIns 0x1A 3 1 12), 1, by unfold PatAt; decide +kernel⟩,
   ⟨wPat (wIns 0x1B 3 1 12) [(1, 0x3FFF3)], 1, .corrected, patX (wIns 0x1B 3 1 12), 0, by unfold PatAt; decide +kernel⟩⟩

/-- States and operands that meet the hypotheses of Obligations.ThreadStoresAreBuffered. -/
theorem witness_ThreadStoresAreBuffered_1 :
  (∃ (s : State) (t : Fin 16) (f : Ecc) (y : Fields), f ≠ .uncorrectable ∧ PatAt s t .st y ∧ (s.patReg t y.ra + y.imm).toNat % 4 = 0 ∧ (s.patReg t y.ra + y.imm).toNat < 0x3BE00) ∧
  (∃ (s : State) (t : Fin 16) (f : Ecc) (y : Fields), f ≠ .uncorrectable ∧ PatAt s t .sth y ∧ (s.patReg t y.ra + y.imm).toNat % 2 = 0 ∧ (s.patReg t y.ra + y.imm).toNat < 0x3BE00) ∧
  (∃ (s : State) (t : Fin 16) (f : Ecc) (y : Fields), f ≠ .uncorrectable ∧ PatAt s t .stb y ∧ (s.patReg t y.ra + y.imm).toNat < 0x3BE00) ∧
  (∃ (s : State) (t : Fin 16) (f : Ecc) (y : Fields), f ≠ .uncorrectable ∧ PatAt s t .st y ∧ (s.patReg t y.ra + y.imm).toNat % 4 = 0 ∧ 0x3BE00 ≤ (s.patReg t y.ra + y.imm).toNat ∧ (s.patReg t y.ra + y.imm).toNat + 4 ≤ 0x40000) ∧
  (∃ (s : State) (t : Fin 16) (f : Ecc) (y : Fields), f ≠ .uncorrectable ∧ PatAt s t .sth y ∧ (s.patReg t y.ra + y.imm).toNat % 2 = 0 ∧ 0x3BE00 ≤ (s.patReg t y.ra + y.imm).toNat ∧ (s.patReg t y.ra + y.imm).toNat + 2 ≤ 0x40000) :=
  ⟨⟨wPat (wIns 0x1C 3 1 12) [(1, 0x3BDF0), (3, 0x12345678)], 1, .corrected, patX (wIns 0x1C 3 1 12), by unfold PatAt; decide +kernel⟩,
   ⟨wPat (wIns 0x1D 3 1 12) [(1, 0x3BDF2), (3, 0x12345678)], 1, .corrected, patX (wIns 0x1D 3 1 12), by unfold PatAt; decide +kernel⟩,
   ⟨wPat (wIns 0x1E 3 1 12) [(1, 0x3BDF3), (3, 0x12345678)], 1, .corrected, patX (wIns 0x1E 3 1 12), by unfold PatAt; decide +kernel⟩,
   ⟨wPat (wIns 0x1C 3 1 12) [(1, 0x3BDF4), (3, 9)], 1, .corrected, patX (wIns 0x1C 3 1 12), by unfold PatAt; decide +kernel⟩,
   ⟨wPat (wIns 0x1D 3 1 12) [(1, 0x3FFF2), (3, 9)], 1, .corrected, patX (wIns 0x1D 3 1 12), by unfold PatAt; decide +kernel⟩⟩

/-- States and operands that meet the hypotheses of Obligations.ThreadStoresAreBuffered. -/
theorem witness_ThreadStoresAreBuffered_2 :
  (∃ (s : State) (t : Fin 16) (f : Ecc) (y : Fields), f ≠ .uncorrectable ∧ PatAt s t .stb y ∧ 0x3BE00 ≤ (s.patReg t y.ra + y.imm).toNat ∧ (s.patReg t y.ra + y.imm).toNat + 1 ≤ 0x40000) :=
  ⟨wPat (wIns 0x1E 3 1 12) [(1, 0x3FFF3), (3, 9)], 1, .corrected, patX (wIns 0x1E 3 1 12), by unfold PatAt; decide +kernel⟩

/-- States and operands that meet the hypotheses of Obligations.ExchangeAndDrainPublish. -/
theorem witness_ExchangeAndDrainPublish :
  (∃ (s : State) (t : Fin 16) (f : Ecc) (y : Fields) (ecc : Ecc), f ≠ .uncorrectable ∧ ecc ≠ .uncorrectable ∧ PatAt s t .xchg y ∧ (s.patReg t y.ra + y.imm).toNat % 4 = 0 ∧ (s.patReg t y.ra + y.imm).toNat < 0x3BE00) ∧
  (∃ (s : State) (t : Fin 16) (f : Ecc) (y : Fields), f ≠ .uncorrectable ∧ PatAt s t .sync y) ∧
  (∃ (s : State) (t : Fin 16) (e : StEntry) (rest : List StEntry), (s.thr t).buf = e :: rest) :=
  ⟨⟨{ wPat (wIns 0x1F 3 1 12) [(1, 0x3BDF0), (3, 9)] with ledger := [(0x3BDFC, 4)] }, 1, .corrected, patX (wIns 0x1F 3 1 12), .corrected, by unfold PatAt; decide +kernel⟩,
   ⟨wPat (wIns 0x3A 0 0 0) [(1, 4), (2, 7), (3, 9)], 1, .corrected, patX (wIns 0x3A 0 0 0), by unfold PatAt; decide +kernel⟩,
   ⟨{ wRun with threads := [(0, { st := .run, buf := [{ adr := 8, len := 4, data := 0x77 }] })] }, 0, { adr := 8, len := 4, data := 0x77 }, [], by decide +kernel⟩⟩

/-- States and operands that meet the hypotheses of Obligations.ThreadWaitsAndTheirEnds. -/
theorem witness_ThreadWaitsAndTheirEnds_1 :
  (∃ (s : State) (t : Fin 16) (f : Ecc) (y : Fields), f ≠ .uncorrectable ∧ PatAt s t .waite y ∧ wbit (s.route y.num) t = false) ∧
  (∃ (s : State) (t : Fin 16) (f : Ecc) (y : Fields), f ≠ .uncorrectable ∧ PatAt s t .waite y ∧ wbit (s.route y.num) t = true ∧ (s.pend y.num).getLsbD t = true ∧ irqTakeable (s.thr t) (s.route y.num) = false) ∧
  (∃ (s : State) (t : Fin 16) (f : Ecc) (y : Fields), f ≠ .uncorrectable ∧ PatAt s t .waite y ∧ wbit (s.route y.num) t = true ∧ ((s.pend y.num).getLsbD t = false ∨ irqTakeable (s.thr t) (s.route y.num) = true)) ∧
  (∃ (s : State) (t : Fin 16) (f : Ecc) (y : Fields) (a : Nat) (w : List Byte) (ecc : Ecc), f ≠ .uncorrectable ∧ ecc ≠ .uncorrectable ∧ PatAt s t .waitm y ∧ a = (s.patReg t y.ra + y.imm).toNat ∧ a % 16 = 0 ∧ a + 16 ≤ 0x40000 ∧ w = (List.range 16).map (fun i => s.seen t (a + i)) ∧ s.markBad w = false) ∧
  (∃ (s : State) (t : Fin 16) (w : WaitRec) (rest : List WaitRec) (e : Nat) (rd : Nat) (v : Word), (s.thr t).st = .wait ∧ (s.thr t).waits = w :: rest ∧ w.on = .event e rd v ∧ w.result = none ∧ (s.pend e).getLsbD t = true ∧ irqTakeable (s.thr t) (s.route e) = false) :=
  ⟨⟨wPat (wIns 0x30 3 1 0x600) [(1, 4), (2, 7), (3, 9)], 1, .corrected, patX (wIns 0x30 3 1 0x600), by unfold PatAt; decide +kernel⟩,
   ⟨{ wPat (wIns 0x30 3 1 0x600) [(1, 4), (2, 7), (3, 9)] with regs := wReg Reg.patternEvRoute 3 2, evPend := [(3, 2)] }, 1, .corrected, patX (wIns 0x30 3 1 0x600), by unfold PatAt; decide +kernel⟩,
   ⟨{ wPat (wIns 0x30 3 1 0x600) [(1, 4), (2, 7), (3, 9)] with regs := wReg Reg.patternEvRoute 3 2 }, 1, .corrected, patX (wIns 0x30 3 1 0x600), by unfold PatAt; decide +kernel⟩,
   ⟨wPat (wIns 0x31 3 1 12) [(1, 4)], 1, .corrected, patX (wIns 0x31 3 1 12), 16, List.replicate 16 0, .corrected, by unfold PatAt; decide +kernel⟩,
   ⟨{ wRun with regs := wReg Reg.patternEvRoute 3 2, evPend := [(3, 2)], threads := [(1, { st := .wait, waits := [{ on := .event 3 2 0, pc := 8, level := 0 }] })] }, 1, { on := .event 3 2 0, pc := 8, level := 0 }, [], 3, 2, 0, by decide +kernel⟩⟩

/-- States and operands that meet the hypotheses of Obligations.ThreadWaitsAndTheirEnds. -/
theorem witness_ThreadWaitsAndTheirEnds_2 :
  (∃ (s : State) (t : Fin 16) (w : WaitRec) (rest : List WaitRec) (e : Nat) (rd : Nat) (v : Word), (s.thr t).st = .wait ∧ (s.thr t).waits = w :: rest ∧ w.on = .event e rd v ∧ w.result = none ∧ v ≠ 0 ∧ 16 * v.toNat ≤ (s.time.st - w.since).toNat) ∧
  (∃ (s : State) (t : Fin 16) (w : WaitRec) (rest : List WaitRec) (a : Nat) (rd : Nat) (v : Word), (s.thr t).st = .wait ∧ (s.thr t).waits = w :: rest ∧ w.on = .mark a rd ∧ w.result = some v) ∧
  (∃ (s : State) (t : Fin 16), s.deadlocked = true ∧ 32000 * s.slotLenAt s.deadSince ≤ (s.time.st - s.deadSince).toNat ∧ thrTakes (s.thr t) = true ∧ ((∀ k, t.val < k → k < 16 → thrTakes (s.thr k) = false))) ∧
  (∃ (s : State), (s.deadlocked = false ∨ (s.time.st - s.deadSince).toNat < 32000 * s.slotLenAt s.deadSince)) :=
  ⟨⟨{ wAt 112 wRun with threads := [(1, { st := .wait, waits := [{ on := .event 3 2 7, pc := 8, level := 0 }] })] }, 1, { on := .event 3 2 7, pc := 8, level := 0 }, [], 3, 2, 7, by decide +kernel⟩,
   ⟨{ wRun with threads := [(1, { st := .wait, waits := [{ on := .mark 16 2, pc := 8, level := 0, result := some 1, fire := 9 }] })] }, 1, { on := .mark 16 2, pc := 8, level := 0, result := some 1, fire := 9 }, [], 16, 2, 1, by decide +kernel⟩,
   ⟨{ wAt 32000000 wRun with regs := wReg Reg.patternEvRoute 3 0x80008000, threads := [(15, { st := .wait, waits := [{ on := .event 3 2 0, pc := 8, level := 0 }] })] }, 15, by exact ⟨by decide +kernel, by decide +kernel, by decide +kernel, fun k h1 h2 => by have : (15 : Fin 16).val = 15 := rfl; omega⟩⟩,
   ⟨{ wAt 31999999 wRun with regs := wReg Reg.patternEvRoute 3 0x80008000, threads := [(15, { st := .wait, waits := [{ on := .event 3 2 0, pc := 8, level := 0 }] })] }, by decide +kernel⟩⟩

/-- States and operands that meet the hypotheses of Obligations.EventsAndInterrupts. -/
theorem witness_EventsAndInterrupts_1 :
  (∃ (s : State) (t : Fin 16) (f : Ecc) (y : Fields), f ≠ .uncorrectable ∧ PatAt s t .emit y ∧ y.num < 511) ∧
  (∃ (s : State) (t : Fin 16) (f : Ecc) (y : Fields), f ≠ .uncorrectable ∧ PatAt s t .evclr y ∧ y.num ≠ 511) ∧
  (∃ (s : State) (t : Fin 16) (f : Ecc) (y : Fields), f ≠ .uncorrectable ∧ PatAt s t .emit y ∧ y.num = 511) ∧
  (∃ (s : State) (t : Fin 16) (f : Ecc) (y : Fields), f ≠ .uncorrectable ∧ PatAt s t .evclr y ∧ y.num = 511) ∧
  (∃ (s : State) (v : Word) (e : Nat), s.ringsUp = true ∧ e = (s.reg Reg.patternEvSel).toNat % 512 ∧ e ≠ 511) :=
  ⟨⟨wPat (wIns 0x32 0 0 510) [(1, 4), (2, 7), (3, 9)], 1, .corrected, patX (wIns 0x32 0 0 510), by unfold PatAt; decide +kernel⟩,
   ⟨{ wPat (wIns 0x33 0 0 510) [(1, 4), (2, 7), (3, 9)] with evPend := [(510, 3)] }, 1, .corrected, patX (wIns 0x33 0 0 510), by unfold PatAt; decide +kernel⟩,
   ⟨wPat (wIns 0x32 0 0 511) [(1, 4), (2, 7), (3, 9)], 1, .corrected, patX (wIns 0x32 0 0 511), by unfold PatAt; decide +kernel⟩,
   ⟨wPat (wIns 0x33 0 0 511) [(1, 4), (2, 7), (3, 9)], 1, .corrected, patX (wIns 0x33 0 0 511), by unfold PatAt; decide +kernel⟩,
   ⟨{ wRun with regs := wReg Reg.patternEvSel 0 510, evPend := [(510, 3)] }, 1, 510, by decide +kernel⟩⟩

/-- States and operands that meet the hypotheses of Obligations.EventsAndInterrupts. -/
theorem witness_EventsAndInterrupts_2 :
  (∃ (s : State) (t : Fin 16) (e : Nat), (s.thr t).sel = some (e, false) ∧ thrTakes (s.thr t) = true ∧ e < 511) ∧
  (∃ (s : State) (t : Fin 16) (e : Nat), (s.thr t).sel = some (e, true) ∧ thrTakes (s.thr t) = true ∧ e < 511) ∧
  (∃ (s : State) (t : Fin 16) (f : Ecc) (y : Fields), f ≠ .uncorrectable ∧ PatAt s t .reti y ∧ (s.thr t).inFast = true ∧ (s.thr t).waits = []) ∧
  (∃ (s : State) (t : Fin 16) (f : Ecc) (y : Fields), f ≠ .uncorrectable ∧ PatAt s t .reti y ∧ (s.thr t).inFast = false ∧ (s.thr t).inNormal = true ∧ (s.thr t).waits = []) ∧
  (∃ (s : State) (t : Fin 16) (f : Ecc) (y : Fields), f ≠ .uncorrectable ∧ PatAt s t .reti y ∧ (s.thr t).inFast = false ∧ (s.thr t).inNormal = false) :=
  ⟨⟨{ wRun with evPend := [(510, 2)], regs := wReg Reg.patternEvRoute 510 0x40000002, threads := [(1, { st := .run, nie := true, pc := 64, vbase := 256, sel := some (510, false) })] }, 1, 510, by decide +kernel⟩,
   ⟨{ wRun with evPend := [(510, 2)], regs := wReg Reg.patternEvRoute 510 0x60000002, threads := [(1, { st := .wait, fie := true, pc := 64, vbase := 256, sel := some (510, true) })] }, 1, 510, by decide +kernel⟩,
   ⟨{ wPat (wIns 0x37 0 0 0) [(1, 4), (2, 7), (3, 9)] with threads := [(1, { st := .run, inFast := true, inNormal := true, fpc := 0x44 })] }, 1, .corrected, patX (wIns 0x37 0 0 0), by unfold PatAt; decide +kernel⟩,
   ⟨{ wPat (wIns 0x37 0 0 0) [(1, 4), (2, 7), (3, 9)] with threads := [(1, { st := .run, inNormal := true, npc := 0x44 })] }, 1, .corrected, patX (wIns 0x37 0 0 0), by unfold PatAt; decide +kernel⟩,
   ⟨wPat (wIns 0x37 0 0 0) [(1, 4), (2, 7), (3, 9)], 1, .corrected, patX (wIns 0x37 0 0 0), by unfold PatAt; decide +kernel⟩⟩

/-- States and operands that meet the hypotheses of Obligations.ThreadSpecialRegisters. -/
theorem witness_ThreadSpecialRegisters_1 :
  (∃ (s : State) (t : Fin 16) (f : Ecc) (y : Fields) (k : Nat), f ≠ .uncorrectable ∧ PatAt s t .mfs y ∧ y.imm.toNat = k ∧ k < 12 ∧ y.rd ≠ 0) ∧
  (∃ (s : State) (t : Fin 16) (f : Ecc) (y : Fields), f ≠ .uncorrectable ∧ PatAt s t .mfs y ∧ 12 ≤ y.imm.toNat) ∧
  (∃ (s : State) (t : Fin 16) (f : Ecc) (y : Fields), f ≠ .uncorrectable ∧ PatAt s t .mts y ∧ y.imm = 7) ∧
  (∃ (s : State) (t : Fin 16) (f : Ecc) (y : Fields), f ≠ .uncorrectable ∧ PatAt s t .mts y ∧ y.imm = 8) ∧
  (∃ (s : State) (t : Fin 16) (f : Ecc) (y : Fields), f ≠ .uncorrectable ∧ PatAt s t .mts y ∧ y.imm = 9) :=
  ⟨⟨wPat (wIns 0x38 3 0 11) [(1, 4), (2, 7), (3, 9)], 1, .corrected, patX (wIns 0x38 3 0 11), 11, by unfold PatAt; decide +kernel⟩,
   ⟨wPat (wIns 0x38 3 0 12) [(1, 4), (2, 7), (3, 9)], 1, .corrected, patX (wIns 0x38 3 0 12), by unfold PatAt; decide +kernel⟩,
   ⟨wPat (wIns 0x39 3 0 7) [(1, 4), (2, 7), (3, 9)], 1, .corrected, patX (wIns 0x39 3 0 7), by unfold PatAt; decide +kernel⟩,
   ⟨wPat (wIns 0x39 3 0 8) [(1, 4), (2, 7), (3, 9)], 1, .corrected, patX (wIns 0x39 3 0 8), by unfold PatAt; decide +kernel⟩,
   ⟨wPat (wIns 0x39 3 0 9) [(1, 4), (2, 7), (3, 9)], 1, .corrected, patX (wIns 0x39 3 0 9), by unfold PatAt; decide +kernel⟩⟩

/-- States and operands that meet the hypotheses of Obligations.ThreadSpecialRegisters. -/
theorem witness_ThreadSpecialRegisters_2 :
  (∃ (s : State) (t : Fin 16) (f : Ecc) (y : Fields), f ≠ .uncorrectable ∧ PatAt s t .mts y ∧ y.imm = 0xB ∧ (s.thr t).held = []) ∧
  (∃ (s : State) (t : Fin 16) (f : Ecc) (y : Fields), f ≠ .uncorrectable ∧ PatAt s t .mts y ∧ (¬ y.imm.toNat ∈ [7, 8, 9, 0xB])) :=
  ⟨⟨wPat (wIns 0x39 3 0 11) [(1, 4), (2, 7), (3, 9)], 1, .corrected, patX (wIns 0x39 3 0 11), by unfold PatAt; decide +kernel⟩,
   ⟨wPat (wIns 0x39 3 0 0) [(1, 4), (2, 7), (3, 9)], 1, .corrected, patX (wIns 0x39 3 0 0), by unfold PatAt; decide +kernel⟩⟩

/-- States and operands that meet the hypotheses of Obligations.HaltKickAndSetpoint. -/
theorem witness_HaltKickAndSetpoint :
  (∃ (s : State) (t : Fin 16) (f : Ecc) (y : Fields), f ≠ .uncorrectable ∧ PatAt s t .halt y) ∧
  (∃ (s : State) (t : Fin 16) (f : Ecc) (y : Fields), f ≠ .uncorrectable ∧ PatAt s t .kick y) ∧
  (∃ (s : State) (t : Fin 16) (f : Ecc) (y : Fields) (m : Nat), f ≠ .uncorrectable ∧ PatAt s t .rsp y ∧ m = (s.patReg t y.ra).toNat ∧ s.railOk m = true ∧ (s.rail m).hasPage = true ∧ s.twin.st = .solo) ∧
  (∃ (s : State) (t : Fin 16) (f : Ecc) (y : Fields) (m : Nat), f ≠ .uncorrectable ∧ PatAt s t .rsp y ∧ m = (s.patReg t y.ra).toNat ∧ (s.railOk m = false ∨ (s.rail m).hasPage = false)) ∧
  (∃ (s : State) (t : Fin 16) (f : Ecc) (y : Fields) (m : Nat), f ≠ .uncorrectable ∧ PatAt s t .rsp y ∧ m = (s.patReg t y.ra).toNat ∧ s.railOk m = true ∧ (s.rail m).hasPage = true ∧ s.twin.st = .shadow) :=
  ⟨⟨{ wPat (wIns 0x3B 0 0 0) [(1, 4), (2, 7), (3, 9)] with threads := [(1, { st := .run, buf := [{ adr := 8, len := 4, data := 0x77 }] })] }, 1, .corrected, patX (wIns 0x3B 0 0 0), by unfold PatAt; decide +kernel⟩,
   ⟨{ wPat (wIns 0x36 0 0 0) [(1, 4), (2, 7), (3, 9)] with regs := wReg Reg.patternKickEn 0 2, time := { st := 99 } }, 1, .corrected, patX (wIns 0x36 0 0 0), by unfold PatAt; decide +kernel⟩,
   ⟨{ wPat (wIns 0x3C 3 1 0x8000) [(1, 1), (2, 55)] with rails := [(1, { active := [1], st := .run })] }, 1, .corrected, patX (wIns 0x3C 3 1 0x8000), 1, by unfold PatAt; decide +kernel⟩,
   ⟨wPat (wIns 0x3C 3 1 0x8000) [(1, 64), (2, 55)], 1, .corrected, patX (wIns 0x3C 3 1 0x8000), 64, by unfold PatAt; decide +kernel⟩,
   ⟨{ wPat (wIns 0x3C 3 1 0x8000) [(1, 1), (2, 55)] with twin := { st := .shadow }, rails := [(1, { active := [1], st := .run })] }, 1, .corrected, patX (wIns 0x3C 3 1 0x8000), 1, by unfold PatAt; decide +kernel⟩⟩

/-- States and operands that meet the hypotheses of Obligations.ThreadGrants. -/
theorem witness_ThreadGrants_1 :
  (∃ (s : State) (t : Fin 16) (f : Ecc) (y : Fields) (a : Nat) (g : Nat) (ecc : Ecc), f ≠ .uncorrectable ∧ ecc ≠ .uncorrectable ∧ PatAt s t .grant y ∧ a = (s.patReg t y.ra + y.imm).toNat ∧ a % 32 = 0 ∧ a < 0x3BE00 ∧ s.requestBad (((s.fetched f).drainAll t).ledgerBytes a 32) = false ∧ (s.twin.st = .solo ∨ s.twin.st = .active) ∧ s.patTag t = some g) ∧
  (∃ (s : State) (t : Fin 16) (f : Ecc) (y : Fields) (a : Nat) (ecc : Ecc), f ≠ .uncorrectable ∧ PatAt s t .grant y ∧ a = (s.patReg t y.ra + y.imm).toNat ∧ (a % 32 ≠ 0 ∨ 0x3BE00 ≤ a)) ∧
  (∃ (s : State) (t : Fin 16) (f : Ecc) (y : Fields) (a : Nat) (ecc : Ecc), f ≠ .uncorrectable ∧ ecc ≠ .uncorrectable ∧ PatAt s t .grant y ∧ a = (s.patReg t y.ra + y.imm).toNat ∧ a % 32 = 0 ∧ a < 0x3BE00 ∧ s.requestBad (((s.fetched f).drainAll t).ledgerBytes a 32) = false ∧ (s.twin.st = .solo ∨ s.twin.st = .active) ∧ s.patTag t = none) ∧
  (∃ (s : State) (t : Fin 16) (f : Ecc) (y : Fields) (a : Nat) (ecc : Ecc), f ≠ .uncorrectable ∧ ecc ≠ .uncorrectable ∧ PatAt s t .grant y ∧ a = (s.patReg t y.ra + y.imm).toNat ∧ a % 32 = 0 ∧ a < 0x3BE00 ∧ s.requestBad (((s.fetched f).drainAll t).ledgerBytes a 32) = false ∧ s.twin.st = .shadow) ∧
  (∃ (s : State) (t : Fin 16) (f : Ecc) (y : Fields) (k : Grant), f ≠ .uncorrectable ∧ PatAt s t .grel y ∧ (s.twin.st = .solo ∨ s.twin.st = .active) ∧ k ∈ s.plan.grants ∧ k.tag = (s.patReg t y.ra).toNat ∧ k.thread = some t.val ∧ k.ended = false) :=
  ⟨⟨{ wPat (wIns 0x34 3 1 0) [(1, 0x3BDE0)] with ledger := [(0x3BDE4, 0xE8), (0x3BDE5, 3)] }, 1, .corrected, patX (wIns 0x34 3 1 0), 0x3BDE0, 3856, .corrected, by unfold PatAt; decide +kernel⟩,
   ⟨wPat (wIns 0x34 3 1 0) [(1, 0x3BE00)], 1, .corrected, patX (wIns 0x34 3 1 0), 0x3BE00, .corrected, by unfold PatAt; decide +kernel⟩,
   ⟨{ wPat (wIns 0x34 3 1 0) [(1, 0x20)] with ledger := [(36, 0xE8), (37, 3)], plan := { reqs := (List.range 16).map fun i => { wGrant with tag := 3856 + i } } }, 1, .corrected, patX (wIns 0x34 3 1 0), 0x20, .corrected, by unfold PatAt; decide +kernel⟩,
   ⟨{ wPat (wIns 0x34 3 1 0) [(1, 0x20)] with ledger := [(36, 0xE8), (37, 3)], twin := { st := .shadow } }, 1, .corrected, patX (wIns 0x34 3 1 0), 0x20, .corrected, by unfold PatAt; decide +kernel⟩,
   ⟨{ wPat (wIns 0x35 3 1 0) [(1, 4), (2, 7), (3, 9)] with plan := { grants := [wGrant] } }, 1, .corrected, patX (wIns 0x35 3 1 0), wGrant, by unfold PatAt; decide +kernel⟩⟩

/-- States and operands that meet the hypotheses of Obligations.ThreadGrants. -/
theorem witness_ThreadGrants_2 :
  (∃ (s : State) (t : Fin 16) (f : Ecc) (y : Fields), f ≠ .uncorrectable ∧ PatAt s t .grel y ∧ (s.twin.st = .solo ∨ s.twin.st = .active) ∧ ((∀ k ∈ s.plan.grants, k.tag = (s.patReg t y.ra).toNat → k.thread = some t.val → k.ended = true))) ∧
  (∃ (s : State) (t : Fin 16) (f : Ecc) (y : Fields) (a : Nat), f ≠ .uncorrectable ∧ PatAt s t .grant y ∧ a = (s.patReg t y.ra + y.imm).toNat ∧ a % 32 = 0 ∧ a < 0x3BE00) :=
  ⟨⟨{ wPat (wIns 0x35 3 1 0) [(1, 5)] with plan := { grants := [{ wGrant with tag := 5, ended := true }] } }, 1, .corrected, patX (wIns 0x35 3 1 0), by unfold PatAt; decide +kernel⟩,
   ⟨wPat (wIns 0x34 3 1 0) [(1, 0x3BDE0)], 1, .corrected, patX (wIns 0x34 3 1 0), 0x3BDE0, by unfold PatAt; decide +kernel⟩⟩

/-- States and operands that meet the hypotheses of Obligations.LeadBoundaryAndPublication. -/
theorem witness_LeadBoundaryAndPublication :
  (∃ (s : State) (m : Fin 64) (x : LeadMeas) (e : Nat) (b : DWord), s.leadDue m = some e ∧ b = BitVec.ofNat 64 (e + s.leadOff m)) ∧
  (∃ (s : State) (m : Fin 64) (x : LeadMeas), s.leadDue m = none) ∧
  (∃ (s : State) (m : Fin 64), s.pubDue m = true ∧ (s.rail m).leadEnded = true ∧ ((s.rail m).endAt - (s.rail m).leadAt).toNat ≤ rpPubDelay (s.rail m).active ∧ ((s.rail m).pubStage.map (·.1)).Nodup ∧ ((∀ e ∈ (s.rail m).pubStage, 0xC0 ≤ e.1 ∧ e.1 < 0x100))) ∧
  (∃ (s : State) (m : Fin 64), s.pubDue m = true ∧ ((s.rail m).leadEnded = false ∨ rpPubDelay (s.rail m).active < ((s.rail m).endAt - (s.rail m).leadAt).toNat)) ∧
  (∃ (s : State) (m : Fin 64), s.pubDue m = false) :=
  ⟨⟨wAt 64000 (wRail { active := wPg 64 [(1, 1), (0x19, 1), (0x24, 3)], st := .run, envCount := 2, tAct := 32000, edge := some 32000 }), 63, {}, 64000, 64000, by decide +kernel⟩,
   ⟨wAt 63999 (wRail { active := wPg 64 [(1, 1)], st := .run, tAct := 32000, edge := some 32000 }), 63, {}, by decide +kernel⟩,
   ⟨wRail { active := wPg 64 [(1, 1)], st := .run, leadEnded := true, pubDone := false, pubStage := [(0xC0, 1), (0xFF, 2)] }, 63, by decide +kernel⟩,
   ⟨wRail { active := wPg 64 [(1, 1)], st := .run, pubDone := false, pubStage := [(0xC0, 1)] }, 63, by decide +kernel⟩,
   ⟨wRail { active := wPg 64 [(1, 1), (0x10, 9)], st := .run, leadEnded := true, pubDone := false }, 63, by decide +kernel⟩⟩

/-- States and operands that meet the hypotheses of Obligations.PrearmTripAndBurst. -/
theorem witness_PrearmTripAndBurst_1 :
  (∃ (s : State) (m : Fin 64), (s.rail m).st = .armed ∧ s.grantOn m = false ∧ rpPrearmHold (s.rail m).active ≤ ((s.rail m).leadAt - (s.rail m).provAt).toNat) ∧
  (∃ (s : State) (m : Fin 64), ((s.rail m).st ≠ .armed ∨ s.grantOn m = true ∨ ((s.rail m).leadAt - (s.rail m).provAt).toNat < rpPrearmHold (s.rail m).active)) ∧
  (∃ (s : State) (m : Fin 64), (s.rail m).hasPage = true ∧ (s.rail m).st ≠ .off ∧ (s.rail m).st ≠ .envTrip ∧ rpDwell (s.rail m).active ≤ (s.rail m).envCount) ∧
  (∃ (s : State) (m : Fin 64), (s.rail m).burst = true ∧ rpK16 (s.rail m).burstPage 0x114 * (s.rail m).tAct / 65536 ≤ (s.time.st - (s.rail m).burstAt).toNat) ∧
  (∃ (s : State) (m : Fin 64), ((s.rail m).burst = false ∨ (s.time.st - (s.rail m).burstAt).toNat < rpK16 (s.rail m).burstPage 0x114 * (s.rail m).tAct / 65536)) :=
  ⟨⟨wAt 16000001 (wRail { active := wPg 64 [(1, 1), (0x28, 1)], st := .armed, prov := true, leadAt := 16000000 }), 63, by decide +kernel⟩,
   ⟨wRail { active := wPg 64 [(1, 1), (0x28, 1)], st := .armed, prov := true, leadAt := 15999999 }, 63, by decide +kernel⟩,
   ⟨{ wRail { active := wPg 64 [(1, 1), (0x24, 3)], st := .run, envCount := 3 } with plan := { grants := [{ wGrant with rail := 63, started := true }] } }, 63, by decide +kernel⟩,
   ⟨wAt 16000 (wRail { active := wPg 300 [(1, 1), (0x115, 0x80)], burstPage := wPg 300 [(0x115, 0x80)], st := .run, burst := true, tAct := 32000 }), 63, by decide +kernel⟩,
   ⟨wAt 15999 (wRail { active := wPg 300 [(1, 1)], burstPage := wPg 300 [(0x115, 0x80)], st := .run, burst := true, tAct := 32000 }), 63, by decide +kernel⟩⟩

/-- States and operands that meet the hypotheses of Obligations.PrearmTripAndBurst. -/
theorem witness_PrearmTripAndBurst_2 :
  (∃ (s : State) (m : Fin 64), (s.rail m).holdoff = true ∧ rpK16 (s.rail m).active 0x112 ≤ (s.rail m).holdN) ∧
  (∃ (s : State) (m : Fin 64), (s.rail m).holdN < rpK16 (s.rail m).active 0x112) :=
  ⟨⟨wRail { active := wPg 300 [(1, 1), (0x112, 4)], st := .run, holdoff := true, holdN := 4 }, 63, by decide +kernel⟩,
   ⟨wRail { active := wPg 300 [(1, 1), (0x112, 4)], st := .run, holdoff := true, holdN := 3 }, 63, by decide +kernel⟩⟩

/-- States and operands that meet the hypotheses of Obligations.SyncTaperAndStaleLimits. -/
theorem witness_SyncTaperAndStaleLimits_1 :
  (∃ (s : State) (e : DWord), s.sync.lastEdge = some e ∧ 0 < (s.time.st - e).toNat ∧ (s.time.st - e).toNat < 2 ^ 24) ∧
  (∃ (s : State) (m : Fin 64), s.railsWf ∧ (s.rail m).acquired = true ∧ s.edgeMissed (s.rail m) = true ∧ 2 ≤ (s.rail m).syncMiss) ∧
  (∃ (s : State) (m : Fin 64), s.railsWf ∧ (s.rail m).acquired = true ∧ s.edgeMissed (s.rail m) = true ∧ (s.rail m).syncMiss < 2) ∧
  (∃ (s : State) (m : Fin 64), (s.rail m).glide = true ∧ (s.rail m).tAct = rpPeriod (s.rail m).active) ∧
  (∃ (s : State) (m : Fin 64), (s.rail m).tAct ≠ rpPeriod (s.rail m).active) :=
  ⟨⟨{ wAt 32001 (wRail { active := wPg 300 [(1, 1), (3, 1), (9, 0x7D)], st := .run, tAct := 32000, syncN := 2 }) with sync := { lastEdge := some 1, period := 32000 } }, 1, by decide +kernel⟩,
   ⟨{ wAt 200000 (wRail { active := wPg 300 [(1, 1), (3, 1), (9, 0x7D)], st := .run, tAct := 31000, syncN := 3, synced := true, syncMiss := 2 }) with sync := { lastEdge := some 1, period := 32000 } }, 63, by unfold State.railsWf; decide +kernel⟩,
   ⟨{ wAt 200000 (wRail { active := wPg 300 [(1, 1), (3, 1), (9, 0x7D)], st := .run, tAct := 31000, syncN := 3, synced := true, syncMiss := 1 }) with sync := { lastEdge := some 1, period := 32000 } }, 63, by unfold State.railsWf; decide +kernel⟩,
   ⟨wRail { active := wPg 300 [(1, 1), (3, 1), (9, 0x7D)], st := .run, tAct := 32000, glide := true }, 63, by decide +kernel⟩,
   ⟨wRail { active := wPg 300 [(1, 1), (3, 1), (9, 0x7D)], st := .run, tAct := 31999, glide := true }, 63, by decide +kernel⟩⟩

/-- States and operands that meet the hypotheses of Obligations.SyncTaperAndStaleLimits. -/
theorem witness_SyncTaperAndStaleLimits_2 :
  (∃ (s : State) (m : Fin 64), (s.rail m).isKind 3 = true ∧ (s.rail m).st = .run ∧ (s.rail m).sub = 2 ∧ ((∃ a, (s.rail m).taperAt = some a ∧ 16000000000 * leAt (s.rail m).active 0x10E 2 ≤ (s.time.st - a).toNat))) ∧
  (∃ (s : State) (m : Fin 64), (s.rail m).isKind 3 = true ∧ rpTtl (s.rail m).active ≠ 0 ∧ (s.rail m).limitsStale = false ∧ 16000000000 * rpTtl (s.rail m).active ≤ (s.time.st - (s.rail m).renewAt).toNat) :=
  ⟨⟨wAt 16000000000 (wRail { active := wPg 300 [(1, 3), (0x10E, 1)], st := .run, sub := 2, taperAt := some 0 }), 63, by exact ⟨by decide +kernel, by decide +kernel, by decide +kernel, 0, by decide +kernel⟩⟩,
   ⟨wAt 16000000000 (wRail { active := wPg 300 [(1, 3), (0x2E, 1)], st := .run, sub := 5 }), 63, by decide +kernel⟩⟩

/-- States and operands that meet the hypotheses of Obligations.SourcesAndHandover. -/
theorem witness_SourcesAndHandover_1 :
  (∃ (s : State) (m : Fin 64), (s.rail m).isKind 0 = true ∧ (s.rail m).sub = 1 ∧ (s.rail m).inWindow = true ∧ rpQualTime (s.rail m).active ≤ (s.time.st - (s.rail m).qualAt).toNat) ∧
  (∃ (s : State) (m : Fin 64), (s.rail m).isKind 0 = true ∧ (s.rail m).st = .run ∧ (s.rail m).sub = 3 ∧ (s.rail m).lost = false ∧ (s.ho.on = true ∨ m.val ∉ s.ho.lost)) ∧
  (∃ (s : State) (m : Fin 64) (k : Nat), (s.rail m).isKind 0 = true ∧ (s.rail m).st = .run ∧ (s.rail m).sub = 3 ∧ (s.rail m).lost = false ∧ s.ho.on = false ∧ m.val ∈ s.ho.lost ∧ s.railsWf ∧ k ∈ s.takers.map (·.1)) ∧
  (∃ (s : State) (m : Fin 64) (byTrip : Bool), (s.rail m).isKind 0 = true ∧ (s.rail m).st = .run ∧ (s.rail m).sub = 3 ∧ (s.rail m).lost = false ∧ s.lossHolds m byTrip = true) ∧
  (∃ (s : State) (m : Fin 64) (byTrip : Bool) (k : Nat), (s.rail m).isKind 0 = true ∧ (s.rail m).st = .run ∧ (s.rail m).sub = 4 ∧ (s.rail m).lost = false ∧ s.lossHolds m byTrip = true ∧ k ≠ m.val ∧ s.railsWf ∧ (s.rail k).isKind 3 = true ∧ s.mayTake k (s.rail k) = true ∧ ((s.rail k).st = .standby ∨ (s.rail k).st = .armed)) :=
  ⟨⟨wAt 160000000000 (wRail { active := wPg 300 [(1, 0)], st := .run, sub := 1, inWindow := true }), 63, by decide +kernel⟩,
   ⟨{ wRail { active := [0, 0], st := .run, sub := 3 } with ho := { on := true, lost := [63] } }, 63, by decide +kernel⟩,
   ⟨{ wRun with rails := [(2, { active := wPg 300 [(1, 3)], st := .run, sub := 5 }), (63, { active := [0, 0], st := .run, sub := 3 })], ho := { lost := [63] } }, 63, 2, by unfold State.railsWf; decide +kernel⟩,
   ⟨{ wRail { active := wPg 300 [(1, 0), (0x10B, 0x87)], st := .run, sub := 3 } with plan := { level := 0x80 } }, 63, true, by decide +kernel⟩,
   ⟨{ wAt 64000 { wRun with rails := [(2, { active := wPg 300 [(1, 3), (3, 8)], st := .standby }), (63, { active := [0, 0], st := .run, sub := 4 })] } with railMem := [(4096 * 2 + 0x2D, 1)] }, 63, false, 2, by unfold State.railsWf; decide +kernel⟩⟩

/-- States and operands that meet the hypotheses of Obligations.SourcesAndHandover. -/
theorem witness_SourcesAndHandover_2 :
  (∃ (s : State), s.ho.on = true ∧ 4 ≤ s.ho.count) ∧
  (∃ (s : State), (s.ho.on = false ∨ s.ho.count < 4)) ∧
  (∃ (s : State) (m : Fin 64) (byTrip : Bool), s.lossHolds m byTrip = false) ∧
  (∃ (s : State), s.ho.on = true ∧ s.ho.late = false ∧ 16000 * s.plan.slotLen ≤ (s.time.st - s.ho.since).toNat) ∧
  (∃ (s : State), (s.time.st - s.ho.since).toNat < 16000 * s.plan.slotLen) :=
  ⟨⟨{ wRun with ho := { on := true, count := 4, lost := [63] } }, by decide +kernel⟩,
   ⟨{ wRun with ho := { on := true, count := 3, lost := [63] } }, by decide +kernel⟩,
   ⟨wRail { active := [0, 0], st := .run, sub := 3, inWindow := true }, 63, false, by decide +kernel⟩,
   ⟨{ wAt 16000000 wRun with plan := { slotLen := 1000 }, ho := { on := true } }, by decide +kernel⟩,
   ⟨{ wAt 15999999 wRun with plan := { slotLen := 1000 }, ho := { on := true } }, by decide +kernel⟩⟩

/-- States and operands that meet the hypotheses of Obligations.EngineStallAndColdTakeover. -/
theorem witness_EngineStallAndColdTakeover :
  (∃ (s : State) (n : Fin 1024), (s.lane n).st = .run ∧ (s.cell n).relief = .own ∧ (s.eng n).st ≠ .stalled ∧ (2 ≤ (s.eng n).missEnd ∨ 128000 ≤ (s.time.st - (s.lane n).hbAt).toNat)) ∧
  (∃ (s : State) (n : Fin 1024), (s.eng (s.serving n)).missEnd < 2 ∧ (s.time.st - (s.lane n).hbAt).toNat < 128000) ∧
  (∃ (s : State) (n : Fin 1024), (s.eng n).st = .stalled ∧ cpFlag (s.cell n).active 4 = true ∧ (s.eng (1024 + n / 16)).carries = none ∧ (s.cell n).relief = .own ∧ s.enclosed n = false ∧ (s.eng n).stallAt.toNat + 32000 ≤ s.cellEdge n s.time.st.toNat) ∧
  (∃ (s : State) (n : Fin 1024), s.cellEdge n s.time.st.toNat < (s.eng n).stallAt.toNat + 32000) :=
  ⟨⟨{ wPp 0 [] with engines := [(0, { st := .run, missEnd := 2, image := [0] })] }, 0, by decide +kernel⟩,
   ⟨wPp 0 [], 0, by decide +kernel⟩,
   ⟨{ wAt 96000 wRun with rails := [(0, { active := wPg 300 [], tAct := 32000, edge := some 96000 })], cells := [(1023, { active := [0, 0, 0, 16] })], engines := [(1023, { st := .stalled, stallAt := 64000, image := [7] })], lanes := [(1023, { st := .run })], drawerMem := [(4096 * 63 + 128 * 15 + 64, 9)] }, 1023, by decide +kernel⟩,
   ⟨{ wAt 95999 wRun with rails := [(0, { active := wPg 300 [], tAct := 32000, edge := some 64000 })], cells := [(1023, { active := [0, 0, 0, 16] })], engines := [(1023, { st := .stalled, stallAt := 64000, image := [7] })] }, 1023, by decide +kernel⟩⟩

/-- States and operands that meet the hypotheses of Obligations.ReliefAndHandback. -/
theorem witness_ReliefAndHandback_1 :
  (∃ (s : State) (o : Nat) (op : Op) (n : Nat), Starts s o 0x82 op ∧ n = op.u16 8 ∧ (s.lane n).st ≠ .run) ∧
  (∃ (s : State) (o : Nat) (op : Op) (n : Nat), Starts s o 0x82 op ∧ n = op.u16 8 ∧ (s.lane n).st = .run ∧ (s.enclosed n = true ∨ (s.cell n).relief = .relieved)) ∧
  (∃ (s : State) (o : Nat) (op : Op) (n : Nat), Starts s o 0x82 op ∧ n = op.u16 8 ∧ (s.lane n).st = .run ∧ s.enclosed n = false ∧ (s.cell n).relief ≠ .relieved ∧ (s.eng (1024 + n / 16)).carries ≠ none) ∧
  (∃ (s : State) (o : Nat) (op : Op) (n : Nat), Starts s o 0x82 op ∧ n = op.u16 8 ∧ n < 1024 ∧ (s.lane n).st = .run ∧ s.enclosed n = false ∧ (s.cell n).relief = .own ∧ (s.eng (1024 + n / 16)).carries = none ∧ op.u64 0x10 = 0) ∧
  (∃ (s : State) (o : Nat) (op : Op) (n : Nat), Starts s o 0x82 op ∧ n = op.u16 8 ∧ (s.lane n).st = .run ∧ s.enclosed n = false ∧ (s.cell n).relief = .own ∧ (s.eng (1024 + n / 16)).carries = none ∧ op.u64 0x10 ≠ 0) :=
  ⟨⟨wWith (wOp 0x82 [0xFF, 3]), 5, wOp 0x82 [0xFF, 3], 1023, by unfold Starts; decide +kernel⟩,
   ⟨{ wWith (wOp 0x82 [0xFF, 3]) with lanes := [(1023, { st := .run })], pwr := { wRun.pwr with selv := [{ kind := 0, index := 1023, force := false, op := 9, closed := true }] } }, 5, wOp 0x82 [0xFF, 3], 1023, by unfold Starts; decide +kernel⟩,
   ⟨{ wWith (wOp 0x82 [0xFF, 3]) with lanes := [(1023, { st := .run })], engines := [(1087, { st := .run, carries := some 1008 })] }, 5, wOp 0x82 [0xFF, 3], 1023, by unfold Starts; decide +kernel⟩,
   ⟨{ wWith (wOp 0x82 [0xFF, 3]) with lanes := [(1023, { st := .run })], engines := [(1023, { st := .run, image := [7] })] }, 5, wOp 0x82 [0xFF, 3], 1023, by unfold Starts; decide +kernel⟩,
   ⟨{ wWith (wOp 0x82 [0xFF, 3, 0, 0, 0, 0, 0, 0, 1]) with lanes := [(1023, { st := .run })] }, 5, wOp 0x82 [0xFF, 3, 0, 0, 0, 0, 0, 0, 1], 1023, by unfold Starts; decide +kernel⟩⟩

/-- States and operands that meet the hypotheses of Obligations.ReliefAndHandback. -/
theorem witness_ReliefAndHandback_2 :
  (∃ (s : State) (o : Nat) (op : Op) (n : Nat), Starts s o 0x83 op ∧ n = op.u16 8 ∧ n < 1024 ∧ s.enclosed n = false ∧ ((s.cell n).relief = .relieved ∨ (s.cell n).relief = .cold)) ∧
  (∃ (s : State) (k : Fin 64) (n : Nat) (o : Nat) (back : Bool) (mis : Bool), (s.eng (1024 + k.val)).carries = some n ∧ n / 16 = k.val ∧ n < 1024 ∧ (s.cell n).relief = .starting o back 2 mis ∧ (s.eng (if back then 1024 + k.val else n)).finished = true ∧ (s.eng (if back then 1024 + k.val else n)).running = false) ∧
  (∃ (s : State) (k : Fin 64) (n : Nat) (o : Nat) (op : Op) (back : Bool) (mis : Bool), (s.eng (1024 + k.val)).carries = some n ∧ n / 16 = k.val ∧ n < 1024 ∧ (s.cell n).relief = .starting o back 5 mis ∧ GoesOn s o (if back then 0x83 else 0x82) op) ∧
  (∃ (s : State) (o : Nat) (op : Op) (n : Nat) (back : Bool) (mis : Bool) (step : _), GoesOn s o (if back then 0x83 else 0x82) op ∧ n = op.u16 8 ∧ (s.cell n).relief = .starting o back step mis ∧ s.reached (op.since + 160000000) = true) ∧
  (∃ (s : State) (o : Nat) (op : Op), s.findOp o = some op ∧ s.reached (op.since + 160000000) = false) :=
  ⟨⟨{ wWith (wOp 0x83 [0xFF, 3]) with cells := [(1023, { relief := .cold })], engines := [(1023, { st := .stalled, image := [7], regs := [(1, 1)] }), (1087, { carries := some 1023 })] }, 5, wOp 0x83 [0xFF, 3], 1023, by unfold Starts; decide +kernel⟩,
   ⟨{ wRun with cells := [(1023, { relief := .starting 5 false 2 false })], engines := [(1023, { finished := true, ended := true, regs := [(1, 7)], loc := [(2, 3)] }), (1087, { carries := some 1023 })] }, 63, 1023, 5, false, false, by decide +kernel⟩,
   ⟨{ wWith (wGo 0x82 [0xFF, 3]) with cells := [(1023, { relief := .starting 5 false 5 true })], engines := [(1023, { st := .run }), (1087, { st := .run, carries := some 1023 })] }, 63, 1023, 5, wGo 0x82 [0xFF, 3], false, true, by unfold GoesOn; decide +kernel⟩,
   ⟨{ wAt 160000000 (wWith (wGo 0x83 [0xFF, 3])) with cells := [(1023, { relief := .starting 5 true 4 true })], engines := [(1023, { st := .run }), (1087, { st := .run, carries := some 1023 })] }, 5, wGo 0x83 [0xFF, 3], 1023, true, true, 4, by unfold GoesOn; decide +kernel⟩,
   ⟨wAt 159999999 (wWith (wGo 0x83 [0xFF, 3])), 5, wGo 0x83 [0xFF, 3], by decide +kernel⟩⟩

/-- States and operands that meet the hypotheses of Obligations.EngineBoundaryAndGuard. -/
theorem witness_EngineBoundaryAndGuard_1 :
  (∃ (s : State) (n : Fin 1024), (s.lane n).st = .run ∧ s.dutyOver n = true ∧ s.guards n ≠ []) ∧
  (∃ (s : State) (n : Fin 1024), s.dutyOver n = false) ∧
  (∃ (s : State) (n : Fin 1024) (a : Nat), (s.lane n).highSince s.time.st.toNat = some a ∧ (s.lane n).firstOff true s.time.st.toNat = none) ∧
  (∃ (s : State) (v : Word), s.ringsUp = true ∧ (s.guardOtp = true ∨ s.nvm.sealedNow = true ∨ s.anyRun = true)) ∧
  (∃ (s : State) (v : Word), s.ringsUp = true ∧ s.guardOtp = false ∧ s.nvm.sealedNow = false ∧ s.anyRun = false) :=
  ⟨⟨{ wAt 32000 (wPp 0 []) with lanes := [(0, { st := .run, cmdHi := true })], guardSram := [] }, 0, by decide +kernel⟩,
   ⟨wAt 32000 (wPp 0 []), 0, by decide +kernel⟩,
   ⟨{ wAt 32000 (wPp 0 []) with lanes := [(0, { st := .run, cmdHi := true })] }, 0, 0, by decide +kernel⟩,
   ⟨{ wRun with guardOtp := true }, 1, by decide +kernel⟩,
   ⟨{ wRun with regs := wReg Reg.engineGuardWin 0 0 }, 0x01020304, by decide +kernel⟩⟩

/-- States and operands that meet the hypotheses of Obligations.EngineBoundaryAndGuard. -/
theorem witness_EngineBoundaryAndGuard_2 :
  (∃ (s : State) (v : Word), s.ringsUp = false) ∧
  (∃ (s : State) (n : Fin 1024) (h : HealthEst) (x : BitVec 16), (s.cell n).active ≠ [] ∧ cpFlag (s.cell n).active 3 = true ∧ s.cellStopped n = false ∧ (s.cell n).health.temp = some x ∧ cpHealthUnits (s.cell n).active ≤ (s.time.st - (s.cell n).health.since).toNat) ∧
  (∃ (s : State) (n : Fin 1024) (h : HealthEst), (s.time.st - (s.cell n).health.since).toNat < cpHealthUnits (s.cell n).active) ∧
  (∃ (s : State) (n : Fin 1024) (f : Ecc) (b : DWord), s.cellDue n = some b ∧ f ≠ .uncorrectable ∧ s.senseOf n = none ∧ (s.cell n).relief = .own ∧ (s.eng (1024 + n / 16)).carries ≠ some n.val ∧ (s.eng n).running = false ∧ (s.cell n).swapOp = none) ∧
  (∃ (s : State) (n : Fin 1024) (b : DWord), s.cellDue n = some b) :=
  ⟨⟨{ wRun with host := {} }, 1, by decide +kernel⟩,
   ⟨{ wAt 16000000000 wRun with cells := [(1023, { active := [0, 0, 0, 8], health := { temp := some 300 } })] }, 1023, {}, 300, by decide +kernel⟩,
   ⟨{ wAt 15999999999 wRun with cells := [(1023, { active := [0, 0, 0, 8], health := { temp := some 300 } })] }, 1023, {}, by decide +kernel⟩,
   ⟨{ wAt 64000 (wPp 0 []) with lanes := [(0, { st := .run, hits := 3, intervN := 2 })], engines := [(0, { st := .run })] }, 0, .ok, 64000, by decide +kernel⟩,
   ⟨wAt 64000 (wPp 0 []), 0, 64000, by decide +kernel⟩⟩

/-- States and operands that meet the hypotheses of Obligations.EngineBoundaryAndGuard. -/
theorem witness_EngineBoundaryAndGuard_3 :
  (∃ (s : State) (n : Fin 1024) (f : Ecc), s.cellDue n = none) :=
  ⟨wAt 31999 (wPp 0 []), 0, .corrected, by decide +kernel⟩

/-- States and operands that meet the hypotheses of Obligations.TimeBaseDiscipline. -/
theorem witness_TimeBaseDiscipline_1 :
  (∃ (s : State) (f : Int) (e : Int) (p : DWord), s.steer = 1 ∧ s.controls = true ∧ s.time.firstEdge = false ∧ s.time.lastEdge = some p ∧ 15995200000 ≤ (s.time.st - p).toNat ∧ (s.time.st - p).toNat ≤ 16004800000 ∧ wbit (s.reg Reg.timeDiscCtl) 30 = false ∧ e = ppsError s.time.st (fld (s.reg Reg.timePpsOfs) 29 0)) ∧
  (∃ (s : State) (f : Int) (e : Int) (p : DWord), s.steer = 1 ∧ s.controls = true ∧ s.time.lastEdge = some p ∧ 15995200000 ≤ (s.time.st - p).toNat ∧ (s.time.st - p).toNat ≤ 16004800000 ∧ wbit (s.reg Reg.timeDiscCtl) 30 = true ∧ s.time.disc = .acquiring ∧ s.time.autoDone = false ∧ e = ppsError s.time.st (fld (s.reg Reg.timePpsOfs) 29 0) ∧ 16000 < e.natAbs) ∧
  (∃ (s : State) (f : Int) (p : DWord), s.steer = 1 ∧ s.controls = true ∧ s.time.firstEdge = false ∧ s.time.lastEdge = some p ∧ ((s.time.st - p).toNat < 15995200000 ∨ 16004800000 < (s.time.st - p).toNat)) ∧
  (∃ (s : State) (f : Int), (s.steer ≠ 1 ∨ s.controls = false)) ∧
  (∃ (s : State), s.controls = true ∧ 48000000000 ≤ (s.time.st - s.time.goodAt).toNat ∧ (s.time.disc = .acquiring ∨ s.time.disc = .tracking)) :=
  ⟨⟨{ wRun with regs := wReg Reg.timeDiscCtl 0 0x10000000, time := { st := 15995200000, firstEdge := false, lastEdge := some 0, disc := .acquiring } }, 0, -4800000, 0, by decide +kernel⟩,
   ⟨{ wRun with regs := wReg Reg.timeDiscCtl 0 0x50000000, time := { st := 16000020000, firstEdge := false, lastEdge := some 20000, disc := .acquiring } }, 0, 20000, 20000, by decide +kernel⟩,
   ⟨{ wRun with regs := wReg Reg.timeDiscCtl 0 0x10000000, time := { st := 16004800001, firstEdge := false, lastEdge := some 0, disc := .tracking } }, 0, 0, by decide +kernel⟩,
   ⟨{ wIn .sleep with regs := wReg Reg.timeDiscCtl 0 0x10000000 }, 0, by decide +kernel⟩,
   ⟨{ wRun with time := { st := 48000000009, goodAt := 9, disc := .tracking } }, by decide +kernel⟩⟩

/-- States and operands that meet the hypotheses of Obligations.TimeBaseDiscipline. -/
theorem witness_TimeBaseDiscipline_2 :
  (∃ (s : State), (s.controls = false ∨ (s.time.st - s.time.goodAt).toNat < 48000000000)) ∧
  (∃ (s : State) (v : Word), s.ringsUp = true ∧ wbit v 31 = true ∧ fld v 29 28 = fld (s.reg Reg.timeDiscCtl) 29 28) ∧
  (∃ (s : State) (v : Word), s.ringsUp = true ∧ wbit v 31 = false ∧ fld v 29 28 ≠ fld (s.reg Reg.timeDiscCtl) 29 28) ∧
  (∃ (s : State), s.ringsUp = true) ∧
  (∃ (s : State) (v : Word), s.ringsUp = false) :=
  ⟨⟨{ wRun with time := { st := 48000000008, goodAt := 9, disc := .tracking } }, by decide +kernel⟩,
   ⟨{ wRun with regs := wReg Reg.timeDiscCtl 0 0x10000000 }, 0x90000000, by decide +kernel⟩,
   ⟨{ wRun with regs := wReg Reg.timeDiscCtl 0 0x10000000 }, 0x20000000, by decide +kernel⟩,
   ⟨wRun, by decide +kernel⟩,
   ⟨{ wRun with host := {} }, 0x90000000, by decide +kernel⟩⟩

/-- States and operands that meet the hypotheses of Obligations.TimeBaseDiscipline. -/
theorem witness_TimeBaseDiscipline_3 :
  (∃ (s : State) (v : Word), s.ringsUp = false) ∧
  (∃ (s : State) (v : Word), s.ringsUp = false) :=
  ⟨⟨{ wRun with host := {} }, 0x90000000, by decide +kernel⟩,
   ⟨{ wRun with host := {} }, 0x90000000, by decide +kernel⟩⟩

/-- States and operands that meet the hypotheses of Obligations.AngleSources. -/
theorem witness_AngleSources_1 :
  (∃ (s : State) (k : Fin 16) (cfg : Word) (cpr : Nat) (up : Bool), s.controls = true ∧ cfg = s.reg Reg.timeEncCfg k ∧ cpr = fld cfg 23 0 ∧ encType cfg = 1 ∧ 4 ≤ cpr ∧ (s.enc k).st ≠ .off) ∧
  (∃ (s : State) (k : Fin 16), s.controls = true ∧ encType (s.reg Reg.timeEncCfg k) = 1 ∧ 4 ≤ fld (s.reg Reg.timeEncCfg k) 23 0 ∧ (s.enc k).st ≠ .off) ∧
  (∃ (s : State) (k : Fin 16), s.controls = true ∧ encType (s.reg Reg.timeEncCfg k) = 1 ∧ wbit (s.reg Reg.timeEncCfg k) 28 = true ∧ 4 ≤ fld (s.reg Reg.timeEncCfg k) 23 0 ∧ (s.enc k).st ≠ .off ∧ ((s.enc k).zSeen = false ∨ (s.enc k).st = .fault)) ∧
  (∃ (s : State) (k : Fin 16), s.controls = true ∧ encType (s.reg Reg.timeEncCfg k) = 1 ∧ wbit (s.reg Reg.timeEncCfg k) 28 = true ∧ 4 ≤ fld (s.reg Reg.timeEncCfg k) 23 0 ∧ (s.enc k).st ≠ .off ∧ (s.enc k).zSeen = true ∧ (s.enc k).st ≠ .fault ∧ 2 < (s.enc k).count ∧ (s.enc k).count + 2 < fld (s.reg Reg.timeEncCfg k) 23 0) ∧
  (∃ (s : State) (k : Fin 16) (b : Bool) (raw : DWord) (w : Word) (nst : Nat) (nmt : Nat) (nlow : Nat), s.controls = true ∧ w = s.reg Reg.timeEncSsi k ∧ encType (s.reg Reg.timeEncCfg k) = 2 ∧ (s.enc k).st ≠ .off ∧ ((∀ a, (s.enc k).frameAt = some a → max 4 (fld w 6 0) ≤ s.ticksSince a)) ∧ ssiBad w = false ∧ nst = (if fld w 22 18 = 0 then 32 else fld w 22 18) ∧ nmt = fld w 17 13 ∧ nlow = b2n (wbit w 11) + b2n (wbit w 10)) :=
  ⟨⟨{ wRun with regs := wReg Reg.timeEncCfg 15 0x40000004, encs := [(15, { st := .relative, count := 3 })] }, 15, 0x40000004, 4, true, by decide +kernel⟩,
   ⟨{ wRun with regs := wReg Reg.timeEncCfg 15 0x40000004, encs := [(15, { st := .relative, count := 3 })] }, 15, by decide +kernel⟩,
   ⟨{ wRun with regs := wReg Reg.timeEncCfg 15 0x50000004, encs := [(15, { st := .relative, count := 3 })] }, 15, by decide +kernel⟩,
   ⟨{ wRun with regs := wReg Reg.timeEncCfg 15 0x500003E8, encs := [(15, { st := .valid, zSeen := true, count := 3 })] }, 15, by decide +kernel⟩,
   ⟨{ wRun with regs := wReg Reg.timeEncCfg 15 0x80000004, encs := [(15, { st := .relative, goodFrames := 15 })] }, 15, true, 5, 0, 32, 0, 0, by exact ⟨by decide +kernel, by decide +kernel, by decide +kernel, by decide +kernel, (fun a h => nomatch (show (none : Option DWord) = some a from h)), by decide +kernel, by decide +kernel, by decide +kernel, by decide +kernel⟩⟩⟩

/-- States and operands that meet the hypotheses of Obligations.AngleSources. -/
theorem witness_AngleSources_2 :
  (∃ (s : State), s.controls = true ∧ tabWf (fun _ => ({} : Enc)) s.encs = true) ∧
  (∃ (s : State) (v : Word), s.ringsUp = true) ∧
  (∃ (s : State), s.ringsUp = true) ∧
  (∃ (s : State) (v : Word), s.ringsUp = false) ∧
  (∃ (s : State) (v : Word), s.ringsUp = false) :=
  ⟨⟨{ wRun with regs := wReg Reg.timeEncCfg 15 0x50000004, encs := [(15, { st := .valid, count := 3 })] }, by decide +kernel⟩,
   ⟨wRun, 0x40000004, by decide +kernel⟩,
   ⟨wRun, by decide +kernel⟩,
   ⟨{ wRun with host := {} }, 0x40000004, by decide +kernel⟩,
   ⟨{ wRun with host := {} }, 0x40000004, by decide +kernel⟩⟩

/-- States and operands that meet the hypotheses of Obligations.AngleSources. -/
theorem witness_AngleSources_3 :
  (∃ (s : State) (k : Fin 16) (mv : QuadMove) (b : Bool) (raw : DWord), s.controls = false) ∧
  (∃ (s : State) (k : Fin 16) (mv : QuadMove) (b : Bool) (raw : DWord), s.controls = false) ∧
  (∃ (s : State) (k : Fin 16) (mv : QuadMove) (b : Bool) (raw : DWord), s.controls = false) ∧
  (∃ (s : State) (k : Fin 16) (mv : QuadMove) (b : Bool) (raw : DWord), s.controls = false) :=
  ⟨⟨{ wIn .sleep with regs := wReg Reg.timeEncCfg 15 0x40000004, encs := [(15, { st := .relative, count := 3 })] }, 15, .up, true, 5, by decide +kernel⟩,
   ⟨{ wIn .sleep with regs := wReg Reg.timeEncCfg 15 0x40000004, encs := [(15, { st := .relative, count := 3 })] }, 15, .up, true, 5, by decide +kernel⟩,
   ⟨{ wIn .sleep with regs := wReg Reg.timeEncCfg 15 0x40000004, encs := [(15, { st := .relative, count := 3 })] }, 15, .up, true, 5, by decide +kernel⟩,
   ⟨{ wIn .sleep with regs := wReg Reg.timeEncCfg 15 0x40000004, encs := [(15, { st := .relative, count := 3 })] }, 15, .up, true, 5, by decide +kernel⟩⟩

/-- States and operands that meet the hypotheses of Obligations.CyclesAndMarks. -/
theorem witness_CyclesAndMarks_1 :
  (∃ (s : State) (k : Fin 4) (a : DWord), s.controls = true ∧ (s.cyc k).st = .tracking ∧ (s.cyc k).lowAt = some a ∧ 32000000 ≤ (s.time.st - a).toNat) ∧
  (∃ (s : State) (k : Fin 4), ((∀ a, (s.cyc k).lowAt = some a → (s.time.st - a).toNat < 32000000))) ∧
  (∃ (s : State) (k : Fin 4), s.controls = true ∧ (s.cyc k).st = .holdover ∧ s.holdTime k ≤ (s.time.st - (s.cyc k).heldAt).toNat) ∧
  (∃ (s : State) (k : Fin 4), (s.time.st - (s.cyc k).heldAt).toNat < s.holdTime k) ∧
  (∃ (s : State) (i : Nat) (m : Mark) (fire : DWord) (missed : Nat) (th : Nat) (adr : Nat) (late : Bool), s.controls = true ∧ s.marks[i]? = some m ∧ s.markDue m = some (fire, missed, late) ∧ m.who = .thread th adr ∧ m.period = 0) :=
  ⟨⟨{ wAt 32000001 wRun with cycs := [(3, { st := .tracking, phase := 5, rate := 7, lowAt := some 1 })] }, 3, 1, by decide +kernel⟩,
   ⟨{ wAt 32000000 wRun with cycs := [(3, { st := .tracking, phase := 5, rate := 7, lowAt := some 1 })] }, 3, by intro a h; have h2 : some (1 : DWord) = some a := h; cases h2; decide +kernel⟩,
   ⟨{ wAt 1600000000 wRun with cycs := [(3, { st := .holdover, phase := 5, rate := 7 })], marks := [{ who := .housekeeping, kind := 2, src := 3, anyTurn := false, dir := 0, target := 0, period := 0 }] }, 3, by decide +kernel⟩,
   ⟨{ wAt 1599999999 wRun with cycs := [(3, { st := .holdover, phase := 5, rate := 7 })] }, 3, by decide +kernel⟩,
   ⟨{ wAt 8 wRun with marks := [{ who := .thread 1 16, kind := 0, src := 0, anyTurn := false, dir := 0, target := 7, period := 0 }], threads := [(1, { st := .wait, waits := [{ on := .mark 16 2, pc := 8, level := 0 }] })] }, 0, { who := .thread 1 16, kind := 0, src := 0, anyTurn := false, dir := 0, target := 7, period := 0 }, 7, 0, 1, 16, false, by decide +kernel⟩⟩

/-- States and operands that meet the hypotheses of Obligations.CyclesAndMarks. -/
theorem witness_CyclesAndMarks_2 :
  (∃ (s : State) (i : Nat) (m : Mark) (fire : DWord) (missed : Nat) (late : Bool), s.controls = true ∧ s.marks[i]? = some m ∧ s.markDue m = some (fire, missed, late) ∧ m.who = .housekeeping ∧ m.period ≠ 0) ∧
  (∃ (s : State) (m : Mark), m.kind = 0 ∧ m.late = none ∧ m.period = 0) ∧
  (∃ (s : State) (i : Nat) (m : Mark), s.marks[i]? = some m ∧ (s.controls = false ∨ s.markDue m = none)) :=
  ⟨⟨{ wAt 40 wRun with marks := [{ who := .housekeeping, kind := 0, src := 0, anyTurn := false, dir := 0, target := 7, period := 16 }] }, 0, { who := .housekeeping, kind := 0, src := 0, anyTurn := false, dir := 0, target := 7, period := 16 }, 39, 2, true, by decide +kernel⟩,
   ⟨wAt 8 wRun, { who := .thread 1 16, kind := 0, src := 0, anyTurn := false, dir := 0, target := 7, period := 0 }, by decide +kernel⟩,
   ⟨{ wAt 6 wRun with marks := [{ who := .thread 1 16, kind := 0, src := 0, anyTurn := false, dir := 0, target := 7, period := 0 }] }, 0, { who := .thread 1 16, kind := 0, src := 0, anyTurn := false, dir := 0, target := 7, period := 0 }, by decide +kernel⟩⟩

/-- States and operands that meet the hypotheses of Obligations.SlotsAndPassStart. -/
theorem witness_SlotsAndPassStart_1 :
  (∃ (s : State) (c : Word) (now : DWord) (mark : Option DWord), s.planRuns = true ∧ s.twin.st ≠ .joining ∧ s.nextBoundary = some (c, now, mark) ∧ s.reached now = true) ∧
  (∃ (s : State), (s.planRuns = false ∨ s.nextBoundary = none ∨ (∃ c now mark, s.nextBoundary = some (c, now, mark) ∧ s.reached now = false))) ∧
  (∃ (s : State), s.planRuns = true ∧ s.passDue = true ∧ s.roleActs = true ∧ s.plan.pass = none) ∧
  (∃ (s : State) (o : Nat) (op : Op) (tag : _), s.planRuns = true ∧ s.passDue = true ∧ s.roleActs = true ∧ s.plan.pass = none ∧ s.plan.releases = [(tag, some o)] ∧ GoesOn s o 0x21 op) ∧
  (∃ (s : State), s.planRuns = true ∧ s.passDue = true ∧ s.twin.st = .shadow) :=
  ⟨⟨{ wAt 16000000 wRun with rails := [(63, { active := [0, 1], eacc := 7 })] }, 1, 16000000, none, by decide +kernel⟩,
   ⟨{ wRun with plan := { running := false } }, by decide +kernel⟩,
   ⟨{ wAt 16000000 wRun with plan := { reqs := [wGrant] } }, by decide +kernel⟩,
   ⟨{ wAt 16000000 (wWith (wGo 0x21 [4])) with plan := { releases := [(4, some 5)], grants := [wGrant] } }, 5, wGo 0x21 [4], 4, by unfold GoesOn; decide +kernel⟩,
   ⟨{ wAt 16000000 wRun with twin := { st := .shadow } }, by decide +kernel⟩⟩

/-- States and operands that meet the hypotheses of Obligations.SlotsAndPassStart. -/
theorem witness_SlotsAndPassStart_2 :
  (∃ (s : State), (s.planRuns = false ∨ s.passDue = false ∨ (s.roleActs = true ∧ s.plan.pass ≠ none))) :=
  ⟨{ wRun with plan := { running := false } }, by decide +kernel⟩

/-- States and operands that meet the hypotheses of Obligations.PassEndsEveryRequest. -/
theorem witness_PassEndsEveryRequest :
  (∃ (s : State) (p : Pass) (e : Ecc), s.plan.pass = some p ∧ e ≠ .uncorrectable ∧ ((∀ a ∈ s.ops, ∀ b ∈ s.ops, a.tag = b.tag → a = b))) ∧
  (∃ (s : State) (e : Ecc), s.plan.pass = none) ∧
  (∃ (s : State) (p : Pass), s.plan.pass = some p ∧ s.pwr.st ≠ .off ∧ s.pwr.episode = false ∧ s.alignedTwin = false) :=
  ⟨⟨{ wWith (wGo 0x20 []) with plan := { slotNow := 3, pass := some { slot := 4, from_ := 0, restarted := false, requests := [{ wGrant with tag := 5, thread := none }], releases := [] } } }, { slot := 4, from_ := 0, restarted := false, requests := [{ wGrant with tag := 5, thread := none }], releases := [] }, .corrected, by decide +kernel⟩,
   ⟨wRun, .ok, by decide +kernel⟩,
   ⟨{ wWith (wGo 0x20 []) with plan := { slotNow := 3, pass := some { slot := 4, from_ := 0, restarted := false, requests := [{ wGrant with tag := 5, thread := none }], releases := [] } } }, { slot := 4, from_ := 0, restarted := false, requests := [{ wGrant with tag := 5, thread := none }], releases := [] }, by decide +kernel⟩⟩

/-- States and operands that meet the hypotheses of Obligations.TripShedAndGrantRequests. -/
theorem witness_TripShedAndGrantRequests :
  (∃ (s : State) (i : Fin 8), (bitOf (fld (s.reg Reg.planShedCfg) 15 8) i = false ∨ s.shedMode = 2)) ∧
  (∃ (s : State) (i : Fin 8), bitOf (fld (s.reg Reg.planShedCfg) 15 8) i = true ∧ s.shedMode ≠ 2 ∧ s.railsWf) ∧
  (∃ (s : State) (o : Nat) (op : Op), Starts s o 0x20 op ∧ s.requestBad (slice op.desc 8 32) = true) ∧
  (∃ (s : State) (o : Nat) (op : Op), Starts s o 0x20 op ∧ s.requestBad (slice op.desc 8 32) = false) ∧
  (∃ (s : State) (o : Nat) (op : Op), Starts s o 0x21 op) :=
  ⟨⟨{ wRun with regs := wReg Reg.planShedCfg 0 0x7F00 }, 7, by decide +kernel⟩,
   ⟨{ wRail { active := [0, 1], st := .run, portions := [100, 0, 0, 0, 0, 0, 0, 50] } with regs := wReg Reg.planShedCfg 0 0x8000, plan := { shed := List.replicate 8 (List.replicate 8 255) } }, 7, by unfold State.railsWf; decide +kernel⟩,
   ⟨wWith (wOp 0x20 []), 5, wOp 0x20 [], by unfold Starts; decide +kernel⟩,
   ⟨wWith (wOp 0x20 [0, 0, 0, 0, 1]), 5, wOp 0x20 [0, 0, 0, 0, 1], by unfold Starts; decide +kernel⟩,
   ⟨{ wWith (wOp 0x21 [4]) with plan := { grants := [{ wGrant with thread := none }] } }, 5, wOp 0x21 [4], by unfold Starts; decide +kernel⟩⟩

/-- States and operands that meet the hypotheses of Obligations.DoorbellsAndDescriptors. -/
theorem witness_DoorbellsAndDescriptors_1 :
  (∃ (s : State), s.ringsUp = true) ∧
  (∃ (s : State), s.ringsUp = true ∧ s.reached s.pollAt = true) ∧
  (∃ (s : State), s.ringsUp = true ∧ s.reached s.pollAt = false) ∧
  (∃ (s : State) (d : HostRead), s.ringsUp = false) ∧
  (∃ (s : State) (d : HostRead), s.ringsUp = false) :=
  ⟨⟨wRun, by decide +kernel⟩,
   ⟨{ wAt 8000 wRun with regs := wReg Reg.hostDbPoll 0 0 }, by decide +kernel⟩,
   ⟨{ wAt 7999 wRun with regs := wReg Reg.hostDbPoll 0 0 }, by decide +kernel⟩,
   ⟨{ wRun with host := {} }, .failed, by decide +kernel⟩,
   ⟨{ wRun with host := {} }, .failed, by decide +kernel⟩⟩

/-- States and operands that meet the hypotheses of Obligations.DoorbellsAndDescriptors. -/
theorem witness_DoorbellsAndDescriptors_2 :
  (∃ (s : State) (d : HostRead), s.ringsUp = false) ∧
  (∃ (s : State), s.ringsUp = true) ∧
  (∃ (s : State) (b : List Byte), s.ringsUp = true) ∧
  (∃ (s : State) (q : Fin 64), s.mayFetch = true ∧ s.sqReady q = true ∧ s.sqTurn q = true) ∧
  (∃ (s : State) (q : Fin 64) (b : List Byte) (tag : Nat), s.mayFetch = true ∧ s.sqReady q = true ∧ s.sqTurn q = true ∧ tag = leAt b 2 2 % 4096) :=
  ⟨⟨{ wRun with host := {} }, .failed, by decide +kernel⟩,
   ⟨wRun, by decide +kernel⟩,
   ⟨wRun, wPg 560 [], by decide +kernel⟩,
   ⟨{ wRun with regs := wReg Reg.hostCtl 0 1, rings := [(63, { en := true, st := 1, prod := 1 })] }, 63, by decide +kernel⟩,
   ⟨{ wRun with regs := wReg Reg.hostCtl 0 1, rings := [(63, { en := true, st := 1, prod := 15 })] }, 63, wDesc 0 [], 5, by decide +kernel⟩⟩

/-- States and operands that meet the hypotheses of Obligations.DoorbellsAndDescriptors. -/
theorem witness_DoorbellsAndDescriptors_3 :
  (∃ (s : State) (a : Fin 8), s.ringsUp = true ∧ wbit (s.reg Reg.hostCtl) 0 = true ∧ (s.ring (192 + a.val)).live = true ∧ s.ringHeld (192 + a.val) ≠ 0) ∧
  (∃ (s : State) (a : Fin 8) (b : _), s.ringsUp = true ∧ wbit (s.reg Reg.hostCtl) 0 = true ∧ (s.ring (192 + a.val)).live = true ∧ s.ringHeld (192 + a.val) ≠ 0 ∧ extentBad b = true) ∧
  (∃ (s : State) (a : Fin 8) (b : _), s.ringsUp = true ∧ wbit (s.reg Reg.hostCtl) 0 = true ∧ (s.ring (192 + a.val)).live = true ∧ s.ringHeld (192 + a.val) ≠ 0 ∧ extentBad b = false ∧ ((∀ x ∈ s.aqExtents a, heldHits s.cap.held x.freeAt.1 x.freeAt.2 = false))) ∧
  (∃ (s : State) (q : Fin 64) (d : HostRead), (s.mayFetch = false ∨ s.sqReady q = false ∨ s.sqTurn q = false)) :=
  ⟨⟨{ wRun with regs := wReg Reg.hostCtl 0 1, rings := [(199, { en := true, st := 1, prod := 1 })] }, 7, by decide +kernel⟩,
   ⟨{ wRun with regs := wReg Reg.hostCtl 0 1, rings := [(199, { en := true, st := 1, prod := 1 })] }, 7, wPg 32 [], by decide +kernel⟩,
   ⟨{ wRun with regs := wReg Reg.hostCtl 0 1, rings := [(199, { en := true, st := 1, prod := 1 })] }, 7, wPg 32 [(8, 1)], by decide +kernel⟩,
   ⟨{ wRun with regs := wReg Reg.hostCtl 0 1, rings := [(63, { en := true, st := 1 })] }, 63, .failed, by decide +kernel⟩⟩

/-- States and operands that meet the hypotheses of Obligations.RingsAndRecords. -/
theorem witness_RingsAndRecords_1 :
  (∃ (s : State) (q : Fin 64), (s.ring (64 + q.val)).live = true ∧ s.ringIn (64 + q.val) ∧ s.linkOn = true) ∧
  (∃ (s : State), (s.ring 128).live = true ∧ s.ringIn 128 ∧ s.linkOn = true) ∧
  (∃ (s : State) (k : Fin 65), s.linkOn = true ∧ s.coalDue (64 + k.val) = true) ∧
  (∃ (s : State) (k : Fin 65), (s.linkOn = false ∨ s.coalDue (64 + k.val) = false)) ∧
  (∃ (s : State) (v : Word), s.ringsUp = false) :=
  ⟨⟨{ wRun with rings := [(127, { en := true, st := 1, prod := 15, cons := 14 })], cqWait := [(63, [(cqRec 5 0 0 0 0 0, false, 5)])] }, 63, by unfold State.ringIn; decide +kernel⟩,
   ⟨{ wRun with rings := [(128, { en := true, st := 1, prod := 15, cons := 14 })], eqHeld := [eqRec 4 0 0 0 []] }, by unfold State.ringIn; decide +kernel⟩,
   ⟨{ wAt 16001 wRun with regs := wReg Reg.hostRingMod 128 0x10000, rings := [(128, { en := true, st := 1, prod := 15, cons := 14, unsig := 1, unsigAt := 1 })] }, 64, by decide +kernel⟩,
   ⟨{ wAt 16000 wRun with regs := wReg Reg.hostRingMod 128 0x10000, rings := [(128, { en := true, st := 1, prod := 15, cons := 14, unsig := 1, unsigAt := 1 })] }, 64, by decide +kernel⟩,
   ⟨{ wRun with host := {} }, 0x80040000, by decide +kernel⟩⟩

/-- States and operands that meet the hypotheses of Obligations.RingsAndRecords. -/
theorem witness_RingsAndRecords_2 :
  (∃ (s : State) (v : Word), s.ringsUp = false) ∧
  (∃ (s : State) (v : Word) (k : Nat) (u : State), s.ringsUp = true ∧ s.ringSel = some k ∧ (s.ring k).en = false ∧ wbit v 31 = true ∧ u = s.setReg Reg.hostRingCfg k (v &&& ringCfgMask k)) ∧
  (∃ (s : State) (v : Word) (k : Nat), s.ringsUp = true ∧ s.ringSel = some k ∧ (s.ring k).en = true ∧ wbit v 31 = false) :=
  ⟨⟨{ wRun with host := {} }, 0x80040000, by decide +kernel⟩,
   ⟨{ wRun with regs := wReg Reg.hostRingSel 0 0x7F }, 0x80040000, 127, { wRun with regs := wReg Reg.hostRingSel 0 0x7F }.setReg Reg.hostRingCfg 127 (0x80040000 &&& ringCfgMask 127), by decide +kernel⟩,
   ⟨{ wRun with regs := wReg Reg.hostRingSel 0 0x7F, rings := [(127, { en := true, st := 1 })] }, 0x00040000, 127, by decide +kernel⟩⟩

/-- States and operands that meet the hypotheses of Obligations.RegisterAccess. -/
theorem witness_RegisterAccess_1 :
  (∃ (s : State) (p : Path) (off : Nat) (r : Nat) (ix : Nat) (w : RegRow) (v : Word), s.busReg p off = some r ∧ commandReg r = false ∧ regRowAt r = some w ∧ s.winIx p w.win = some ix ∧ s.writeWaits p r = false) ∧
  (∃ (s : State) (p : Path) (off : Nat) (v : Word), s.busReg p off = none) ∧
  (∃ (s : State) (p : Path) (off : Nat) (r : Nat) (w : RegRow) (v : Word), s.busReg p off = some r ∧ commandReg r = false ∧ regRowAt r = some w ∧ s.winIx p w.win = none ∧ s.writeWaits p r = false) ∧
  (∃ (s : State) (p : Path) (off : Nat) (r : Nat) (v : Word), s.busReg p off = some r ∧ s.writeWaits p r = true) ∧
  (∃ (s : State) (off : Nat) (v : Word), s.fwAway = false ∧ s.busReg .bar0 off = some Reg.linkLaneCtl) :=
  ⟨⟨{ wRun with safetyStat := 127 }, .bar0, Reg.safetyStat, Reg.safetyStat, 0, (regRowAt Reg.safetyStat).getD ⟨0, 0, 0, .none, 0, 0, 0, 0, 0⟩, 3, by decide +kernel⟩,
   ⟨wRun, .twowire, 0xB0000, 1, by decide +kernel⟩,
   ⟨{ wRun with grade := 1, regs := wReg Reg.railRailSel 0 63 }, .bar0, Reg.railChgIrqEn, Reg.railChgIrqEn, (regRowAt Reg.railChgIrqEn).getD ⟨0, 0, 0, .none, 0, 0, 0, 0, 0⟩, 1, by decide +kernel⟩,
   ⟨{ wRun with sec := { dbg := { pairs := 3 } } }, .bar0, Reg.railChgIrqEn, Reg.railChgIrqEn, 1, by decide +kernel⟩,
   ⟨wRun, Reg.linkLaneCtl, 1, by decide +kernel⟩⟩

/-- States and operands that meet the hypotheses of Obligations.RegisterAccess. -/
theorem witness_RegisterAccess_2 :
  (∃ (s : State) (off : Nat) (v : Word), s.fwAway = false ∧ s.busReg .bar0 off = some Reg.timeDiscCtl) ∧
  (∃ (s : State) (off : Nat) (v : Word), s.fwAway = false ∧ s.busReg .bar0 off = some Reg.hostCtl) ∧
  (∃ (s : State) (off : Nat) (v : Word), s.fwAway = false ∧ s.busReg .bar0 off = some Reg.hostRingCfg) ∧
  (∃ (s : State) (off : Nat), s.busReg .bar0 off = none) ∧
  (∃ (s : State) (off : Nat), s.busReg .bar0 off = some Reg.safetyEcc) :=
  ⟨⟨wRun, Reg.timeDiscCtl, 1, by decide +kernel⟩,
   ⟨wRun, Reg.hostCtl, 1, by decide +kernel⟩,
   ⟨wRun, Reg.hostRingCfg, 1, by decide +kernel⟩,
   ⟨wRun, 0x104000, by decide +kernel⟩,
   ⟨{ wRun with ue := 3 }, Reg.safetyEcc, by decide +kernel⟩⟩

/-- States and operands that meet the hypotheses of Obligations.RegisterAccess. -/
theorem witness_RegisterAccess_3 :
  (∃ (s : State) (off : Nat), s.busReg .bar0 off = some Reg.globalAccErr) ∧
  (∃ (s : State) (off : Nat), s.busReg .bar0 off = some Reg.hostEvStat) ∧
  (∃ (s : State) (wr : Bool) (v : Word), s.ringsUp = false) ∧
  (∃ (s : State) (wr : Bool) (v : Word), s.ringsUp = false) ∧
  (∃ (s : State) (wr : Bool), s.ringsUp = true) :=
  ⟨⟨wRun, Reg.globalAccErr, by decide +kernel⟩,
   ⟨wRun, Reg.hostEvStat, by decide +kernel⟩,
   ⟨{ wRun with host := {} }, true, 0xA5000000, by decide +kernel⟩,
   ⟨{ wRun with host := {} }, true, 0xA5000000, by decide +kernel⟩,
   ⟨wRun, false, by decide +kernel⟩⟩

/-- States and operands that meet the hypotheses of Obligations.RegisterAccess. -/
theorem witness_RegisterAccess_4 :
  (∃ (s : State) (v : Word), s.ringsUp = true ∧ fld v 31 24 ≠ 0xA5) ∧
  (∃ (s : State) (v : Word), fld v 31 24 = 0xA5 ∧ s.ringsUp = true) ∧
  (∃ (s : State), wbit (s.reg Reg.supWakeCfg) 2 = false) ∧
  (∃ (s : State), wbit (s.reg Reg.supWakeCfg) 2 = true ∧ s.pwr.st = .sleep ∧ s.pwr.wakeUp = false ∧ ((∃ k, 2 ≤ k ∧ k ≤ 12 ∧ s.sup.en.getLsbD (k - 1) = false))) :=
  ⟨⟨wRun, 0xA4000001, by decide +kernel⟩,
   ⟨wRun, 0xA5000000, by decide +kernel⟩,
   ⟨wRun, by decide +kernel⟩,
   ⟨{ wRun with regs := wReg Reg.supWakeCfg 0 4, pwr := { wRun.pwr with st := .sleep }, sup := { wRun.sup with en := 0x803#12 } }, by exact ⟨by decide +kernel, rfl, rfl, 3, by decide +kernel⟩⟩⟩

/-- States and operands that meet the hypotheses of Obligations.PowerStates. -/
theorem witness_PowerStates_1 :
  (∃ (s : State) (o : Nat) (op : Op), Starts s o 0x03 op ∧ s.mayPower = false ∧ op.u8 8 = 0) ∧
  (∃ (s : State) (o : Nat) (op : Op), Starts s o 0x03 op ∧ s.mayPower = false ∧ op.u8 8 = 1) ∧
  (∃ (s : State) (o : Nat) (op : Op), Starts s o 0x03 op ∧ s.mayPower = false ∧ op.u8 8 = 2) ∧
  (∃ (s : State) (o : Nat) (op : Op), Starts s o 0x03 op ∧ (s.pwr.st = .run ∨ s.pwr.st = .trim) ∧ op.u8 8 = 0) ∧
  (∃ (s : State) (o : Nat) (op : Op), Starts s o 0x03 op ∧ (s.pwr.st = .run ∨ s.pwr.st = .trim) ∧ op.u8 8 = 1) :=
  ⟨⟨wPut (wOp 0x03 [0]) (wIn .basting), 5, (wOp 0x03 [0]), by unfold Starts; decide +kernel⟩,
   ⟨wPut (wOp 0x03 [1]) (wIn .basting), 5, (wOp 0x03 [1]), by unfold Starts; decide +kernel⟩,
   ⟨wPut (wOp 0x03 [2]) (wIn .basting), 5, (wOp 0x03 [2]), by unfold Starts; decide +kernel⟩,
   ⟨wPut (wOp 0x03 [0]) (wIn .trim), 5, (wOp 0x03 [0]), by unfold Starts; decide +kernel⟩,
   ⟨wPut (wOp 0x03 [1]) (wIn .run), 5, (wOp 0x03 [1]), by unfold Starts; decide +kernel⟩⟩

/-- States and operands that meet the hypotheses of Obligations.PowerStates. -/
theorem witness_PowerStates_2 :
  (∃ (s : State) (o : Nat) (op : Op), Starts s o 0x03 op ∧ s.pwr.st = .park ∧ tabWf (fun _ => ({} : Lane)) s.lanes = true ∧ op.u8 8 = 0) ∧
  (∃ (s : State) (o : Nat) (op : Op), Starts s o 0x03 op ∧ s.pwr.st = .park ∧ tabWf (fun _ => ({} : Lane)) s.lanes = true ∧ op.u8 8 = 1) ∧
  (∃ (s : State) (o : Nat) (op : Op), Starts s o 0x03 op ∧ op.u8 8 = 2 ∧ s.pwr.st = .park) ∧
  (∃ (s : State) (o : Nat) (op : Op), Starts s o 0x03 op ∧ op.u8 8 = 2 ∧ (s.pwr.st = .run ∨ s.pwr.st = .trim) ∧ s.railsBusy = true) ∧
  (∃ (s : State) (o : Nat) (op : Op), Starts s o 0x03 op ∧ op.u8 8 = 2 ∧ (s.pwr.st = .run ∨ s.pwr.st = .trim) ∧ s.railsBusy = false ∧ tabWf (fun _ => ({} : Lane)) s.lanes = true) :=
  ⟨⟨wPut (wOp 0x03 [0]) { wIn .park with lanes := [(3, { st := .parked })] }, 5, (wOp 0x03 [0]), by unfold Starts; decide +kernel⟩,
   ⟨wPut (wOp 0x03 [1]) { wIn .park with lanes := [(3, { st := .parked })] }, 5, (wOp 0x03 [1]), by unfold Starts; decide +kernel⟩,
   ⟨wPut (wOp 0x03 [2]) (wIn .park), 5, (wOp 0x03 [2]), by unfold Starts; decide +kernel⟩,
   ⟨wPut (wOp 0x03 [2]) { wIn .run with rails := [(63, { st := .armed })] }, 5, (wOp 0x03 [2]), by unfold Starts; decide +kernel⟩,
   ⟨wPut (wOp 0x03 [2]) { wIn .trim with lanes := [(3, { st := .run })], rails := [(63, { st := .standby })] }, 5, (wOp 0x03 [2]), by unfold Starts; decide +kernel⟩⟩

/-- States and operands that meet the hypotheses of Obligations.PowerStates. -/
theorem witness_PowerStates_3 :
  (∃ (s : State) (o : Nat) (op : Op), Starts s o 0x03 op ∧ op.u8 8 = 3 ∧ s.pwr.st ≠ .park) ∧
  (∃ (s : State) (o : Nat) (op : Op), Starts s o 0x03 op ∧ op.u8 8 = 3 ∧ s.pwr.st = .park ∧ s.sleepBusy o = true) ∧
  (∃ (s : State) (o : Nat) (op : Op), Starts s o 0x03 op ∧ op.u8 8 = 3 ∧ s.pwr.st = .park ∧ s.sleepBusy o = false ∧ s.traceEn = false ∧ s.cap.drain = [] ∧ 6 < s.sup.top ∧ (s.ring (64 + s.cqOf op.sq)).live = true ∧ s.ringFree (64 + s.cqOf op.sq) ≠ 0) :=
  ⟨⟨wPut (wOp 0x03 [3]) (wIn .run), 5, (wOp 0x03 [3]), by unfold Starts; decide +kernel⟩,
   ⟨{ wPut (wOp 0x03 [3]) (wIn .park) with bobs := [(0, { objects := [wObj] })] }, 5, (wOp 0x03 [3]), by unfold Starts; decide +kernel⟩,
   ⟨wPut (wOp 0x03 [3]) { wIn .park with rings := [(64, { st := 1, prod := 4, en := true })], regs := wReg Reg.hostCtl 0 1 }, 5, (wOp 0x03 [3]), by unfold Starts; decide +kernel⟩⟩

/-- States and operands that meet the hypotheses of Obligations.RailOperations. -/
theorem witness_RailOperations_1 :
  (∃ (s : State) (o : Nat) (op : Op), Starts s o 0x10 op ∧ ((s.rail (op.u8 8)).st = .off ∨ (s.rail (op.u8 8)).st = .envTrip)) ∧
  (∃ (s : State) (o : Nat) (op : Op), Starts s o 0x10 op ∧ ((s.rail (op.u8 8)).st = .standby ∨ (s.rail (op.u8 8)).st = .armed ∨ (s.rail (op.u8 8)).st = .run)) ∧
  (∃ (s : State) (o : Nat) (op : Op), Starts s o 0x10 op ∧ (s.rail (op.u8 8)).st = .stopped ∧ s.twin.st ≠ .active) ∧
  (∃ (s : State) (o : Nat) (op : Op), Starts s o 0x10 op ∧ (s.rail (op.u8 8)).st = .stopped ∧ s.twin.st = .active) ∧
  (∃ (s : State) (o : Nat) (op : Op), Starts s o 0x11 op ∧ ((s.rail (op.u8 8)).st = .off ∨ (s.rail (op.u8 8)).st = .envTrip)) :=
  ⟨⟨wPut (wOp 0x10 [63]) { wRun with rails := [(63, { st := .envTrip })] }, 5, (wOp 0x10 [63]), by unfold Starts; decide +kernel⟩,
   ⟨wPut (wOp 0x10 [63]) { wRun with rails := [(63, { st := .armed })] }, 5, (wOp 0x10 [63]), by unfold Starts; decide +kernel⟩,
   ⟨wPut (wOp 0x10 [63]) { wRun with rails := [(63, { st := .stopped })] }, 5, (wOp 0x10 [63]), by unfold Starts; decide +kernel⟩,
   ⟨wPut (wOp 0x10 [63]) { wRun with rails := [(63, { st := .stopped })], twin := { st := .active } }, 5, (wOp 0x10 [63]), by unfold Starts; decide +kernel⟩,
   ⟨wPut (wOp 0x11 [63]) { wRun with rails := [(63, { st := .off })] }, 5, (wOp 0x11 [63]), by unfold Starts; decide +kernel⟩⟩

/-- States and operands that meet the hypotheses of Obligations.RailOperations. -/
theorem witness_RailOperations_2 :
  (∃ (s : State) (o : Nat) (op : Op), Starts s o 0x11 op ∧ (s.rail (op.u8 8)).st = .stopped) ∧
  (∃ (s : State) (o : Nat) (op : Op), Starts s o 0x11 op ∧ ((s.rail (op.u8 8)).st = .standby ∨ (s.rail (op.u8 8)).st = .armed ∨ (s.rail (op.u8 8)).st = .run) ∧ s.twin.st ≠ .active) ∧
  (∃ (s : State) (o : Nat) (op : Op), Starts s o 0x12 op ∧ s.twin.st ≠ .active) ∧
  (∃ (s : State) (o : Nat) (op : Op), Starts s o 0x12 op ∧ s.twin.st = .active) ∧
  (∃ (s : State) (o : Nat) (op : Op), Starts s o 0x13 op ∧ (s.markBad (slice op.desc 0x10 16) || !zerosAt op.desc 0x1C 4) = true) :=
  ⟨⟨wPut (wOp 0x11 [63]) { wRun with rails := [(63, { st := .stopped })] }, 5, (wOp 0x11 [63]), by unfold Starts; decide +kernel⟩,
   ⟨wPut (wOp 0x11 [63]) { wRun with rails := [(63, { st := .run })] }, 5, (wOp 0x11 [63]), by unfold Starts; decide +kernel⟩,
   ⟨wPut (wOp 0x12 [63]) { wRun with rails := [(63, { st := .run })] }, 5, (wOp 0x12 [63]), by unfold Starts; decide +kernel⟩,
   ⟨wPut (wOp 0x12 [63]) { wRun with rails := [(63, { st := .run })], twin := { st := .active } }, 5, (wOp 0x12 [63]), by unfold Starts; decide +kernel⟩,
   ⟨wPut (wOp 0x13 [63, 0, 0, 0, 0, 0, 0, 0, 0, 0, 0, 0, 0, 0, 0, 0, 3]) { wRun with rails := [(63, { st := .run })] }, 5, (wOp 0x13 [63, 0, 0, 0, 0, 0, 0, 0, 0, 0, 0, 0, 0, 0, 0, 0, 3]), by unfold Starts; decide +kernel⟩⟩

/-- States and operands that meet the hypotheses of Obligations.RailOperations. -/
theorem witness_RailOperations_3 :
  (∃ (s : State) (o : Nat) (op : Op), Starts s o 0x13 op ∧ (s.markBad (slice op.desc 0x10 16) || !zerosAt op.desc 0x1C 4) = false ∧ s.twin.st ≠ .active) ∧
  (∃ (s : State) (o : Nat) (op : Op), Starts s o 0x14 op ∧ (s.rail (op.u8 8)).st ≠ .envTrip) ∧
  (∃ (s : State) (o : Nat) (op : Op), Starts s o 0x14 op ∧ (s.rail (op.u8 8)).st = .envTrip ∧ s.twin.st ≠ .active) ∧
  (∃ (s : State) (o : Nat) (op : Op), Starts s o 0x15 op ∧ (op.u16 0x1E = 0 ∨ 3600 < op.u16 0x1E ∨ ((s.rail (op.u8 8)).hasPage = true ∧ (s.rail (op.u8 8)).isKind 3 = false))) ∧
  (∃ (s : State) (o : Nat) (op : Op), Starts s o 0x15 op ∧ 1 ≤ op.u16 0x1E ∧ op.u16 0x1E ≤ 3600 ∧ ((s.rail (op.u8 8)).hasPage = false ∨ (s.rail (op.u8 8)).isKind 3 = true) ∧ (s.rail (op.u8 8)).st = .off) :=
  ⟨⟨wPut (wOp 0x13 [63, 0, 0, 0, 0, 0, 0, 0, 0, 0, 0, 0, 0, 0, 0, 0]) { wRun with rails := [(63, { st := .run })] }, 5, (wOp 0x13 [63, 0, 0, 0, 0, 0, 0, 0, 0, 0, 0, 0, 0, 0, 0, 0]), by unfold Starts; decide +kernel⟩,
   ⟨wPut (wOp 0x14 [63]) { wRun with rails := [(63, { st := .run })] }, 5, (wOp 0x14 [63]), by unfold Starts; decide +kernel⟩,
   ⟨wPut (wOp 0x14 [63]) { wRun with rails := [(63, { st := .envTrip })] }, 5, (wOp 0x14 [63]), by unfold Starts; decide +kernel⟩,
   ⟨wPut (wOp 0x15 ([63] ++ List.replicate 21 0 ++ [0x11, 0x0E])) { wRun with rails := [(63, { st := .standby })] }, 5, (wOp 0x15 ([63] ++ List.replicate 21 0 ++ [0x11, 0x0E])), by unfold Starts; decide +kernel⟩,
   ⟨wPut (wOp 0x15 ([63] ++ List.replicate 21 0 ++ [0x10, 0x0E])) { wRun with rails := [(63, { st := .off })] }, 5, (wOp 0x15 ([63] ++ List.replicate 21 0 ++ [0x10, 0x0E])), by unfold Starts; decide +kernel⟩⟩

/-- States and operands that meet the hypotheses of Obligations.RailOperations. -/
theorem witness_RailOperations_4 :
  (∃ (s : State) (o : Nat) (op : Op), Starts s o 0x15 op ∧ 1 ≤ op.u16 0x1E ∧ op.u16 0x1E ≤ 3600 ∧ ((s.rail (op.u8 8)).hasPage = false ∨ (s.rail (op.u8 8)).isKind 3 = true) ∧ (s.rail (op.u8 8)).st ≠ .off ∧ s.twin.st ≠ .active) ∧
  (∃ (s : State) (due : DWord) (m : Nat) (v : Word) (rest : List (DWord × Apply)), s.twin.applyQ = (due, .rsp m v) :: rest ∧ s.reached due = true) ∧
  (∃ (s : State) (o : Nat) (op : Op) (due : DWord) (rest : List (DWord × Apply)), s.twin.applyQ = (due, .op o) :: rest ∧ s.reached due = true ∧ s.findOp o = some op ∧ op.done = false ∧ op.code ≠ 0x12 ∧ op.code ≠ 0x13) ∧
  (∃ (s : State) (due : DWord) (d : List Byte) (rest : List (DWord × Apply)), s.twin.applyQ = (due, .peerOp d) :: rest ∧ s.reached due = true ∧ byteAt d 0 ≠ 0x12 ∧ byteAt d 0 ≠ 0x13) ∧
  (∃ (s : State) (o : Nat) (op : Op) (due : DWord) (rest : List (DWord × Apply)), s.twin.applyQ = (due, .op o) :: rest ∧ s.reached due = true ∧ s.findOp o = some op ∧ op.done = false ∧ op.code = 0x12 ∧ o < planTag) :=
  ⟨⟨wPut (wOp 0x15 ([63] ++ List.replicate 21 0 ++ [1, 0])) { wRun with rails := [(63, { st := .standby })] }, 5, (wOp 0x15 ([63] ++ List.replicate 21 0 ++ [1, 0])), by unfold Starts; decide +kernel⟩,
   ⟨{ wRun with twin := { st := .active, applyQ := [(0, .rsp 63 5)] } }, 0, 63, 5, [], by decide +kernel⟩,
   ⟨{ wWith (wGo 0x10 [63]) with twin := { st := .active, applyQ := [(0, .op 5)] }, rails := [(63, { st := .stopped })] }, 5, wGo 0x10 [63], 0, [], by decide +kernel⟩,
   ⟨{ wRun with twin := { st := .shadow, applyQ := [(0, .peerOp (wDesc 0x10 [63]))] }, rails := [(63, { st := .stopped })] }, 0, wDesc 0x10 [63], [], by decide +kernel⟩,
   ⟨{ wWith (wGo 0x12 [63]) with twin := { st := .active, applyQ := [(0, .op 5)] }, rails := [(63, { st := .run })] }, 5, wGo 0x12 [63], 0, [], by decide +kernel⟩⟩

/-- States and operands that meet the hypotheses of Obligations.RailOperations. -/
theorem witness_RailOperations_5 :
  (∃ (s : State) (due : DWord) (a : Apply) (rest : List (DWord × Apply)), (s.twin.applyQ = [] ∨ (s.twin.applyQ = (due, a) :: rest ∧ s.reached due = false))) :=
  ⟨{ wRun with twin := { st := .active, applyQ := [(1, .rsp 63 5)] } }, 1, .rsp 63 5, [], by decide +kernel⟩

/-- States and operands that meet the hypotheses of Obligations.ThreadHostOperations. -/
theorem witness_ThreadHostOperations_1 :
  (∃ (s : State) (o : Nat) (op : Op), Starts s o 0x30 op) ∧
  (∃ (s : State) (o : Nat) (op : Op), Starts s o 0x31 op ∧ (op.u16 0xC % 4 ≠ 0 ∨ ledgerRo ≤ 256 * fld (s.thrCfg (op.u8 8)) 17 8)) ∧
  (∃ (s : State) (o : Nat) (op : Op), Starts s o 0x31 op ∧ op.u16 0xC % 4 = 0 ∧ 256 * fld (s.thrCfg (op.u8 8)) 17 8 < ledgerRo) ∧
  (∃ (s : State) (o : Nat) (op : Op), Starts s o 0x32 op) ∧
  (∃ (s : State) (o : Nat) (op : Op), Starts s o 0x33 op ∧ op.u8 0xA = 0 ∧ op.u16 8 < 511) :=
  ⟨⟨wPut (wOp 0x30 [15, 0, 0, 0, 4]) { wRun with threads := [(15, { st := .halted })] }, 5, (wOp 0x30 [15, 0, 0, 0, 4]), by unfold Starts; decide +kernel⟩,
   ⟨wPut (wOp 0x31 [15, 0, 0, 0, 2]) wRun, 5, (wOp 0x31 [15, 0, 0, 0, 2]), by unfold Starts; decide +kernel⟩,
   ⟨wPut (wOp 0x31 [15, 0, 0, 0, 4]) wRun, 5, (wOp 0x31 [15, 0, 0, 0, 4]), by unfold Starts; decide +kernel⟩,
   ⟨wPut (wOp 0x32 [15]) { wRun with threads := [(15, { st := .run })] }, 5, (wOp 0x32 [15]), by unfold Starts; decide +kernel⟩,
   ⟨wPut (wOp 0x33 [0xFE, 1, 0, 0, 1, 0x80]) { wRun with threads := [(15, { st := .run })] }, 5, (wOp 0x33 [0xFE, 1, 0, 0, 1, 0x80]), by unfold Starts; decide +kernel⟩⟩

/-- States and operands that meet the hypotheses of Obligations.ThreadHostOperations. -/
theorem witness_ThreadHostOperations_2 :
  (∃ (s : State) (o : Nat) (op : Op), Starts s o 0x33 op ∧ op.u8 0xA = 1) ∧
  (∃ (s : State) (o : Nat) (op : Op), s.findOp o = some op ∧ op.done = false ∧ op.data = none ∧ dataLen op.desc ≠ 0 ∧ o < planTag ∧ s.mayStart op = true) ∧
  (∃ (s : State) (o : Nat) (op : Op) (b : List Byte), s.findOp o = some op ∧ op.done = false ∧ op.data = none ∧ dataLen op.desc ≠ 0 ∧ o < planTag ∧ s.mayStart op = true ∧ b.length = dataLen op.desc) ∧
  (∃ (s : State) (o : Nat) (op : Op) (d : HostRead), s.findOp o = some op ∧ (op.done = true ∨ op.data ≠ none ∨ dataLen op.desc = 0 ∨ s.mayStart op = false)) :=
  ⟨⟨wPut (wOp 0x33 [0xFE, 1, 1, 0, 1, 0x80]) { wRun with threads := [(15, { st := .run })] }, 5, (wOp 0x33 [0xFE, 1, 1, 0, 1, 0x80]), by unfold Starts; decide +kernel⟩,
   ⟨wWith (wOp 0x50 [3]), 5, wOp 0x50 [3], by decide +kernel⟩,
   ⟨wWith (wOp 0x62 [3, 0, 0, 0, 2]), 5, wOp 0x62 [3, 0, 0, 0, 2], [1, 2], by decide +kernel⟩,
   ⟨wWith (wOp 0 []), 5, wOp 0 [], .failed, by decide +kernel⟩⟩

/-- States and operands that meet the hypotheses of Obligations.CaptureOperationsAndEngine. -/
theorem witness_CaptureOperationsAndEngine_1 :
  (∃ (s : State) (o : Nat) (op : Op) (c : List Byte) (b : _), Starts s o 0x40 op ∧ op.data = some c ∧ b = op.u8 8) ∧
  (∃ (s : State) (o : Nat) (op : Op) (b : _), Starts s o 0x41 op ∧ b = op.u8 8) ∧
  (∃ (s : State) (o : Nat) (op : Op) (b : _), Starts s o 0x42 op ∧ b = op.u8 8) ∧
  (∃ (s : State) (o : Nat) (op : Op) (b : _) (e : Ecc), Starts s o 0x43 op ∧ b = op.u8 8 ∧ (s.bob b).objects ≠ [] ∧ s.bobIso b = true) ∧
  (∃ (s : State) (o : Nat) (op : Op) (b : _) (e : Ecc), Starts s o 0x43 op ∧ b = op.u8 8 ∧ (s.bob b).objects = []) :=
  ⟨⟨wPut ({ wOp 0x40 [7] with data := some (wPg 512 [(0, 7), (1, 1), (8, 1), (0x14, 16), (0x20, 1)]) }) wRun, 5, ({ wOp 0x40 [7] with data := some (wPg 512 [(0, 7), (1, 1), (8, 1), (0x14, 16), (0x20, 1)]) }), wPg 512 [(0, 7), (1, 1), (8, 1), (0x14, 16), (0x20, 1)], 7, by unfold Starts; decide +kernel⟩,
   ⟨wPut (wOp 0x41 [7]) { wRun with bobs := [(7, { st := .idle })] }, 5, (wOp 0x41 [7]), 7, by unfold Starts; decide +kernel⟩,
   ⟨wPut (wOp 0x42 [7]) { wRun with bobs := [(7, { st := .armed })] }, 5, (wOp 0x42 [7]), 7, by unfold Starts; decide +kernel⟩,
   ⟨wPut (wOp 0x43 [7]) { wRun with bobs := [(7, { objects := [wObj] })], pwr := { wRun.pwr with selv := [{ kind := 2, index := 7, force := false, op := 9, closed := true }] } }, 5, (wOp 0x43 [7]), 7, .corrected, by unfold Starts; decide +kernel⟩,
   ⟨wPut (wOp 0x43 [7]) wRun, 5, (wOp 0x43 [7]), 7, .ok, by unfold Starts; decide +kernel⟩⟩

/-- States and operands that meet the hypotheses of Obligations.CaptureOperationsAndEngine. -/
theorem witness_CaptureOperationsAndEngine_2 :
  (∃ (s : State) (o : Nat) (op : Op) (b : _) (obj : _) (l : List Object) (size : _) (n : Nat), Starts s o 0x43 op ∧ b = op.u8 8 ∧ s.bobIso b = false ∧ (s.bob b).objects = obj :: l ∧ size = obj.size (s.bob b).cfg ∧ n = min (op.u32 0x18) (size - op.u64 0x10)) ∧
  (∃ (s : State) (o : Nat) (op : Op) (b : _) (obj : _) (l : List Object) (size : _) (n : Nat), Starts s o 0x43 op ∧ b = op.u8 8 ∧ s.bobIso b = false ∧ (s.bob b).objects = obj :: l ∧ size = obj.size (s.bob b).cfg ∧ n = min (op.u32 0x18) (size - op.u64 0x10)) ∧
  (∃ (s : State) (o : Nat) (op : Op) (b : _), Starts s o 0x44 op ∧ b = op.u8 8 ∧ s.bobIso b = true) ∧
  (∃ (s : State) (o : Nat) (op : Op) (b : _), Starts s o 0x44 op ∧ b = op.u8 8 ∧ s.bobIso b = false ∧ s.bobDrains b = true) ∧
  (∃ (s : State) (o : Nat) (op : Op) (b : _), Starts s o 0x44 op ∧ b = op.u8 8 ∧ s.bobIso b = false ∧ s.bobDrains b = false ∧ (s.bob b).mode = 0 ∧ (s.bob b).trigOp = none ∧ ((s.bob b).objects ≠ [] ∨ (s.bob b).st = .armed ∨ (s.bob b).st = .post ∨ (s.bob b).st = .gap)) :=
  ⟨⟨wPut (wOp 0x43 ([7] ++ List.replicate 15 0 ++ [16, 0])) { wRun with bobs := [(7, { cfg := wPg 512 [(1, 2)], objects := [wObj] })] }, 5, (wOp 0x43 ([7] ++ List.replicate 15 0 ++ [16, 0])), 7, wObj, [], 4096, 16, by unfold Starts; decide +kernel⟩,
   ⟨wPut (wOp 0x43 ([7] ++ List.replicate 15 0 ++ [16, 0])) { wRun with bobs := [(7, { cfg := wPg 512 [(1, 2)], objects := [wObj] })] }, 5, (wOp 0x43 ([7] ++ List.replicate 15 0 ++ [16, 0])), 7, wObj, [], 4096, 16, by unfold Starts; decide +kernel⟩,
   ⟨wPut (wOp 0x44 [7]) { wRun with pwr := { wRun.pwr with selv := [{ kind := 2, index := 7, force := false, op := 9, closed := true }] } }, 5, (wOp 0x44 [7]), 7, by unfold Starts; decide +kernel⟩,
   ⟨wPut (wOp 0x44 [7]) { wRun with cap := { drain := [(7, 7, 0)] } }, 5, (wOp 0x44 [7]), 7, by unfold Starts; decide +kernel⟩,
   ⟨wPut (wOp 0x44 [7]) { wRun with bobs := [(7, { st := .locked, cfg := wPg 512 [], objects := [wObj] })] }, 5, (wOp 0x44 [7]), 7, by unfold Starts; decide +kernel⟩⟩

/-- States and operands that meet the hypotheses of Obligations.CaptureOperationsAndEngine. -/
theorem witness_CaptureOperationsAndEngine_3 :
  (∃ (s : State) (o : Nat) (op : Op), Starts s o 0x45 op ∧ (List.range 8).any (fun b => bitOf (op.u8 9) b && s.bobIso b) = true) ∧
  (∃ (s : State) (o : Nat) (op : Op), Starts s o 0x45 op ∧ (List.range 8).any (fun b => bitOf (op.u8 9) b && s.bobIso b) = false) ∧
  (∃ (s : State) (o : Nat) (op : Op), Starts s o 0x46 op ∧ archRangeOk op.desc = false) ∧
  (∃ (s : State) (o : Nat) (op : Op), Starts s o 0x46 op ∧ op.u64 8 % 4096 = 0 ∧ op.u64 0x10 % 4096 = 0 ∧ op.u64 8 + op.u64 0x10 ≤ 2 ^ 52) ∧
  (∃ (s : State) (o : Nat) (op : Op) (r : List Byte), Starts s o 0x47 op ∧ r = slice op.desc 8 16 ∧ (traceCtlOk op.desc = false ∨ byteAt (s.bob (byteAt r 3 % 8)).cfg 1 ≠ 2)) :=
  ⟨⟨wPut (wOp 0x45 [0, 0xFF]) { wRun with pwr := { wRun.pwr with selv := [{ kind := 2, index := 7, force := false, op := 9, closed := true }] } }, 5, (wOp 0x45 [0, 0xFF]), by unfold Starts; decide +kernel⟩,
   ⟨wPut (wOp 0x45 [0, 0xFF]) wRun, 5, (wOp 0x45 [0, 0xFF]), by unfold Starts; decide +kernel⟩,
   ⟨wPut (wOp 0x46 [0, 0, 0, 0, 0, 0, 0, 0, 0, 16, 0, 0, 0, 0, 16]) wRun, 5, (wOp 0x46 [0, 0, 0, 0, 0, 0, 0, 0, 0, 16, 0, 0, 0, 0, 16]), by unfold Starts; decide +kernel⟩,
   ⟨wPut (wOp 0x46 [0, 0, 0, 0, 0, 0, 0, 0, 0, 16]) wRun, 5, (wOp 0x46 [0, 0, 0, 0, 0, 0, 0, 0, 0, 16]), by unfold Starts; decide +kernel⟩,
   ⟨wPut (wOp 0x47 [0, 0, 8]) wRun, 5, (wOp 0x47 [0, 0, 8]), [0, 0, 8] ++ List.replicate 13 0, by unfold Starts; decide +kernel⟩⟩

/-- States and operands that meet the hypotheses of Obligations.CaptureOperationsAndEngine. -/
theorem witness_CaptureOperationsAndEngine_4 :
  (∃ (s : State) (o : Nat) (op : Op) (r : List Byte), Starts s o 0x47 op ∧ r = slice op.desc 8 16 ∧ traceCtlOk op.desc = true ∧ byteAt (s.bob (byteAt r 3 % 8)).cfg 1 = 2 ∧ s.bobIso (byteAt r 3 % 8) = true) ∧
  (∃ (s : State) (o : Nat) (op : Op) (r : List Byte), Starts s o 0x47 op ∧ r = slice op.desc 8 16 ∧ traceCtlOk op.desc = true ∧ byteAt (s.bob (byteAt r 3 % 8)).cfg 1 = 2 ∧ s.bobIso (byteAt r 3 % 8) = false) ∧
  (∃ (s : State) (b : Fin 8) (f : Nat), (s.bob b).st = .post ∧ (s.bob b).sf = some f ∧ ((s.bob b).trigStep + bobPost (s.bob b).cfg) * bobDec (s.bob b).cfg ≤ f + 1) ∧
  (∃ (s : State) (b : Fin 8) (f : Nat) (a : Nat), (s.bob b).st = .armed ∧ (s.bob b).mode = 1 ∧ (s.bob b).sf = some f ∧ (s.bob b).since = some a ∧ (a + bobChunk (s.bob b).cfg) * bobDec (s.bob b).cfg ≤ f + 1) ∧
  (∃ (s : State) (a : Fin 8) (b : Nat) (q : Nat) (e : Extent) (l : List Extent) (x : Object), s.draining a = some (b, q) ∧ s.aqExtents a = e :: l ∧ s.objOf b q = some x ∧ s.bulkOff = false ∧ e.len - e.used ≤ s.unitsLeft b x) :=
  ⟨⟨wPut (wOp 0x47 [0, 0, 7, 7]) { wRun with bobs := [(7, { cfg := wPg 512 [(1, 2)] })], pwr := { wRun.pwr with selv := [{ kind := 2, index := 7, force := false, op := 9, closed := true }] } }, 5, (wOp 0x47 [0, 0, 7, 7]), [0, 0, 7, 7] ++ List.replicate 12 0, by unfold Starts; decide +kernel⟩,
   ⟨wPut (wOp 0x47 [0, 0, 7, 7]) { wRun with bobs := [(7, { cfg := wPg 512 [(1, 2)] })] }, 5, (wOp 0x47 [0, 0, 7, 7]), [0, 0, 7, 7] ++ List.replicate 12 0, by unfold Starts; decide +kernel⟩,
   ⟨{ wRun with bobs := [(7, { cfg := wPg 512 [(8, 1), (0x10, 2)], st := .post, sf := some 9, trigStep := 8 })] }, 7, 9, by decide +kernel⟩,
   ⟨{ wRun with bobs := [(7, { cfg := wPg 512 [(1, 1), (8, 1), (0x14, 2)], st := .armed, sf := some 9, since := some 8 })] }, 7, 9, 8, by decide +kernel⟩,
   ⟨{ wRun with cap := { drain := [(7, 7, 0)] }, extents := [(7, [{ bus := 0, len := 1, arch := 5, used := 0 }])], bobs := [(7, { cfg := wPg 512 [(1, 2)], objects := [{ wObj with bytes := List.replicate 4096 1 }] })] }, 7, 7, 0, { bus := 0, len := 1, arch := 5, used := 0 }, [], { wObj with bytes := List.replicate 4096 1 }, by decide +kernel⟩⟩

/-- States and operands that meet the hypotheses of Obligations.CaptureOperationsAndEngine. -/
theorem witness_CaptureOperationsAndEngine_5 :
  (∃ (s : State) (a : Fin 8) (b : Nat) (q : Nat) (x : Object), s.draining a = some (b, q) ∧ s.objOf b q = some x ∧ s.bulkOff = false ∧ (s.bob b).mode = 0 ∧ (s.bob b).st = .locked ∧ s.unitsLeft b x ≤ (match s.aqExtents a with | e :: _ => e.len - e.used | [] => 0)) ∧
  (∃ (s : State), s.traceEn = true ∧ s.cap.halted = false ∧ s.reached s.tackDue = true) ∧
  (∃ (s : State), (s.traceEn = false ∨ s.cap.halted = true ∨ s.reached s.tackDue = false)) :=
  ⟨⟨{ wRun with cap := { drain := [(7, 7, 0)] }, extents := [(7, [{ bus := 0, len := 1, arch := 5, used := 0 }])], bobs := [(7, { st := .locked, cfg := wPg 512 [], objects := [wObj] })] }, 7, 7, 0, wObj, by decide +kernel⟩,
   ⟨wAt 16000000 { wRun with cap := { traceCtl := [0, 0, 0, 0x80] } }, by decide +kernel⟩,
   ⟨wAt 15999999 { wRun with cap := { traceCtl := [0, 0, 0, 0x80] } }, by decide +kernel⟩⟩

/-- States and operands that meet the hypotheses of Obligations.StagedPagesAndSwaps. -/
theorem witness_StagedPagesAndSwaps_1 :
  (∃ (s : State) (o : Nat) (op : Op) (c : List Byte) (n : Nat), Starts s o 0x50 op ∧ op.data = some c ∧ n = op.u16 8) ∧
  (∃ (s : State) (o : Nat) (op : Op) (c : List Byte) (m : Nat), Starts s o 0x51 op ∧ op.data = some c ∧ m = op.u8 8) ∧
  (∃ (s : State) (o : Nat) (op : Op) (n : Nat), Starts s o 0x52 op ∧ op.u8 8 = 0 ∧ n = op.u16 0xA ∧ (s.cell n).staged = []) ∧
  (∃ (s : State) (o : Nat) (op : Op) (n : Nat), Starts s o 0x52 op ∧ op.u8 8 = 0 ∧ n = op.u16 0xA ∧ (s.cell n).staged ≠ [] ∧ (s.cell n).swapOp ≠ none) ∧
  (∃ (s : State) (o : Nat) (op : Op) (n : Nat), Starts s o 0x52 op ∧ op.u8 8 = 0 ∧ n = op.u16 0xA ∧ (s.cell n).staged ≠ [] ∧ (s.cell n).swapOp = none ∧ s.cellRuns n = true) :=
  ⟨⟨wPut ({ wOp 0x50 [0xFF, 3] with data := some (wPg 256 [(0, 0xFF), (1, 3)]) }) wRun, 5, ({ wOp 0x50 [0xFF, 3] with data := some (wPg 256 [(0, 0xFF), (1, 3)]) }), wPg 256 [(0, 0xFF), (1, 3)], 1023, by unfold Starts; decide +kernel⟩,
   ⟨wPut ({ wOp 0x51 [63] with data := some (wPg 1024 [(0, 63)]) }) wRun, 5, ({ wOp 0x51 [63] with data := some (wPg 1024 [(0, 63)]) }), wPg 1024 [(0, 63)], 63, by unfold Starts; decide +kernel⟩,
   ⟨wPut (wOp 0x52 [0, 0, 0xFF, 3]) wRun, 5, (wOp 0x52 [0, 0, 0xFF, 3]), 1023, by unfold Starts; decide +kernel⟩,
   ⟨wPut (wOp 0x52 [0, 0, 0xFF, 3]) { wRun with cells := [(1023, { staged := [1], swapOp := some 4 })] }, 5, (wOp 0x52 [0, 0, 0xFF, 3]), 1023, by unfold Starts; decide +kernel⟩,
   ⟨wPut (wOp 0x52 [0, 0, 0xFF, 3]) { wRun with lanes := [(1023, { st := .run })], rails := [(0, { tAct := 32000 })], cells := [(1023, { active := [0, 0xFF, 0, 0], staged := [1] })] }, 5, (wOp 0x52 [0, 0, 0xFF, 3]), 1023, by unfold Starts; decide +kernel⟩⟩

/-- States and operands that meet the hypotheses of Obligations.StagedPagesAndSwaps. -/
theorem witness_StagedPagesAndSwaps_2 :
  (∃ (s : State) (o : Nat) (op : Op) (n : Nat), Starts s o 0x52 op ∧ op.u8 8 = 0 ∧ n = op.u16 0xA ∧ (s.cell n).staged ≠ [] ∧ (s.cell n).swapOp = none ∧ s.cellRuns n = false ∧ ((s.lane n).live = false ∨ (s.cell n).active ≠ []) ∧ s.swapWaits o = false) ∧
  (∃ (s : State) (o : Nat) (op : Op) (n : Nat), Starts s o 0x52 op ∧ op.u8 8 = 0 ∧ n = op.u16 0xA ∧ (s.cell n).staged ≠ [] ∧ (s.cell n).swapOp = none ∧ s.cellRuns n = false ∧ (s.lane n).live = true ∧ (s.cell n).active = [] ∧ (cpShortLow (s.cell n).staged = false ∨ bitOf (((s.lane n).auxOf 0xE).getD 0) 15 = true)) ∧
  (∃ (s : State) (o : Nat) (op : Op) (m : Nat), Starts s o 0x52 op ∧ op.u8 8 = 2 ∧ m = op.u16 0xA ∧ (s.rail m).staged = []) ∧
  (∃ (s : State) (o : Nat) (op : Op) (m : Nat), Starts s o 0x52 op ∧ op.u8 8 = 2 ∧ m = op.u16 0xA ∧ (s.rail m).staged ≠ [] ∧ ((s.rail m).swapOp ≠ none ∨ (s.rail m).swapBusy (s.rail m).staged = true)) ∧
  (∃ (s : State) (o : Nat) (op : Op) (m : Nat), Starts s o 0x52 op ∧ op.u8 8 = 2 ∧ m = op.u16 0xA ∧ (s.rail m).staged ≠ [] ∧ (s.rail m).swapOp = none ∧ (s.rail m).swapBusy (s.rail m).staged = false ∧ (s.rail m).hasPage = true) :=
  ⟨⟨wPut (wOp 0x52 [0, 0, 0xFF, 3]) { wRun with cells := [(1023, { staged := [1] })] }, 5, (wOp 0x52 [0, 0, 0xFF, 3]), 1023, by unfold Starts; decide +kernel⟩,
   ⟨wPut (wOp 0x52 [0, 0, 0xFF, 3]) { wRun with cells := [(1023, { staged := [1] })], lanes := [(1023, { st := .parked })] }, 5, (wOp 0x52 [0, 0, 0xFF, 3]), 1023, by unfold Starts; decide +kernel⟩,
   ⟨wPut (wOp 0x52 [2, 0, 63]) wRun, 5, (wOp 0x52 [2, 0, 63]), 63, by unfold Starts; decide +kernel⟩,
   ⟨wPut (wOp 0x52 [2, 0, 63]) { wRun with rails := [(63, { st := .run, staged := [0, 1] })] }, 5, (wOp 0x52 [2, 0, 63]), 63, by unfold Starts; decide +kernel⟩,
   ⟨wPut (wOp 0x52 [2, 0, 63]) { wRun with rails := [(63, { st := .standby, active := [0, 0, 1], staged := [0, 0, 1] })] }, 5, (wOp 0x52 [2, 0, 63]), 63, by unfold Starts; decide +kernel⟩⟩

/-- States and operands that meet the hypotheses of Obligations.StagedPagesAndSwaps. -/
theorem witness_StagedPagesAndSwaps_3 :
  (∃ (s : State) (o : Nat) (op : Op) (m : Nat), Starts s o 0x52 op ∧ op.u8 8 = 2 ∧ m = op.u16 0xA ∧ (s.rail m).staged ≠ [] ∧ (s.rail m).swapOp = none ∧ (s.rail m).hasPage = false ∧ (s.rail m).st = .off ∧ s.swapWaits o = false ∧ ((∀ x ∈ s.marks, x.who ≠ .setpoint o))) ∧
  (∃ (s : State) (o : Nat) (op : Op) (m : Nat), Starts s o 0x52 op ∧ op.u8 8 = 1 ∧ m = op.u16 0xA ∧ (s.rail m).staged ≠ [] ∧ (s.rail m).swapOp = none ∧ (s.rail m).swapBusy (s.rail m).staged = false ∧ (s.rail m).hasPage = true ∧ ((∀ n ∈ s.swapCells m, (s.cell n).staged ≠ [] ∧ (s.cell n).swapOp = none ∧ s.cellRuns n = true))) :=
  ⟨⟨wPut (wOp 0x52 [2, 0, 63]) { wRun with rails := [(63, { staged := [0, 1] })] }, 5, (wOp 0x52 [2, 0, 63]), 63, by unfold Starts; decide +kernel⟩,
   ⟨wPut (wOp 0x52 [1, 0, 63]) { wRun with rails := [(63, { st := .standby, tAct := 32000, active := wPg 1024 [(0x5F, 0x80)], staged := wPg 1024 [(0x5F, 0x80)] })], cells := [(1023, { active := [0, 0xFF, 63, 3], staged := [1] })], lanes := [(1023, { st := .run })] }, 5, (wOp 0x52 [1, 0, 63]), 63, by unfold Starts; decide +kernel⟩⟩

/-- States and operands that meet the hypotheses of Obligations.ProfilesAndNvm. -/
theorem witness_ProfilesAndNvm_1 :
  (∃ (s : State) (o : Nat) (op : Op) (c : List Byte) (n : Nat), Starts s o 0x53 op ∧ op.data = some c ∧ n = op.u16 8 ∧ ((bitOf (op.u16 0xC) 0 = true ∧ (s.lane n).status.getLsbD 10 = false) ∨ (s.lane n).profOp ≠ none)) ∧
  (∃ (s : State) (o : Nat) (op : Op) (c : List Byte) (n : Nat), Starts s o 0x53 op ∧ op.data = some c ∧ n = op.u16 8 ∧ ((bitOf (op.u16 0xC) 0 = false ∨ (s.lane n).status.getLsbD 10 = true)) ∧ (s.lane n).profOp = none) ∧
  (∃ (s : State) (o : Nat) (op : Op), s.liveOp o 0x53 = some op ∧ op.committed = true ∧ s.reached (op.since + 16000000) = true ∧ o < planTag) ∧
  (∃ (s : State) (o : Nat) (op : Op), s.liveOp o 0x53 = some op ∧ (op.committed = false ∨ s.reached (op.since + 16000000) = false)) ∧
  (∃ (s : State) (o : Nat) (op : Op) (n : Nat) (e : Ecc), Starts s o 0x60 op ∧ s.nvmBusy = false ∧ n = min (op.u32 0xC) (0x100000 - op.u32 8) ∧ (e ≠ .uncorrectable ∨ n = 0)) :=
  ⟨⟨wPut ({ wOp 0x53 [0xFF, 3, 0, 0, 1] with data := some (List.replicate 256 0) }) { wRun with lanes := [(1023, { st := .run })] }, 5, ({ wOp 0x53 [0xFF, 3, 0, 0, 1] with data := some (List.replicate 256 0) }), List.replicate 256 0, 1023, by unfold Starts; decide +kernel⟩,
   ⟨wPut ({ wOp 0x53 [0xFF, 3, 0, 0, 1] with data := some (List.replicate 256 0) }) { wRun with lanes := [(1023, { st := .run, status := 0x400 })] }, 5, ({ wOp 0x53 [0xFF, 3, 0, 0, 1] with data := some (List.replicate 256 0) }), List.replicate 256 0, 1023, by unfold Starts; decide +kernel⟩,
   ⟨wAt 16000000 <| wPut ({ wGo 0x53 [0xFF, 3] with committed := true }) { wRun with lanes := [(1023, { st := .run, profOp := some 5 })] }, 5, ({ wGo 0x53 [0xFF, 3] with committed := true }), by decide +kernel⟩,
   ⟨wAt 15999999 <| wPut ({ wGo 0x53 [0xFF, 3] with committed := true }) { wRun with lanes := [(1023, { st := .run, profOp := some 5 })] }, 5, ({ wGo 0x53 [0xFF, 3] with committed := true }), by decide +kernel⟩,
   ⟨wPut (wOp 0x60 [0xFF, 0xFF, 0xF, 0, 4]) wRun, 5, (wOp 0x60 [0xFF, 0xFF, 0xF, 0, 4]), 1, .corrected, by unfold Starts; decide +kernel⟩⟩

/-- States and operands that meet the hypotheses of Obligations.ProfilesAndNvm. -/
theorem witness_ProfilesAndNvm_2 :
  (∃ (s : State) (o : Nat) (op : Op) (n : Nat), Starts s o 0x60 op ∧ s.nvmBusy = false ∧ n = min (op.u32 0xC) (0x100000 - op.u32 8) ∧ n ≠ 0) ∧
  (∃ (s : State) (o : Nat) (op : Op) (c : List Byte), Starts s o 0x61 op ∧ op.data = some c ∧ s.pageDenied (op.u16 8) = true) ∧
  (∃ (s : State) (o : Nat) (op : Op) (c : List Byte), Starts s o 0x61 op ∧ op.data = some c ∧ s.pageDenied (op.u16 8) = false ∧ s.nvm.job = none ∧ s.sup.brace = false ∧ s.nvm.waitSup = [] ∧ s.nvm.waitHost = []) ∧
  (∃ (s : State) (o : Nat) (op : Op) (c : List Byte), Starts s o 0x61 op ∧ op.data = some c ∧ s.pageDenied (op.u16 8) = false ∧ s.nvm.job ≠ none) ∧
  (∃ (s : State) (o : Nat) (op : Op) (c : List Byte), Starts s o 0x62 op ∧ op.data = some c ∧ (op.u16 0xC = 0 ∨ 240 < op.u16 0xC)) :=
  ⟨⟨wPut (wOp 0x60 [0xFF, 0xFF, 0xF, 0, 4]) wRun, 5, (wOp 0x60 [0xFF, 0xFF, 0xF, 0, 4]), 1, by unfold Starts; decide +kernel⟩,
   ⟨wPut ({ wOp 0x61 [0x20] with data := some (List.replicate 256 0) }) wRun, 5, ({ wOp 0x61 [0x20] with data := some (List.replicate 256 0) }), List.replicate 256 0, by unfold Starts; decide +kernel⟩,
   ⟨wPut ({ wOp 0x61 [0x20, 4] with data := some (List.replicate 256 0) }) wRun, 5, ({ wOp 0x61 [0x20, 4] with data := some (List.replicate 256 0) }), List.replicate 256 0, by unfold Starts; decide +kernel⟩,
   ⟨wPut ({ wOp 0x61 [0x20, 4] with data := some (List.replicate 256 0) }) { wRun with nvm := { job := some { owner := .twowire, page := 16, data := [] } } }, 5, ({ wOp 0x61 [0x20, 4] with data := some (List.replicate 256 0) }), List.replicate 256 0, by unfold Starts; decide +kernel⟩,
   ⟨wPut ({ wOp 0x62 [3, 0, 0, 0, 0xF1] with data := some [1, 2] }) wRun, 5, ({ wOp 0x62 [3, 0, 0, 0, 0xF1] with data := some [1, 2] }), [1, 2], by unfold Starts; decide +kernel⟩⟩

/-- States and operands that meet the hypotheses of Obligations.ProfilesAndNvm. -/
theorem witness_ProfilesAndNvm_3 :
  (∃ (s : State) (o : Nat) (op : Op) (c : List Byte), Starts s o 0x62 op ∧ op.data = some c ∧ 1 ≤ op.u16 0xC ∧ op.u16 0xC ≤ 240 ∧ op.u8 8 < 3) ∧
  (∃ (s : State) (o : Nat) (op : Op) (c : List Byte), Starts s o 0x62 op ∧ op.data = some c ∧ 1 ≤ op.u16 0xC ∧ op.u16 0xC ≤ 240 ∧ 3 ≤ op.u8 8 ∧ s.nvm.job = none ∧ s.sup.brace = false ∧ s.nvm.waitSup = [] ∧ s.nvm.waitHost = []) ∧
  (∃ (s : State) (o : Nat) (op : Op), Starts s o 0x63 op ∧ s.nvmBusy = false) ∧
  (∃ (s : State) (o : Nat) (op : Op) (e : Ecc), Starts s o 0x63 op ∧ s.nvmBusy = false ∧ e ≠ .uncorrectable) ∧
  (∃ (s : State) (o : Nat) (op : Op) (page : _) (data : _), GoesOn s o 0x61 op ∧ s.nvm.job = some { owner := .host o, page := page, data := data } ∧ s.nvm.waitSup = [] ∧ s.nvm.waitHost = [] ∧ data.length = 256) :=
  ⟨⟨wPut ({ wOp 0x62 [2, 0, 0, 0, 2] with data := some [1, 2] }) wRun, 5, ({ wOp 0x62 [2, 0, 0, 0, 2] with data := some [1, 2] }), [1, 2], by unfold Starts; decide +kernel⟩,
   ⟨wPut ({ wOp 0x62 [3, 0, 0, 0, 0xF0] with data := some [1, 2] }) wRun, 5, ({ wOp 0x62 [3, 0, 0, 0, 0xF0] with data := some [1, 2] }), [1, 2], by unfold Starts; decide +kernel⟩,
   ⟨wPut (wOp 0x63 []) wRun, 5, (wOp 0x63 []), by unfold Starts; decide +kernel⟩,
   ⟨wPut (wOp 0x63 []) wRun, 5, (wOp 0x63 []), .corrected, by unfold Starts; decide +kernel⟩,
   ⟨wPut (wGo 0x61 [0xFF, 7]) { wRun with nvm := { job := some { owner := .host 5, page := 0x7FF, data := List.replicate 256 0 } } }, 5, (wGo 0x61 [0xFF, 7]), 0x7FF, List.replicate 256 0, by unfold GoesOn; decide +kernel⟩⟩

/-- States and operands that meet the hypotheses of Obligations.ProfilesAndNvm. -/
theorem witness_ProfilesAndNvm_4 :
  (∃ (s : State) (o : Nat) (op : Op) (page : _) (data : _), GoesOn s o 0x61 op ∧ s.nvm.job = some { owner := .host o, page := page, data := data } ∧ s.nvm.waitSup = [] ∧ s.nvm.waitHost = [] ∧ data.length = 256) :=
  ⟨wPut (wGo 0x61 [0xFF, 7]) { wRun with nvm := { job := some { owner := .host 5, page := 0x7FF, data := List.replicate 256 0 } } }, 5, (wGo 0x61 [0xFF, 7]), 0x7FF, List.replicate 256 0, by unfold GoesOn; decide +kernel⟩

/-- States and operands that meet the hypotheses of Obligations.SecurityOperations. -/
theorem witness_SecurityOperations_1 :
  (∃ (s : State) (o : Nat) (op : Op) (st : Nat), Starts s o 0x70 op ∧ s.challengeStatus = some st) ∧
  (∃ (s : State) (o : Nat) (op : Op), Starts s o 0x70 op ∧ 8 ≤ s.sec.respFails) ∧
  (∃ (s : State) (o : Nat) (op : Op), Starts s o 0x70 op ∧ s.challengeStatus = none) ∧
  (∃ (s : State) (o : Nat) (op : Op), Starts s o 0x71 op ∧ op.data = none) ∧
  (∃ (s : State) (o : Nat) (op : Op) (sig : List Byte), (Starts s o 0x71 op ∨ GoesOn s o 0x71 op) ∧ op.data = some sig) :=
  ⟨⟨wPut (wOp 0x70 []) { wRun with nvm := { lc := .sealed } }, 5, (wOp 0x70 []), stNotReady, by unfold Starts; decide +kernel⟩,
   ⟨wPut (wOp 0x70 []) { wRun with nvm := { lc := .sealed }, sec := { respFails := 8, rngReady := true } }, 5, (wOp 0x70 []), by unfold Starts; decide +kernel⟩,
   ⟨wPut (wOp 0x70 []) { wRun with nvm := { lc := .ret }, sec := { respFails := 7, rngReady := true } }, 5, (wOp 0x70 []), by unfold Starts; decide +kernel⟩,
   ⟨wPut (wOp 0x71 []) wRun, 5, (wOp 0x71 []), by unfold Starts; decide +kernel⟩,
   ⟨wPut ({ wOp 0x71 [] with data := some (List.replicate 64 0) }) { wRun with nvm := { lc := .sealed } }, 5, ({ wOp 0x71 [] with data := some (List.replicate 64 0) }), List.replicate 64 0, by unfold Starts GoesOn; decide +kernel⟩⟩

/-- States and operands that meet the hypotheses of Obligations.SecurityOperations. -/
theorem witness_SecurityOperations_2 :
  (∃ (s : State) (o : Nat) (op : Op) (drawn : Nat), Starts s o 0x72 op ∧ (op.u16 8 = 0 ∨ 4096 < op.u16 8)) ∧
  (∃ (s : State) (o : Nat) (op : Op) (drawn : Nat), Starts s o 0x72 op ∧ 1 ≤ op.u16 8 ∧ op.u16 8 ≤ 4096 ∧ s.sec.rngReady = false) ∧
  (∃ (s : State) (o : Nat) (op : Op) (drawn : Nat) (m : Nat), ((Starts s o 0x72 op ∧ 1 ≤ op.u16 8 ∧ op.u16 8 ≤ 4096 ∧ s.sec.rngReady = true) ∨ GoesOn s o 0x72 op) ∧ op.step ≤ op.u16 8 ∧ m = min drawn (op.u16 8 - op.step)) ∧
  (∃ (s : State) (o : Nat) (op : Op), s.rngRuns = true ∧ GoesOn s o 0x72 op ∧ s.ops.filter (fun p => p.code == 0x72 && p.accepted && !p.done) = [op]) ∧
  (∃ (s : State) (o : Nat) (op : Op), Starts s o 0x73 op ∧ 5 < op.u8 8) :=
  ⟨⟨wPut (wOp 0x72 [1, 0x10]) wRun, 5, (wOp 0x72 [1, 0x10]), 0, by unfold Starts; decide +kernel⟩,
   ⟨wPut (wOp 0x72 [0, 0x10]) wRun, 5, (wOp 0x72 [0, 0x10]), 0, by unfold Starts; decide +kernel⟩,
   ⟨wPut ({ wGo 0x72 [0, 0x10] with step := 4000 }) { wRun with sec := { rngReady := true } }, 5, ({ wGo 0x72 [0, 0x10] with step := 4000 }), 97, 96, by unfold Starts GoesOn; decide +kernel⟩,
   ⟨wWith (wGo 0x72 [0, 0x10]), 5, wGo 0x72 [0, 0x10], by unfold GoesOn; decide +kernel⟩,
   ⟨wPut (wOp 0x73 [6]) wRun, 5, (wOp 0x73 [6]), by unfold Starts; decide +kernel⟩⟩

/-- States and operands that meet the hypotheses of Obligations.SecurityOperations. -/
theorem witness_SecurityOperations_3 :
  (∃ (s : State) (o : Nat) (op : Op), Starts s o 0x73 op ∧ op.u8 8 ≤ 5 ∧ (op.u8 8 = 3 → s.nvm.lc = .integration → (s.keyHash.any (· != 0)) = true ∧ s.guardsGood = true) ∧ s.lcDenied (op.u8 8) = true) ∧
  (∃ (s : State) (o : Nat) (op : Op), Starts s o 0x73 op ∧ op.u8 8 ≤ 5 ∧ (op.u8 8 = 3 → s.nvm.lc = .integration → (s.keyHash.any (· != 0)) = true ∧ s.guardsGood = true) ∧ s.lcDenied (op.u8 8) = false ∧ ((s.nvm.lcJob ≠ none ∨ (op.u8 8 = 3 ∧ s.anyRun = true)))) ∧
  (∃ (s : State) (o : Nat) (op : Op), Starts s o 0x73 op ∧ op.u8 8 ≤ 5 ∧ (op.u8 8 = 3 → s.nvm.lc = .integration → (s.keyHash.any (· != 0)) = true ∧ s.guardsGood = true) ∧ s.lcDenied (op.u8 8) = false ∧ s.nvm.lcJob = none ∧ (op.u8 8 ≠ 3 ∨ s.anyRun = false)) :=
  ⟨⟨wPut (wOp 0x73 [5]) { wRun with nvm := { lc := .vendor } }, 5, (wOp 0x73 [5]), by unfold Starts; decide +kernel⟩,
   ⟨wPut (wOp 0x73 [5]) { wRun with nvm := { lc := .integration, lcJob := some (4, []) } }, 5, (wOp 0x73 [5]), by unfold Starts; decide +kernel⟩,
   ⟨wPut (wOp 0x73 [5]) { wRun with nvm := { lc := .ret, reopened := true } }, 5, (wOp 0x73 [5]), by unfold Starts; decide +kernel⟩⟩

/-- States and operands that meet the hypotheses of Obligations.QuarantineAndIsland. -/
theorem witness_QuarantineAndIsland_1 :
  (∃ (s : State) (o : Nat) (op : Op), Starts s o 0x80 op ∧ s.selvClosed (op.u8 8) (op.u16 0xA) = true) ∧
  (∃ (s : State) (o : Nat) (op : Op), Starts s o 0x80 op ∧ s.selvClosed (op.u8 8) (op.u16 0xA) = false ∧ op.u8 0xC ≠ 1 ∧ s.quarantineOk (op.u8 8) (op.u16 0xA) = false) ∧
  (∃ (s : State) (o : Nat) (op : Op), Starts s o 0x80 op ∧ s.selvClosed (op.u8 8) (op.u16 0xA) = false ∧ ((∃ v ∈ s.pwr.selv, v.kind = op.u8 8 ∧ v.index = op.u16 0xA))) ∧
  (∃ (s : State) (o : Nat) (op : Op), Starts s o 0x80 op ∧ ((∀ v ∈ s.pwr.selv, v.kind ≠ op.u8 8 ∨ v.index ≠ op.u16 0xA)) ∧ (op.u8 0xC = 1 ∨ s.quarantineOk (op.u8 8) (op.u16 0xA) = true)) ∧
  (∃ (s : State) (o : Nat) (op : Op) (v : Selvedge), GoesOn s o 0x80 op ∧ s.pwr.selv.find? (fun v => v.op == o && !v.closed) = some v ∧ s.selvReady v.kind v.index = true) :=
  ⟨⟨wPut (wOp 0x80 [1, 0, 63]) { wRun with pwr := { wRun.pwr with selv := [{ kind := 1, index := 63, force := false, op := 9, closed := true }] } }, 5, (wOp 0x80 [1, 0, 63]), by unfold Starts; decide +kernel⟩,
   ⟨wPut (wOp 0x80 [2, 0, 7]) { wRun with bobs := [(7, { objects := [wObj] })] }, 5, (wOp 0x80 [2, 0, 7]), by unfold Starts; decide +kernel⟩,
   ⟨wPut (wOp 0x80 [1, 0, 63]) { wRun with pwr := { wRun.pwr with selv := [{ kind := 1, index := 63, force := false, op := 4, closed := false }] } }, 5, (wOp 0x80 [1, 0, 63]), by unfold Starts; decide +kernel⟩,
   ⟨wPut (wOp 0x80 [1, 0, 63]) wRun, 5, (wOp 0x80 [1, 0, 63]), by unfold Starts; decide +kernel⟩,
   ⟨wPut (wGo 0x80 [1, 0, 63]) { wRun with pwr := { wRun.pwr with selv := [{ kind := 1, index := 63, force := false, op := 5, closed := false }] } }, 5, (wGo 0x80 [1, 0, 63]), { kind := 1, index := 63, force := false, op := 5, closed := false }, by unfold GoesOn; decide +kernel⟩⟩

/-- States and operands that meet the hypotheses of Obligations.QuarantineAndIsland. -/
theorem witness_QuarantineAndIsland_2 :
  (∃ (s : State) (o : Nat) (op : Op) (v : Selvedge), GoesOn s o 0x80 op ∧ s.pwr.selv.find? (fun v => v.op == o && !v.closed) = some v ∧ s.selvReady v.kind v.index = false) ∧
  (∃ (s : State) (o : Nat) (op : Op), GoesOn s o 0x80 op ∧ s.reached (op.since + 160000000) = false) ∧
  (∃ (s : State) (o : Nat) (op : Op) (v : Selvedge), GoesOn s o 0x80 op ∧ s.pwr.selv.find? (fun v => v.op == o && !v.closed) = some v ∧ s.reached (op.since + 160000000) = true) ∧
  (∃ (s : State) (o : Nat) (op : Op), Starts s o 0x81 op ∧ s.selvClosed (op.u8 8) (op.u16 0xA) = false) ∧
  (∃ (s : State) (o : Nat) (op : Op), Starts s o 0x81 op ∧ s.selvClosed (op.u8 8) (op.u16 0xA) = true ∧ op.u8 8 = 3 ∧ s.pwr.islandOp ≠ none) :=
  ⟨⟨{ wRun with ops := [wGo 0x80 [1, 0, 63], { wGo 0x82 [0xFF, 3] with tag := 4, committed := true }], pwr := { wRun.pwr with selv := [{ kind := 1, index := 63, force := false, op := 5, closed := false }] } }, 5, (wGo 0x80 [1, 0, 63]), { kind := 1, index := 63, force := false, op := 5, closed := false }, by unfold GoesOn; decide +kernel⟩,
   ⟨wAt 159999999 (wWith (wGo 0x80 [1, 0, 63])), 5, (wGo 0x80 [1, 0, 63]), by unfold GoesOn; decide +kernel⟩,
   ⟨wAt 160000000 <| wPut (wGo 0x80 [1, 0, 63]) { wRun with pwr := { wRun.pwr with selv := [{ kind := 1, index := 63, force := false, op := 5, closed := false }] } }, 5, (wGo 0x80 [1, 0, 63]), { kind := 1, index := 63, force := false, op := 5, closed := false }, by unfold GoesOn; decide +kernel⟩,
   ⟨wPut (wOp 0x81 [1, 0, 63]) wRun, 5, (wOp 0x81 [1, 0, 63]), by unfold Starts; decide +kernel⟩,
   ⟨wPut (wOp 0x81 [3]) { wRun with pwr := { wRun.pwr with islandOp := some 4, selv := [{ kind := 3, index := 0, force := false, op := 9, closed := true }] } }, 5, (wOp 0x81 [3]), by unfold Starts; decide +kernel⟩⟩

/-- States and operands that meet the hypotheses of Obligations.QuarantineAndIsland. -/
theorem witness_QuarantineAndIsland_3 :
  (∃ (s : State) (o : Nat) (op : Op), Starts s o 0x81 op ∧ s.selvClosed (op.u8 8) (op.u16 0xA) = true ∧ (op.u8 8 ≠ 3 ∨ s.pwr.islandOp = none)) ∧
  (∃ (s : State) (o : Nat) (op : Op), Starts s o 0x85 op ∧ (s.selvClosed 3 0 = false ∨ s.pwr.islandOp ≠ none)) ∧
  (∃ (s : State) (o : Nat) (op : Op), Starts s o 0x85 op ∧ s.selvClosed 3 0 = true ∧ s.pwr.islandOp = none) ∧
  (∃ (s : State) (o : Nat) (op : Op), GoesOn s o 0x85 op ∧ s.pwr.islandOp = some o ∧ s.reached (op.since + 160000000) = false) ∧
  (∃ (s : State) (o : Nat) (op : Op), GoesOn s o 0x85 op ∧ s.pwr.islandOp = some o ∧ s.reached (op.since + 160000000) = true) :=
  ⟨⟨wPut (wOp 0x81 [1, 0, 63]) { wRun with pwr := { wRun.pwr with selv := [{ kind := 1, index := 63, force := false, op := 9, closed := true }] } }, 5, (wOp 0x81 [1, 0, 63]), by unfold Starts; decide +kernel⟩,
   ⟨wPut (wOp 0x85 []) wRun, 5, (wOp 0x85 []), by unfold Starts; decide +kernel⟩,
   ⟨wPut (wOp 0x85 []) { wRun with pwr := { wRun.pwr with selv := [{ kind := 3, index := 0, force := false, op := 9, closed := true }] } }, 5, (wOp 0x85 []), by unfold Starts; decide +kernel⟩,
   ⟨wPut (wGo 0x85 []) { wRun with pwr := { wRun.pwr with islandOp := some 5, island := false, selv := [{ kind := 3, index := 0, force := false, op := 9, closed := true }] } }, 5, (wGo 0x85 []), by unfold GoesOn; decide +kernel⟩,
   ⟨wAt 160000000 <| wPut (wGo 0x85 []) { wRun with pwr := { wRun.pwr with islandOp := some 5, island := false, selv := [{ kind := 3, index := 0, force := false, op := 9, closed := true }] } }, 5, (wGo 0x85 []), by unfold GoesOn; decide +kernel⟩⟩

/-- States and operands that meet the hypotheses of Obligations.ImageLoads. -/
theorem witness_ImageLoads_1 :
  (∃ (s : State) (o : Nat) (op : Op), Starts s o 0x84 op ∧ op.u8 8 = 0) ∧
  (∃ (s : State) (o : Nat) (op : Op), Starts s o 0x84 op ∧ op.u8 8 = 1) ∧
  (∃ (s : State) (u : State) (o : Nat) (op : Op), s.findOp o = some op ∧ op.done = false ∧ o < planTag ∧ s.sec.staging.head? = some o ∧ s.sec.staged = none ∧ u = { s with sec := { s.sec with staging := s.sec.staging.filter (· ≠ o) } }) ∧
  (∃ (s : State) (u : State) (o : Nat) (op : Op) (b : List Byte) (st : Nat), s.findOp o = some op ∧ op.done = false ∧ o < planTag ∧ s.sec.staging.head? = some o ∧ s.sec.staged = none ∧ u = { s with sec := { s.sec with staging := s.sec.staging.filter (· ≠ o) } } ∧ s.imageStatus b (imageKind op) = some st ∧ (s.imageTarget op = none ∨ st = stBadDesc)) ∧
  (∃ (s : State) (u : State) (o : Nat) (op : Op) (b : List Byte), s.findOp o = some op ∧ op.done = false ∧ o < planTag ∧ s.sec.staging.head? = some o ∧ s.sec.staged = none ∧ u = { s with sec := { s.sec with staging := s.sec.staging.filter (· ≠ o) } } ∧ s.imageStatus b (imageKind op) = some stDenied ∧ s.imageTarget op ≠ some stBadDesc) :=
  ⟨⟨wPut (wOp 0x84 [0, 0, 0xFF, 3]) wRun, 5, (wOp 0x84 [0, 0, 0xFF, 3]), by unfold Starts; decide +kernel⟩,
   ⟨wPut (wOp 0x84 [1]) wRun, 5, (wOp 0x84 [1]), by unfold Starts; decide +kernel⟩,
   ⟨{ wWith (wGo 0x84 [0, 0, 0xFF, 3]) with sec := { staging := [5] } }, { ({ wWith (wGo 0x84 [0, 0, 0xFF, 3]) with sec := { staging := [5] } } : State) with sec := { } }, 5, wGo 0x84 [0, 0, 0xFF, 3], by decide +kernel⟩,
   ⟨{ wWith (wGo 0x30 [0]) with sec := { staging := [5] } }, { ({ wWith (wGo 0x30 [0]) with sec := { staging := [5] } } : State) with sec := { } }, 5, wGo 0x30 [0], [], stBadDesc, by decide +kernel⟩,
   ⟨{ wWith (wGo 0x84 [0, 0, 0xFF, 3]) with sec := { staging := [5] } }, { ({ wWith (wGo 0x84 [0, 0, 0xFF, 3]) with sec := { staging := [5] } } : State) with sec := { } }, 5, wGo 0x84 [0, 0, 0xFF, 3], wImg 2 4, by decide +kernel⟩⟩

/-- States and operands that meet the hypotheses of Obligations.ImageLoads. -/
theorem witness_ImageLoads_2 :
  (∃ (s : State) (u : State) (o : Nat) (op : Op) (b : List Byte) (st : Nat), s.findOp o = some op ∧ op.done = false ∧ o < planTag ∧ s.sec.staging.head? = some o ∧ s.sec.staged = none ∧ u = { s with sec := { s.sec with staging := s.sec.staging.filter (· ≠ o) } } ∧ (s.imageStatus b (imageKind op) = none ∨ s.imageStatus b (imageKind op) = some stTooLarge) ∧ s.imageTarget op = some st) ∧
  (∃ (s : State) (u : State) (o : Nat) (op : Op) (b : List Byte), s.findOp o = some op ∧ op.done = false ∧ o < planTag ∧ s.sec.staging.head? = some o ∧ s.sec.staged = none ∧ u = { s with sec := { s.sec with staging := s.sec.staging.filter (· ≠ o) } } ∧ op.code = 0x30) ∧
  (∃ (s : State) (u : State) (o : Nat) (op : Op) (b : List Byte), s.findOp o = some op ∧ op.done = false ∧ o < planTag ∧ s.sec.staging.head? = some o ∧ s.sec.staged = none ∧ u = { s with sec := { s.sec with staging := s.sec.staging.filter (· ≠ o) } } ∧ op.code = 0x84 ∧ op.u8 8 = 0) ∧
  (∃ (s : State) (u : State) (o : Nat) (op : Op) (b : List Byte), s.findOp o = some op ∧ op.done = false ∧ o < planTag ∧ s.sec.staging.head? = some o ∧ s.sec.staged = none ∧ u = { s with sec := { s.sec with staging := s.sec.staging.filter (· ≠ o) } } ∧ op.code = 0x84 ∧ op.u8 8 = 1 ∧ s.nvm.job ≠ none) ∧
  (∃ (s : State) (u : State) (o : Nat) (op : Op) (b : List Byte), s.findOp o = some op ∧ op.done = false ∧ o < planTag ∧ s.sec.staging.head? = some o ∧ s.sec.staged = none ∧ u = { s with sec := { s.sec with staging := s.sec.staging.filter (· ≠ o) } } ∧ op.code = 0x82 ∧ s.relieveStatus (op.u16 8) = none) :=
  ⟨⟨{ wWith (wGo 0x84 [0, 0, 0xFF, 3]) with sec := { staging := [5] }, regs := wKeyRegs, engines := [(1023, { st := .run })] }, { ({ wWith (wGo 0x84 [0, 0, 0xFF, 3]) with sec := { staging := [5] }, regs := wKeyRegs, engines := [(1023, { st := .run })] } : State) with sec := { } }, 5, wGo 0x84 [0, 0, 0xFF, 3], wImg 2 1028, stBusy, by decide +kernel⟩,
   ⟨{ wWith (wGo 0x30 [0]) with sec := { staging := [5] } }, { ({ wWith (wGo 0x30 [0]) with sec := { staging := [5] } } : State) with sec := { } }, 5, wGo 0x30 [0], [], by decide +kernel⟩,
   ⟨{ wWith (wGo 0x84 [0, 0, 0xFF, 3]) with sec := { staging := [5] } }, { ({ wWith (wGo 0x84 [0, 0, 0xFF, 3]) with sec := { staging := [5] } } : State) with sec := { } }, 5, wGo 0x84 [0, 0, 0xFF, 3], [], by decide +kernel⟩,
   ⟨{ wWith (wGo 0x84 [1]) with sec := { staging := [5] }, nvm := { job := some { owner := .twowire, page := 16, data := [] } } }, { ({ wWith (wGo 0x84 [1]) with sec := { staging := [5] }, nvm := { job := some { owner := .twowire, page := 16, data := [] } } } : State) with sec := { } }, 5, wGo 0x84 [1], [], by decide +kernel⟩,
   ⟨{ wWith (wGo 0x82 [0xFF, 3]) with sec := { staging := [5] }, lanes := [(1023, { st := .run })] }, { ({ wWith (wGo 0x82 [0xFF, 3]) with sec := { staging := [5] }, lanes := [(1023, { st := .run })] } : State) with sec := { } }, 5, wGo 0x82 [0xFF, 3], [], by decide +kernel⟩⟩

/-- States and operands that meet the hypotheses of Obligations.ImageLoads. -/
theorem witness_ImageLoads_3 :
  (∃ (s : State) (k : Fin 2) (o : Nat), s.sec.fwOp = some o ∧ bitOf s.sec.fwPairs k = false ∧ s.sec.fwPairs + 2 ^ k.val ≠ 3) ∧
  (∃ (s : State) (k : Fin 2) (o : Nat) (op : Op), s.sec.fwOp = some o ∧ bitOf s.sec.fwPairs k = false ∧ s.sec.fwPairs + 2 ^ k.val = 3 ∧ s.findOp o = some op ∧ op.done = false ∧ o < planTag ∧ s.sec.fwWrites = []) ∧
  (∃ (s : State) (k : Fin 2) (o : Nat), s.sec.fwOp = some o ∧ s.pwr.st ≠ .off) :=
  ⟨⟨{ wRun with sec := { fwOp := some 5, fwPairs := 0 } }, 1, 5, by decide +kernel⟩,
   ⟨wPut (wGo 0x84 [1]) { wRun with sec := { fwOp := some 5, fwPairs := 1 } }, 1, 5, (wGo 0x84 [1]), by decide +kernel⟩,
   ⟨{ wRun with sec := { fwOp := some 5, fwPairs := 1 } }, 1, 5, by decide +kernel⟩⟩

/-- States and operands that meet the hypotheses of Obligations.TwinLossesAndBids. -/
theorem witness_TwinLossesAndBids_1 :
  (∃ (s : State) (c : Instr) (bit : Nat), (c, bit) ∈ [(Instr.takeReqLow, 0), (Instr.yieldReceived, 1), (Instr.aliveLoss, 2), (Instr.linkLoss, 3)] ∧ s.pwr.st ≠ .sleep ∧ (bit = 3 → 16000 ≤ (s.time.st - s.twin.frameAt).toNat)) ∧
  (∃ (s : State), (s.time.st - s.twin.frameAt).toNat < 16000) ∧
  (∃ (s : State), (s.twin.st ≠ .taking ∨ s.twin.bidAt = none ∨ (∃ a, s.twin.bidAt = some a ∧ (s.time.st - a).toNat < 48000))) ∧
  (∃ (s : State) (r : Nat) (m : Nat) (a : DWord), s.twin.st = .taking ∧ s.twin.bidAt = some a ∧ 48000 ≤ (s.time.st - a).toNat ∧ s.masterCount = (r, m) ∧ (if s.port then r < 2 * m else r ≤ 2 * m)) ∧
  (∃ (s : State) (r : Nat) (m : Nat) (a : DWord), s.twin.st = .taking ∧ s.twin.bidAt = some a ∧ 48000 ≤ (s.time.st - a).toNat ∧ s.masterCount = (r, m) ∧ (¬(if s.port then r < 2 * m else r ≤ 2 * m)) ∧ ((∀ a ∈ s.ops, ∀ b ∈ s.ops, a.tag = b.tag → a = b))) :=
  ⟨⟨wAt 16000 wRun, .linkLoss, 3, by decide +kernel⟩,
   ⟨wAt 15999 wRun, by decide +kernel⟩,
   ⟨{ wAt 47999 wRun with twin := { st := .taking, bidAt := some 0 } }, by exact Or.inr (Or.inr ⟨0, by decide +kernel⟩)⟩,
   ⟨{ wAt 48000 wRun with twin := { st := .taking, bidAt := some 0 }, lanes := [(1, { st := .run, status := 0x200 }), (2, { st := .run })] }, 2, 1, 0, by decide +kernel⟩,
   ⟨{ wAt 48000 wRun with twin := { st := .taking, bidAt := some 0 }, lanes := [(1, { st := .run, status := 0x200 }), (2, { st := .run }), (3, { st := .run })] }, 3, 1, 0, by decide +kernel⟩⟩

/-- States and operands that meet the hypotheses of Obligations.TwinLossesAndBids. -/
theorem witness_TwinLossesAndBids_2 :
  (∃ (s : State), s.pwr.st ≠ .off) :=
  ⟨wRun, by decide +kernel⟩

/-- States and operands that meet the hypotheses of Obligations.TwinLinkItems. -/
theorem witness_TwinLinkItems_1 :
  (∃ (s : State) (st : DWord) (ps : TwinState) (term : Word) (up : Byte) (port : Bool) (grade : BitVec 2) (proto : Byte), (grade == s.grade && proto == 0x01 && port != s.port) = false) ∧
  (∃ (s : State) (i : DvItem), ((∀ a b c d e f g, i ≠ .stamp a b c d e f g)) ∧ s.twin.link = false) ∧
  (∃ (s : State) (d : List Byte) (a : DWord), s.twin.dvUp ≠ 0 ∧ s.twin.link = true ∧ s.follows = true) ∧
  (∃ (s : State) (m : Fin 64) (v : Word) (a : DWord), s.twin.dvUp ≠ 0 ∧ s.twin.link = true ∧ s.follows = true) ∧
  (∃ (s : State) (g : Grant), s.twin.dvUp ≠ 0 ∧ s.twin.link = true ∧ s.follows = true) :=
  ⟨⟨wRun, 7, .off, 0, 0xFF, true, 0, 2, by decide +kernel⟩,
   ⟨{ wRun with twin := { dvUp := 0xFF, link := false } }, .outDigest 0 0, by exact ⟨by intros; exact nofun, rfl⟩⟩,
   ⟨{ wRun with twin := { st := .shadow, dvUp := 0xFF, link := true } }, wDesc 0x10 [63], 9, by decide +kernel⟩,
   ⟨{ wRun with twin := { st := .shadow, dvUp := 0xFF, link := true } }, 63, 5, 9, by decide +kernel⟩,
   ⟨{ wRun with twin := { st := .shadow, dvUp := 0xFF, link := true } }, wGrant, by decide +kernel⟩⟩

/-- States and operands that meet the hypotheses of Obligations.TwinLinkItems. -/
theorem witness_TwinLinkItems_2 :
  (∃ (s : State) (r : PassResult), s.twin.dvUp ≠ 0 ∧ s.twin.link = true ∧ s.follows = true) ∧
  (∃ (s : State) (m : Fin 64), ((∀ e ∈ s.twin.mism, e.1 = m.val → ¬(320000 ≤ ((s.rail m).leadAt - e.2).toNat ∧ ((s.rail m).leadAt - e.2).toNat < 2 ^ 63)))) ∧
  (∃ (s : State) (m : Fin 64) (a : DWord), (m.val, a) ∈ s.twin.mism ∧ 320000 ≤ ((s.rail m).leadAt - a).toNat ∧ ((s.rail m).leadAt - a).toNat < 2 ^ 63) ∧
  (∃ (s : State) (a : DWord), s.twin.aliveAt = some a ∧ (s.time.st - a).toNat < 4096) ∧
  (∃ (s : State), (s.pwr.st = .starting ∨ s.pwr.st = .run ∨ s.pwr.st = .trim ∨ s.pwr.st = .park) ∧ ((∀ a, s.twin.aliveAt = some a → 4096 ≤ (s.time.st - a).toNat))) :=
  ⟨⟨{ wRun with twin := { st := .joining, joinStep := 3, dvUp := 0xFF, link := true } }, { slot := 1, startSt := 0, grants := [], targets := [], shed := [] }, by decide +kernel⟩,
   ⟨{ wRail { active := [0, 1], leadAt := 320000 } with twin := { st := .shadow, mism := [(63, 1)] } }, 63, by decide +kernel⟩,
   ⟨{ wRail { active := [0, 1], leadAt := 320001 } with twin := { st := .shadow, mism := [(63, 1)] } }, 63, 1, by decide +kernel⟩,
   ⟨{ wAt 4096 wRun with twin := { aliveAt := some 1 } }, 1, by decide +kernel⟩,
   ⟨{ wAt 4096 (wIn .starting) with twin := { aliveAt := some 0 } }, by exact ⟨by decide +kernel, fun a h => by have h2 : some (0 : DWord) = some a := h; cases h2; decide +kernel⟩⟩⟩

/-- States and operands that meet the hypotheses of Obligations.TwinCommandsAndJoins. -/
theorem witness_TwinCommandsAndJoins_1 :
  (∃ (s : State) (key : Byte), key ≠ 0x5A) ∧
  (∃ (s : State) (key : Byte), key ≠ 0x5A) ∧
  (∃ (s : State) (key : Byte), key ≠ 0x5A) ∧
  (∃ (s : State) (key : Byte), s.ringsUp = false) ∧
  (∃ (s : State) (key : Byte), s.ringsUp = false) :=
  ⟨⟨wRun, 0xA5, by decide +kernel⟩,
   ⟨wRun, 0xA5, by decide +kernel⟩,
   ⟨wRun, 0xA5, by decide +kernel⟩,
   ⟨{ wRun with host := {} }, 0x5A, by decide +kernel⟩,
   ⟨{ wRun with host := {} }, 0x5A, by decide +kernel⟩⟩

/-- States and operands that meet the hypotheses of Obligations.TwinCommandsAndJoins. -/
theorem witness_TwinCommandsAndJoins_2 :
  (∃ (s : State) (key : Byte), s.ringsUp = false) ∧
  (∃ (s : State), s.ringsUp = true ∧ (s.alignedTwin && s.twin.link) = false) ∧
  (∃ (s : State), s.ringsUp = true ∧ (s.alignedTwin && s.twin.link) = true) ∧
  (∃ (s : State), s.ringsUp = true ∧ (s.twin.st ≠ .off ∨ s.twin.link = true ∨ s.pwr.st = .park)) ∧
  (∃ (s : State), s.ringsUp = true ∧ s.twin.st = .off ∧ s.twin.link = false ∧ s.pwr.st ≠ .park) :=
  ⟨⟨{ wRun with host := {} }, 0x5A, by decide +kernel⟩,
   ⟨{ wRun with twin := { st := .active, peer := .shadow, aligned := true, link := false } }, by decide +kernel⟩,
   ⟨{ wRun with twin := { st := .active, peer := .shadow, aligned := true, link := true } }, by decide +kernel⟩,
   ⟨{ wRun with twin := { st := .off, link := true } }, by decide +kernel⟩,
   ⟨{ wRun with twin := { st := .off } }, by decide +kernel⟩⟩

/-- States and operands that meet the hypotheses of Obligations.TwinCommandsAndJoins. -/
theorem witness_TwinCommandsAndJoins_3 :
  (∃ (s : State), s.ringsUp = true ∧ s.twin.st ≠ .joining ∧ s.twin.st ≠ .shadow ∧ s.twin.st ≠ .detached) ∧
  (∃ (s : State), s.ringsUp = true ∧ (s.twin.st = .joining ∨ s.twin.st = .shadow ∨ s.twin.st = .detached)) ∧
  (∃ (s : State), (s.twin.st ≠ .off ∨ s.twin.waiting = false ∨ s.twin.link = true ∨ 2 ≤ s.twin.waits ∨ (s.time.st - s.twin.waitAt).toNat < (s.twin.waits + 1) * s.startWait)) ∧
  (∃ (s : State), s.twin.st = .off ∧ s.twin.waiting = true ∧ s.twin.link = false ∧ s.twin.waits < 2 ∧ (s.twin.waits + 1) * s.startWait ≤ (s.time.st - s.twin.waitAt).toNat ∧ (s.port = false ∨ (s.twin.waits ≠ 0 ∧ s.twin.aliveIn = false))) ∧
  (∃ (s : State), s.twin.st = .off ∧ s.twin.waiting = true ∧ s.twin.link = false ∧ s.twin.waits < 2 ∧ (s.twin.waits + 1) * s.startWait ≤ (s.time.st - s.twin.waitAt).toNat ∧ s.port = true ∧ s.twin.waits = 0) :=
  ⟨⟨{ wRun with twin := { st := .active } }, by decide +kernel⟩,
   ⟨{ wRun with twin := { st := .joining } }, by decide +kernel⟩,
   ⟨{ wAt 1599999999 wRun with twin := { st := .off, waiting := true }, regs := wReg Reg.twinCfg 0 0 }, by decide +kernel⟩,
   ⟨{ wAt 1600000000 wRun with twin := { st := .off, waiting := true }, regs := wReg Reg.twinCfg 0 0 }, by decide +kernel⟩,
   ⟨{ wAt 1600000000 wRun with twin := { st := .off, waiting := true }, regs := wReg Reg.twinCfg 0 0x80000000 }, by decide +kernel⟩⟩

/-- States and operands that meet the hypotheses of Obligations.TwinCommandsAndJoins. -/
theorem witness_TwinCommandsAndJoins_4 :
  (∃ (s : State), s.twin.st = .off ∧ s.twin.waiting = true ∧ s.twin.link = false ∧ s.twin.waits < 2 ∧ (s.twin.waits + 1) * s.startWait ≤ (s.time.st - s.twin.waitAt).toNat ∧ s.port = true ∧ s.twin.waits ≠ 0 ∧ s.twin.aliveIn = true) ∧
  (∃ (s : State), s.twin.st = .joining ∧ s.twin.joinStep = 1) ∧
  (∃ (s : State), s.twin.st = .joining ∧ s.twin.joinStep = 3 ∧ max 1 (fld (s.reg Reg.twinCfg) 15 8) ≤ s.twin.joinCount) ∧
  (∃ (s : State), s.twin.term = s.storedTerm) ∧
  (∃ (s : State), s.twin.term ≠ s.storedTerm ∧ s.nvm.job ≠ none) :=
  ⟨⟨{ wAt 3200000000 wRun with twin := { st := .off, waiting := true, waits := 1, aliveIn := true }, regs := wReg Reg.twinCfg 0 0x80000000 }, by decide +kernel⟩,
   ⟨{ wRun with twin := { st := .joining, joinStep := 1 } }, by decide +kernel⟩,
   ⟨{ { wRun with twin := { st := .joining, joinStep := 3, joinCount := 2 } } with regs := wReg Reg.twinCfg 0 0x200 }, by decide +kernel⟩,
   ⟨wRun, by decide +kernel⟩,
   ⟨{ { wRun with twin := { term := 4 } } with nvm := { job := some { owner := .twowire, page := 16, data := [] } } }, by decide +kernel⟩⟩

/-- States and operands that meet the hypotheses of Obligations.TwinCommandsAndJoins. -/
theorem witness_TwinCommandsAndJoins_5 :
  (∃ (s : State), s.twin.term ≠ s.storedTerm ∧ s.nvm.job = none ∧ s.sup.brace = false ∧ s.nvm.waitSup = []) :=
  ⟨{ wRun with twin := { term := 4 } }, by decide +kernel⟩

/-- States and operands that meet the hypotheses of Obligations.SupplySequencing. -/
theorem witness_SupplySequencing_1 :
  (∃ (s : State), s.sup.seq = 1 ∧ s.sup.seqGood = false ∧ (s.wc (s.sup.seqRail - 1)).rd = .inside) ∧
  (∃ (s : State) (k : Nat), s.sup.seq = 1 ∧ s.sup.seqGood = true ∧ s.passed s.sup.seqAt (1000 * fld (s.reg Reg.supSeqCfg) 7 0) = true ∧ 2 ≤ k ∧ k ≤ s.sup.target ∧ k ≤ 12 ∧ s.sup.en.getLsbD (k - 1) = false ∧ ((∀ j, 2 ≤ j → j < k → s.sup.en.getLsbD (j - 1) = true))) ∧
  (∃ (s : State), (s.sup.seq ≠ 1 ∨ s.sup.seqGood = false ∨ s.passed s.sup.seqAt (1000 * fld (s.reg Reg.supSeqCfg) 7 0) = false)) ∧
  (∃ (s : State), s.sup.seq = 1 ∧ s.sup.seqGood = true ∧ s.passed s.sup.seqAt (1000 * fld (s.reg Reg.supSeqCfg) 7 0) = true ∧ s.pwr.st ≠ .sleep ∧ ((∀ j, 2 ≤ j → j ≤ 12 → j ≤ s.sup.target → s.sup.en.getLsbD (j - 1) = true))) ∧
  (∃ (s : State), (s.sup.seq ≠ 1 ∨ s.sup.seqGood = true ∨ s.passed s.sup.seqAt (msCycles * max 1 (fld (s.reg Reg.supSeqCfg) 15 8)) = false)) :=
  ⟨⟨{ wRun with sup := { seq := 1, seqRail := 12, target := 12, en := 0xFFF#12 } }, by decide +kernel⟩,
   ⟨{ ({ wRun with regs := wReg Reg.supSeqCfg 0 1, sup := { seq := 1, seqRail := 11, seqGood := true, target := 12, en := 0x7FF#12 } } : State) with cycles := 1000 }, 12, by exact ⟨by decide +kernel, by decide +kernel, by decide +kernel, by decide +kernel, by decide +kernel, by decide +kernel, by decide +kernel, by intro j h1 h2; have : j < 12 := h2; interval_cases j <;> decide +kernel⟩⟩,
   ⟨{ ({ wRun with regs := wReg Reg.supSeqCfg 0 1, sup := { seq := 1, seqRail := 11, seqGood := true, target := 12, en := 0x7FF#12 } } : State) with cycles := 999 }, by decide +kernel⟩,
   ⟨{ ({ wRun with regs := wReg Reg.supSeqCfg 0 1, sup := { seq := 1, seqRail := 12, seqGood := true, target := 12, en := 0xFFF#12 } } : State) with cycles := 1000 }, by exact ⟨by decide +kernel, by decide +kernel, by decide +kernel, by decide +kernel, by intro j h1 h2 h3; have : j ≤ 12 := h2; interval_cases j <;> decide +kernel⟩⟩,
   ⟨{ ({ wRun with regs := wReg Reg.supSeqCfg 0 0x100, sup := { seq := 1, seqRail := 2, target := 12, en := 3 } } : State) with cycles := 99999 }, by decide +kernel⟩⟩

/-- States and operands that meet the hypotheses of Obligations.SupplySequencing. -/
theorem witness_SupplySequencing_2 :
  (∃ (s : State), s.sup.seq = 1 ∧ s.sup.seqGood = false ∧ s.passed s.sup.seqAt (msCycles * max 1 (fld (s.reg Reg.supSeqCfg) 15 8)) = true ∧ s.pwr.st ≠ .sleep ∧ 1 < s.sup.top) ∧
  (∃ (s : State), s.sup.seq = 3 ∧ s.sup.seqRail ≠ 1 ∧ ((s.wc (s.sup.seqRail - 1)).rd = .below ∨ s.passed s.sup.seqAt (10 * msCycles) = true) ∧ s.sup.target < s.sup.top) ∧
  (∃ (s : State), (s.wc (s.sup.seqRail - 1)).rd ≠ .below ∧ s.passed s.sup.seqAt (10 * msCycles) = false) ∧
  (∃ (s : State), (s.pwr.retry = false ∨ s.sup.seq ≠ 4 ∨ s.passed s.sup.seqAt (1000 * msCycles) = false)) ∧
  (∃ (s : State), s.pwr.retry = true ∧ s.sup.seq = 4 ∧ s.passed s.sup.seqAt (1000 * msCycles) = true) :=
  ⟨⟨{ ({ wRun with regs := wReg Reg.supSeqCfg 0 0x100, sup := { seq := 1, seqRail := 2, target := 12, en := 3 } } : State) with cycles := 100000 }, by decide +kernel⟩,
   ⟨{ ({ wRun with sup := { seq := 3, seqRail := 12, target := 1, en := 0x7FF#12 } } : State) with cycles := 1000000 }, by decide +kernel⟩,
   ⟨{ ({ wRun with sup := { seq := 3, seqRail := 12, target := 1, en := 0x7FF#12 } } : State) with cycles := 999999 }, by decide +kernel⟩,
   ⟨{ ({ wRun with sup := { seq := 4 }, pwr := { wRun.pwr with retry := true } } : State) with cycles := 99999999 }, by decide +kernel⟩,
   ⟨{ ({ wRun with sup := { seq := 4 }, pwr := { wRun.pwr with retry := true } } : State) with cycles := 100000000 }, by decide +kernel⟩⟩

/-- States and operands that meet the hypotheses of Obligations.SupplySequencing. -/
theorem witness_SupplySequencing_3 :
  (∃ (s : State) (i : Fin 16) (r : WcRead), (s.wc i).rd ≠ r ∧ (s.wc i).stres ≠ 3 ∧ (s.supervised (i + 1) = false ∨ r = .inside) ∧ s.pwr.st ≠ .sleep) ∧
  (∃ (s : State) (i : Fin 16) (r : WcRead), (s.wc i).rd ≠ r ∧ (s.wc i).stres ≠ 3 ∧ s.supervised (i + 1) = true ∧ r ≠ .inside ∧ s.pwr.st ≠ .off ∧ s.pwr.st ≠ .sleep) ∧
  (∃ (s : State) (p : Path) (v : Word), s.pathUp p = true ∧ fld v 4 2 ≠ 0) ∧
  (∃ (s : State) (ok : Bool) (i : Nat) (w : Wc), s.wcs.find? (fun e => e.2.stres == 3) = some (i, w) ∧ s.passed w.testAt (10 * usCycles) = false) ∧
  (∃ (s : State) (ok : Bool) (i : Nat) (w : Wc), s.wcs.find? (fun e => e.2.stres == 3) = some (i, w) ∧ s.passed w.testAt (10 * usCycles) = true) :=
  ⟨⟨{ wRun with sup := { seq := 2, target := 12, en := 0xFFF#12 } }, 15, .below, by decide +kernel⟩,
   ⟨{ wRun with sup := { seq := 2, target := 12, en := 0xFFF#12 } }, 11, .below, by decide +kernel⟩,
   ⟨wRun, .bar0, 0x13, by decide +kernel⟩,
   ⟨{ ({ wRun with wcs := [(15, { stres := 3 })] } : State) with cycles := 999 }, true, 15, { stres := 3 }, by decide +kernel⟩,
   ⟨{ ({ wRun with wcs := [(15, { stres := 3 })] } : State) with cycles := 1000 }, true, 15, { stres := 3 }, by decide +kernel⟩⟩

/-- States and operands that meet the hypotheses of Obligations.SupplySequencing. -/
theorem witness_SupplySequencing_4 :
  (∃ (s : State) (p : Path) (v : Word), s.pathUp p = false) :=
  ⟨{ wRun with host := {} }, .bar0, 0, by decide +kernel⟩

/-- States and operands that meet the hypotheses of Obligations.SupplyAndHousekeeping. -/
theorem witness_SupplyAndHousekeeping_1 :
  (∃ (s : State) (mv : BitVec 12), s.sup.brace = false ∧ fld (s.reg Reg.supVinCfg) 27 16 ≠ 0 ∧ mv.toNat < fld (s.reg Reg.supVinCfg) 11 0) ∧
  (∃ (s : State), (s.sup.brace = false ∨ s.sup.vinOk = false ∨ s.passed s.sup.vinOkAt (98 * usCycles) = false)) ∧
  (∃ (s : State), s.sup.brace = true ∧ s.sup.vinOk = true ∧ s.passed s.sup.vinOkAt (98 * usCycles) = true) ∧
  (∃ (s : State) (mv : BitVec 12), mv.toNat < fld (s.reg Reg.supVinCfg) 27 16 ∧ s.pwr.st ≠ .off) ∧
  (∃ (s : State) (mv : BitVec 12), fld (s.reg Reg.supVinCfg) 27 16 ≤ mv.toNat) :=
  ⟨⟨{ wRun with regs := wReg Reg.supVinCfg 0 0x1000FFF }, 0xFFE, by decide +kernel⟩,
   ⟨{ ({ wRun with sup := { brace := true } } : State) with cycles := 9799 }, by decide +kernel⟩,
   ⟨{ ({ wRun with sup := { brace := true } } : State) with cycles := 9800 }, by decide +kernel⟩,
   ⟨{ wRun with regs := wReg Reg.supVinCfg 0 0xFFF0FFF }, 0xFFE, by decide +kernel⟩,
   ⟨{ wRun with regs := wReg Reg.supVinCfg 0 0xFFF0FFF }, 0xFFF, by decide +kernel⟩⟩

/-- States and operands that meet the hypotheses of Obligations.SupplyAndHousekeeping. -/
theorem witness_SupplyAndHousekeeping_2 :
  (∃ (s : State), s.hkMode = 1) ∧
  (∃ (s : State) (a : Nat) (rest : List Nat), (s.hkMode = 2 ∨ s.hkMode = 3) ∧ s.sup.hkDue = a :: rest ∧ s.passed a 0 = true) ∧
  (∃ (s : State), (s.hkMode = 0 ∨ (s.hkMode ≠ 1 ∧ (∀ a ∈ s.sup.hkDue.head?, s.passed a 0 = false)))) ∧
  (∃ (s : State) (codes : List (BitVec 12)), (s.sup.hkBusy = false ∨ s.passed s.sup.hkAt s.hkLen = false)) ∧
  (∃ (s : State) (codes : List (BitVec 12)), s.sup.hkBusy = true ∧ s.passed s.sup.hkAt s.hkLen = true) :=
  ⟨⟨{ wRun with regs := wReg Reg.supHkCtl 0 0x40000000 }, by decide +kernel⟩,
   ⟨{ ({ wRun with sup := { hkDue := [3] }, regs := wReg Reg.supHkCtl 0 0xC0000000 } : State) with cycles := 3 }, 3, [], by decide +kernel⟩,
   ⟨{ wRun with regs := wReg Reg.supHkCtl 0 0 }, by decide +kernel⟩,
   ⟨{ wRun with sup := { hkBusy := true }, regs := wReg Reg.supHkCtl 0 0x40000000 }, [0xFFF, 1, 2], by decide +kernel⟩,
   ⟨{ ({ wRun with sup := { hkBusy := true }, regs := wReg Reg.supHkCtl 0 0x40000000 } : State) with cycles := 10000000 }, [0xFFF, 1, 2], by decide +kernel⟩⟩

/-- States and operands that meet the hypotheses of Obligations.SupplyAndHousekeeping. -/
theorem witness_SupplyAndHousekeeping_3 :
  (∃ (s : State) (l : List (Option (BitVec 16))), s.tempDue = false) ∧
  (∃ (s : State) (l : List (Option (BitVec 16))), s.tempDue = true ∧ s.sup.hkBusy = true) ∧
  (∃ (s : State) (l : List (Option (BitVec 16))), s.tempDue = true ∧ s.sup.hkBusy = false) ∧
  (∃ (s : State) (c : ThrClass), (s.thrt c ≠ .requested ∨ s.passed (s.thrtAt c) (msCycles * max 1 (fld (s.reg Reg.supThrCfg) 15 0)) = false)) ∧
  (∃ (s : State) (c : ThrClass), s.thrt c = .requested ∧ s.passed (s.thrtAt c) (msCycles * max 1 (fld (s.reg Reg.supThrCfg) 15 0)) = true) :=
  ⟨⟨wRun, [some 5, none], by decide +kernel⟩,
   ⟨{ wRun with sup := { hkBusy := true, hkTempDue := true }, regs := wReg Reg.supHkCtl 0 0x40000000 }, [some 5, none], by decide +kernel⟩,
   ⟨{ wRun with sup := { hkTempDue := true }, regs := wReg Reg.supHkCtl 0 0x40000000 }, [some 5, none], by decide +kernel⟩,
   ⟨{ ({ wRun with sup := { bulk := .requested }, regs := wReg Reg.supThrCfg 0 1 } : State) with cycles := 99999 }, .bulk, by decide +kernel⟩,
   ⟨{ ({ wRun with sup := { bulk := .requested }, regs := wReg Reg.supThrCfg 0 1 } : State) with cycles := 100000 }, .bulk, by decide +kernel⟩⟩

/-- States and operands that meet the hypotheses of Obligations.SupplyAndHousekeeping. -/
theorem witness_SupplyAndHousekeeping_4 :
  (∃ (s : State), s.pwr.st ≠ .off ∧ RstSrc.therm ∉ s.pwr.held) :=
  ⟨wRun, by decide +kernel⟩

/-- States and operands that meet the hypotheses of Obligations.ClockWatchdogAndButton. -/
theorem witness_ClockWatchdogAndButton_1 :
  (∃ (s : State), s.passed s.sup.rtcAt (999 * msCycles) = false) ∧
  (∃ (s : State) (se : Nat) (mi : Nat) (ho : Nat) (da : Nat) (mo : Nat) (ye : Nat) (len : Nat), s.passed s.sup.rtcAt (999 * msCycles) = true ∧ (len = (if mo = 4 ∨ mo = 6 ∨ mo = 9 ∨ mo = 11 then 30 else if mo = 2 then (if ye % 4 = 0 then 29 else 28) else 31)) ∧ se < 60 ∧ mi < 60 ∧ ho < 24 ∧ 1 ≤ da ∧ da ≤ len ∧ 1 ≤ mo ∧ mo ≤ 12 ∧ ye < 100 ∧ s.rtc 0 = bcdOf se ∧ s.rtc 1 = bcdOf mi ∧ s.rtc 2 = bcdOf ho ∧ s.rtc 3 = bcdOf da ∧ s.rtc 4 = bcdOf mo ∧ s.rtc 5 = bcdOf ye) ∧
  (∃ (s : State) (p : Path) (i : Nat) (v : Word), s.pathUp p = true ∧ i < 6) ∧
  (∃ (s : State) (i : Nat), s.pathUp .bar0 = true ∧ i < 6) ∧
  (∃ (s : State) (off : Nat) (v : Word), s.pathUp .bar0 = false) :=
  ⟨⟨{ ({ wRun with sup := { rtc := [(0, 0x59), (1, 0x59), (2, 0x23), (3, 0x29), (4, 0x02), (5, 0x96)] } } : State) with cycles := 99899999 }, by decide +kernel⟩,
   ⟨{ ({ wRun with sup := { rtc := [(0, 0x59), (1, 0x59), (2, 0x23), (3, 0x29), (4, 0x02), (5, 0x96)] } } : State) with cycles := 99900000 }, 59, 59, 23, 29, 2, 96, 29, by decide +kernel⟩,
   ⟨wRun, .bar0, 5, 0x99, by decide +kernel⟩,
   ⟨wRun, 5, by decide +kernel⟩,
   ⟨{ wRun with host := {} }, 0, 0, by decide +kernel⟩⟩

/-- States and operands that meet the hypotheses of Obligations.ClockWatchdogAndButton. -/
theorem witness_ClockWatchdogAndButton_2 :
  (∃ (s : State) (off : Nat) (v : Word), s.pathUp .bar0 = false) ∧
  (∃ (s : State) (v : Word), v.toNat % 65536 = 0xA5C3) ∧
  (∃ (s : State) (v : Word) (a : Nat), v.toNat % 65536 = 0x3C5A ∧ s.sup.wdtKeyAt = some a ∧ s.cycles ≤ a + msCycles) ∧
  (∃ (s : State) (v : Word), v.toNat % 65536 ≠ 0xA5C3 ∧ (v.toNat % 65536 ≠ 0x3C5A ∨ (∀ a, s.sup.wdtKeyAt = some a → a + msCycles < s.cycles))) ∧
  (∃ (s : State), (s.sup.wdtRun = false ∨ s.loaderKicks = true ∨ fld (s.reg Reg.supWdtCtl) 29 28 = 3 ∨ s.sup.wdtSaid = true ∨ s.passed s.sup.wdtSince s.warnAt = false)) :=
  ⟨⟨{ wRun with host := {} }, 0xA0114, 0x99, by decide +kernel⟩,
   ⟨{ wRun with sup := { wdtRun := true } }, 0xA5C3, by decide +kernel⟩,
   ⟨{ ({ wRun with sup := { wdtRun := true, wdtKeyAt := some 1 } } : State) with cycles := 100001 }, 0x3C5A, 1, by decide +kernel⟩,
   ⟨{ wRun with sup := { wdtRun := true } }, 0x3C5A, by decide +kernel⟩,
   ⟨{ ({ wRun with sup := { wdtRun := true }, regs := wReg Reg.supWdtCtl 0 8 } : State) with cycles := 359999 }, by decide +kernel⟩⟩

/-- States and operands that meet the hypotheses of Obligations.ClockWatchdogAndButton. -/
theorem witness_ClockWatchdogAndButton_3 :
  (∃ (s : State), (s.sup.wdtRun = false ∨ s.loaderKicks = true ∨ s.passed s.sup.wdtSince (90000 * s.wdtTimeout) = false)) ∧
  (∃ (s : State), s.sup.wdtRun = true ∧ s.loaderKicks = false ∧ fld (s.reg Reg.supWdtCtl) 29 28 ≠ 3 ∧ s.sup.wdtSaid = false ∧ s.passed s.sup.wdtSince s.warnAt = true ∧ s.pwr.st ≠ .sleep) ∧
  (∃ (s : State), s.sup.wdtRun = true ∧ s.loaderKicks = false ∧ s.passed s.sup.wdtSince (90000 * s.wdtTimeout) = true ∧ s.pwr.st ≠ .off) ∧
  (∃ (s : State), s.sup.wdtRun = true ∧ s.loaderKicks = false ∧ s.passed s.sup.wdtSince (90000 * s.wdtTimeout) = true ∧ s.pwr.st = .off) ∧
  (∃ (s : State) (ms : Nat), (ms < 50 ∨ 4000 ≤ ms)) :=
  ⟨⟨{ ({ wRun with sup := { wdtRun := true }, regs := wReg Reg.supWdtCtl 0 8 } : State) with cycles := 719999 }, by decide +kernel⟩,
   ⟨{ ({ wRun with sup := { wdtRun := true }, regs := wReg Reg.supWdtCtl 0 8 } : State) with cycles := 360000 }, by decide +kernel⟩,
   ⟨{ ({ wRun with sup := { wdtRun := true }, regs := wReg Reg.supWdtCtl 0 8 } : State) with cycles := 720000 }, by decide +kernel⟩,
   ⟨{ ({ wRun with sup := { wdtRun := true }, regs := wReg Reg.supWdtCtl 0 8, pwr := { wRun.pwr with st := .off } } : State) with cycles := 720000 }, by decide +kernel⟩,
   ⟨wRun, 4000, by decide +kernel⟩⟩

/-- States and operands that meet the hypotheses of Obligations.ClockWatchdogAndButton. -/
theorem witness_ClockWatchdogAndButton_4 :
  (∃ (s : State) (ms : Nat), 50 ≤ ms ∧ ms < 4000 ∧ s.pwr.st ≠ .off ∧ s.pwr.st ≠ .sleep) ∧
  (∃ (s : State) (ms : Nat), 50 ≤ ms ∧ ms < 4000 ∧ s.pwr.st = .off) ∧
  (∃ (s : State), s.pwr.st ≠ .off) ∧
  (∃ (s : State), s.pwr.st = .off) ∧
  (∃ (s : State), s.sup.pressed = true ∧ s.passed s.sup.pressAt (8000 * msCycles) = false) :=
  ⟨⟨wRun, 50, by decide +kernel⟩,
   ⟨wIn .off, 3999, by decide +kernel⟩,
   ⟨wRun, by decide +kernel⟩,
   ⟨wIn .off, by decide +kernel⟩,
   ⟨{ ({ wRun with sup := { pressed := true } } : State) with cycles := 799999999 }, by decide +kernel⟩⟩

/-- States and operands that meet the hypotheses of Obligations.ClockWatchdogAndButton. -/
theorem witness_ClockWatchdogAndButton_5 :
  (∃ (s : State), (s.sup.pressed = false ∨ s.passed s.sup.pressAt (8000 * msCycles) = true)) ∧
  (∃ (s : State) (ms : Nat), (s.pwr.st ≠ .off ∨ s.sup.forced = true ∨ ms < 50 ∨ 12000 ≤ ms)) ∧
  (∃ (s : State) (ms : Nat), s.pwr.st = .off ∧ s.sup.forced = false ∧ 50 ≤ ms ∧ ms < 12000) :=
  ⟨⟨{ ({ wRun with sup := { pressed := true } } : State) with cycles := 800000000 }, by decide +kernel⟩,
   ⟨wIn .off, 12000, by decide +kernel⟩,
   ⟨wIn .off, 11999, by decide +kernel⟩⟩

/-- States and operands that meet the hypotheses of Obligations.ResetsTakeHoldAndRelease. -/
theorem witness_ResetsTakeHoldAndRelease_1 :
  (∃ (s : State), s.pwr.st ≠ .off) ∧
  (∃ (s : State), s.pwr.st = .off) ∧
  (∃ (s : State), s.coresRun = true) ∧
  (∃ (s : State), s.coresRun = true ∧ s.pwr.st ≠ .basting) ∧
  (∃ (s : State), s.nvm.job = none) :=
  ⟨⟨wRun, by decide +kernel⟩,
   ⟨wIn .off, by decide +kernel⟩,
   ⟨wRun, by decide +kernel⟩,
   ⟨wIn .starting, by decide +kernel⟩,
   ⟨wRun, by decide +kernel⟩⟩

/-- States and operands that meet the hypotheses of Obligations.ResetsTakeHoldAndRelease. -/
theorem witness_ResetsTakeHoldAndRelease_2 :
  (∃ (s : State), RstSrc.por ∈ s.pwr.held ∧ s.sup.seq = 0) ∧
  (∃ (s : State), (s.pwr.yielding = false ∨ s.passed s.pwr.yieldAt (4 * usCycles) = false)) ∧
  (∃ (s : State), s.pwr.yielding = true ∧ s.passed s.pwr.yieldAt (4 * usCycles) = true ∧ s.pwr.offNext = false) ∧
  (∃ (s : State), (s.pwr.held ≠ [] ∨ s.passed s.pwr.relAt msCycles = false)) ∧
  (∃ (s : State), s.pwr.episode = true ∧ s.pwr.taken = true ∧ s.pwr.held = [] ∧ s.passed s.pwr.relAt msCycles = true ∧ s.pwr.offNext = true ∧ s.sup.top = 1) :=
  ⟨⟨{ wRun with pwr := { wRun.pwr with st := .reset, episode := true, raised := [.por], held := [.por] }, sup := {} }, by decide +kernel⟩,
   ⟨{ ({ wRun with pwr := { wRun.pwr with st := .reset, episode := true, raised := [.por], held := [], yielding := true } } : State) with cycles := 399 }, by decide +kernel⟩,
   ⟨{ ({ wRun with pwr := { wRun.pwr with st := .reset, episode := true, raised := [.por], held := [], yielding := true } } : State) with cycles := 400 }, by decide +kernel⟩,
   ⟨{ wRun with pwr := { wRun.pwr with held := [.mrN] } }, by decide +kernel⟩,
   ⟨{ ({ wRun with pwr := { wRun.pwr with st := .reset, episode := true, taken := true, offNext := true }, sup := {} } : State) with cycles := 100000 }, by decide +kernel⟩⟩

/-- States and operands that meet the hypotheses of Obligations.ResetsTakeHoldAndRelease. -/
theorem witness_ResetsTakeHoldAndRelease_3 :
  (∃ (s : State), s.pwr.episode = true ∧ s.pwr.taken = true ∧ s.pwr.held = [] ∧ s.passed s.pwr.relAt msCycles = true ∧ s.pwr.offNext = false ∧ s.sup.seq = 2) ∧
  (∃ (s : State) (src : RstSrc), (src = .twin ∨ src = .host ∨ src = .safety)) ∧
  (∃ (s : State), (s.pwr.borDown = false ∨ s.passed s.sup.seqAt (10 * msCycles) = false)) ∧
  (∃ (s : State), s.pwr.borDown = true ∧ s.sup.seq = 3 ∧ s.sup.seqRail = 1 ∧ s.passed s.sup.seqAt (10 * msCycles) = true) :=
  ⟨⟨{ ({ wRun with pwr := { wRun.pwr with st := .reset, episode := true, taken := true }, sup := { seq := 2, en := 0xFFF#12, target := 12 }, nvm := { lc := .sealed } } : State) with cycles := 100000 }, by decide +kernel⟩,
   ⟨wRun, .host, by decide +kernel⟩,
   ⟨{ ({ wRun with pwr := { wRun.pwr with borDown := true }, sup := { seq := 3, seqRail := 1 } } : State) with cycles := 999999 }, by decide +kernel⟩,
   ⟨{ ({ wRun with pwr := { wRun.pwr with borDown := true }, sup := { seq := 3, seqRail := 1 } } : State) with cycles := 1000000 }, by decide +kernel⟩⟩

/-- States and operands that meet the hypotheses of Obligations.StartAndWake. -/
theorem witness_StartAndWake_1 :
  (∃ (s : State), (s.pwr.st ≠ .starting ∨ s.host.ready = true ∨ s.sup.seq ≠ 2 ∨ s.supWrites = true)) ∧
  (∃ (s : State), s.pwr.st = .starting ∧ s.host.ready = false ∧ s.sup.seq = 2 ∧ s.supWrites = false) ∧
  (∃ (s : State), s.pwr.st = .starting ∧ s.host.ready = true ∧ s.pwr.step < 3) ∧
  (∃ (s : State), s.pwr.st = .starting ∧ s.host.ready = true ∧ s.pwr.step < 3) ∧
  (∃ (s : State), s.pwr.st = .starting ∧ s.pwr.step = 3 ∧ ((∀ e ∈ s.lanes, e.2.st.training = false))) :=
  ⟨⟨wIn .starting, by decide +kernel⟩,
   ⟨{ wIn .starting with host := {} }, by decide +kernel⟩,
   ⟨{ wRun with pwr := { wRun.pwr with st := .starting, step := 2 } }, by decide +kernel⟩,
   ⟨{ wRun with pwr := { wRun.pwr with st := .starting, step := 2 } }, by decide +kernel⟩,
   ⟨{ wRun with pwr := { wRun.pwr with st := .starting, step := 3 } }, by decide +kernel⟩⟩

/-- States and operands that meet the hypotheses of Obligations.StartAndWake. -/
theorem witness_StartAndWake_2 :
  (∃ (s : State), s.pwr.st = .starting ∧ s.passed s.pwr.startAt (5000 * msCycles) = true) ∧
  (∃ (s : State), (s.pwr.st ≠ .starting ∨ s.passed s.pwr.startAt (5000 * msCycles) = false)) ∧
  (∃ (s : State), s.passed s.pwr.runAt (60000 * msCycles) = false) ∧
  (∃ (s : State), s.reached s.wakeSt = false) ∧
  (∃ (s : State), (s.pwr.st = .run ∨ s.pwr.st = .trim) ∧ s.passed s.pwr.runAt (60000 * msCycles) = true) :=
  ⟨⟨{ (wIn .starting : State) with cycles := 500000000 }, by decide +kernel⟩,
   ⟨{ (wIn .starting : State) with cycles := 499999999 }, by decide +kernel⟩,
   ⟨{ (wIn .trim : State) with cycles := 5999999999 }, by decide +kernel⟩,
   ⟨{ wRun with pwr := { wRun.pwr with st := .sleep, stAlarm := true }, regs := wReg Reg.supWakeStLo 0 1 }, by decide +kernel⟩,
   ⟨{ (wIn .trim : State) with cycles := 6000000000 }, by decide +kernel⟩⟩

/-- States and operands that meet the hypotheses of Obligations.StartAndWake. -/
theorem witness_StartAndWake_3 :
  (∃ (s : State), s.pwr.st = .sleep ∧ s.pwr.stAlarm = true ∧ s.reached s.wakeSt = true ∧ wbit (s.reg Reg.supWakeCfg) 0 = true ∧ s.pwr.wakeUp = false ∧ ((∃ k, 2 ≤ k ∧ k ≤ 12 ∧ s.sup.en.getLsbD (k - 1) = false))) ∧
  (∃ (s : State), s.pwr.st = .sleep ∧ s.pwr.wakeUp = true ∧ s.sup.seq = 2 ∧ ((∀ e ∈ s.lanes, e.2.st.training = false)) ∧ ((∃ e ∈ s.lanes, e.2.st ≠ .off))) ∧
  (∃ (s : State) (key : Byte), key ≠ 0x5A) ∧
  (∃ (s : State) (key : Byte), key ≠ 0x5A) ∧
  (∃ (s : State), s.pwr.st = .off) :=
  ⟨⟨{ wRun with pwr := { wRun.pwr with st := .sleep, stAlarm := true }, sup := { seq := 2, target := 6, en := 0x7FF#12 }, regs := wReg Reg.supWakeCfg 0 1 }, by exact ⟨by decide +kernel, by decide +kernel, by decide +kernel, by decide +kernel, by decide +kernel, 12, by decide +kernel⟩⟩,
   ⟨{ wRun with pwr := { wRun.pwr with st := .sleep, wakeUp := true }, lanes := [(3, { st := .ready })] }, by exact ⟨by decide +kernel, by decide +kernel, by decide +kernel, by decide +kernel, (3, { st := .ready }), by decide +kernel⟩⟩,
   ⟨wRun, 0xA5, by decide +kernel⟩,
   ⟨wRun, 0xA5, by decide +kernel⟩,
   ⟨wIn .off, by decide +kernel⟩⟩

/-- States and operands that meet the hypotheses of Obligations.StartAndWake. -/
theorem witness_StartAndWake_4 :
  (∃ (s : State), s.pwr.st ≠ .off) :=
  ⟨wRun, by decide +kernel⟩

/-- States and operands that meet the hypotheses of Obligations.NvmCommandsAndOtp. -/
theorem witness_NvmCommandsAndOtp_1 :
  (∃ (s : State) (k : Byte), k ≠ 0x5A) ∧
  (∃ (s : State) (k : Byte), k ≠ 0x5A) ∧
  (∃ (s : State) (k : Byte), k ≠ 0x5A) ∧
  (∃ (s : State) (k : Byte), k ≠ 0x5A) ∧
  (∃ (s : State) (k : Byte) (v : Word), s.ringsUp = false) :=
  ⟨⟨wRun, 0xA5, by decide +kernel⟩,
   ⟨wRun, 0xA5, by decide +kernel⟩,
   ⟨wRun, 0xA5, by decide +kernel⟩,
   ⟨wRun, 0xA5, by decide +kernel⟩,
   ⟨{ wRun with host := {} }, 0x5A, 1, by decide +kernel⟩⟩

/-- States and operands that meet the hypotheses of Obligations.NvmCommandsAndOtp. -/
theorem witness_NvmCommandsAndOtp_2 :
  (∃ (s : State) (k : Byte) (v : Word), s.ringsUp = false) ∧
  (∃ (s : State) (k : Byte) (v : Word), s.ringsUp = false) ∧
  (∃ (s : State) (k : Byte) (v : Word), s.ringsUp = false) ∧
  (∃ (s : State) (k : Byte) (v : Word), s.ringsUp = false) ∧
  (∃ (s : State), s.ringsUp = true) :=
  ⟨⟨{ wRun with host := {} }, 0x5A, 1, by decide +kernel⟩,
   ⟨{ wRun with host := {} }, 0x5A, 1, by decide +kernel⟩,
   ⟨{ wRun with host := {} }, 0x5A, 1, by decide +kernel⟩,
   ⟨{ wRun with host := {} }, 0x5A, 1, by decide +kernel⟩,
   ⟨wRun, by decide +kernel⟩⟩

/-- States and operands that meet the hypotheses of Obligations.NvmCommandsAndOtp. -/
theorem witness_NvmCommandsAndOtp_3 :
  (∃ (s : State), s.ringsUp = true) ∧
  (∃ (s : State), s.ringsUp = true) ∧
  (∃ (s : State), s.ringsUp = true) ∧
  (∃ (s : State) (r : Nat) (v : DWord) (l : List (Nat × DWord)), s.nvm.fuseJob = (r, v) :: l ∧ redirOf s.nvm.redir r = none) ∧
  (∃ (s : State) (o : Nat) (op : Op) (r : Nat) (v : DWord) (l : List (Nat × DWord)), s.nvm.fuseJob = [] ∧ s.nvm.lcJob = some (o, (r, v) :: l) ∧ GoesOn s o 0x73 op ∧ redirOf s.nvm.redir r = none ∧ s.otpRead r &&& ~~~v ≠ 0) :=
  ⟨⟨wRun, by decide +kernel⟩,
   ⟨wRun, by decide +kernel⟩,
   ⟨wRun, by decide +kernel⟩,
   ⟨{ wRun with nvm := { fuseJob := [(12, 1)] } }, 12, 1, [], by decide +kernel⟩,
   ⟨wPut (wGo 0x73 [5]) { wRun with nvm := { lcJob := some (5, [(12, 1), (13, 1)]), otp := [(12, 2)] } }, 5, (wGo 0x73 [5]), 12, 1, [(13, 1)], by unfold GoesOn; decide +kernel⟩⟩

/-- States and operands that meet the hypotheses of Obligations.NvmCommandsAndOtp. -/
theorem witness_NvmCommandsAndOtp_4 :
  (∃ (s : State) (o : Nat) (op : Op) (r : Nat) (v : DWord) (l : List (Nat × DWord)), s.nvm.fuseJob = [] ∧ s.nvm.lcJob = some (o, (r, v) :: l) ∧ GoesOn s o 0x73 op ∧ redirOf s.nvm.redir r = none ∧ s.otpRead r &&& ~~~v = 0 ∧ l = []) ∧
  (∃ (s : State) (o : Nat) (op : Op) (r : Nat) (v : DWord) (l : List (Nat × DWord)), s.nvm.fuseJob = [] ∧ s.nvm.lcJob = some (o, (r, v) :: l) ∧ GoesOn s o 0x73 op ∧ redirOf s.nvm.redir r = none ∧ s.otpRead r &&& ~~~v = 0 ∧ l ≠ []) ∧
  (∃ (s : State) (r : Fin 1024), s.ringsUp = true ∧ s.nvm.weak = []) ∧
  (∃ (s : State) (p : Fin 4096), s.portUp = true ∧ s.nvm.job ≠ none) ∧
  (∃ (s : State) (p : Fin 4096), s.portUp = true ∧ s.nvm.job = none ∧ twReads p = true ∧ s.railIn 2 = true) :=
  ⟨⟨wPut (wGo 0x73 [5]) { wRun with nvm := { lc := .sealed, lcJob := some (5, [(12, 1)]) } }, 5, (wGo 0x73 [5]), 12, 1, [], by unfold GoesOn; decide +kernel⟩,
   ⟨wPut (wGo 0x73 [5]) { wRun with nvm := { lcJob := some (5, [(12, 1), (13, 1)]) } }, 5, (wGo 0x73 [5]), 12, 1, [(13, 1)], by unfold GoesOn; decide +kernel⟩,
   ⟨wRun, 1023, by decide +kernel⟩,
   ⟨{ wRun with nvm := { job := some { owner := .twowire, page := 16, data := [] } } }, 0x20, by decide +kernel⟩,
   ⟨{ wRun with sup := { seq := 2, en := 0xFFF#12 }, wcs := [(1, { rd := .inside })] }, 0x7FF, by decide +kernel⟩⟩

/-- States and operands that meet the hypotheses of Obligations.NvmCommandsAndOtp. -/
theorem witness_NvmCommandsAndOtp_5 :
  (∃ (s : State) (p : Fin 4096), s.portUp = true ∧ (s.nvm.job ≠ none ∨ s.nvmHost = true ∨ s.sup.brace = true ∨ wbit (s.reg Reg.nvmCtl) 0 = true)) ∧
  (∃ (s : State) (p : Fin 4096), s.portUp = true ∧ s.nvm.job = none ∧ s.nvmHost = false ∧ s.sup.brace = false ∧ wbit (s.reg Reg.nvmCtl) 0 = false ∧ s.railIn 2 = true) ∧
  (∃ (s : State) (p : Fin 4096), s.portUp = true ∧ s.nvm.job = none ∧ s.railIn 2 = false) ∧
  (∃ (s : State) (p : Fin 4096), s.portUp = true ∧ s.nvm.job = none ∧ s.nvmHost = false ∧ s.sup.brace = false ∧ wbit (s.reg Reg.nvmCtl) 0 = false ∧ s.railIn 2 = false) :=
  ⟨⟨{ wRun with nvm := { job := some { owner := .twowire, page := 16, data := [] } } }, 0x7FF, by decide +kernel⟩,
   ⟨{ wRun with sup := { seq := 2, en := 0xFFF#12 }, wcs := [(1, { rd := .inside })] }, 0x800, by decide +kernel⟩,
   ⟨{ wRun with sup := { seq := 2, en := 1 } }, 0x10, by decide +kernel⟩,
   ⟨{ wRun with sup := { seq := 2, en := 1 } }, 0x7FF, by decide +kernel⟩⟩

/-- States and operands that meet the hypotheses of Obligations.TapScanAndTrng. -/
theorem witness_TapScanAndTrng_1 :
  (∃ (s : State), s.grade.toNat < 3) ∧
  (∃ (s : State) (pins : DWord) (pre : DWord) (ir : Byte) (q : DbgReq), s.tapUp = false) ∧
  (∃ (s : State) (pins : DWord) (pre : DWord) (ir : Byte) (q : DbgReq), s.tapUp = false) ∧
  (∃ (s : State) (pins : DWord) (pre : DWord) (ir : Byte) (q : DbgReq), s.tapUp = false) ∧
  (∃ (s : State) (pins : DWord) (pre : DWord) (ir : Byte) (q : DbgReq), s.tapUp = false) :=
  ⟨⟨wRun, by decide +kernel⟩,
   ⟨{ wRun with sup := {}, grade := 0 }, 5, 6, 3, .select, by decide +kernel⟩,
   ⟨{ wRun with sup := {}, grade := 0 }, 5, 6, 3, .select, by decide +kernel⟩,
   ⟨{ wRun with sup := {}, grade := 0 }, 5, 6, 3, .select, by decide +kernel⟩,
   ⟨{ wRun with sup := {}, grade := 0 }, 5, 6, 3, .select, by decide +kernel⟩⟩

/-- States and operands that meet the hypotheses of Obligations.TapScanAndTrng. -/
theorem witness_TapScanAndTrng_2 :
  (∃ (s : State) (pins : DWord) (pre : DWord) (ir : Byte) (q : DbgReq), s.tapUp = false) ∧
  (∃ (s : State) (pins : DWord) (pre : DWord) (ir : Byte) (q : DbgReq), s.tapUp = false) ∧
  (∃ (s : State) (pins : DWord) (pre : DWord) (ir : Byte) (q : DbgReq), s.tapUp = false) ∧
  (∃ (s : State) (u : State) (pins : DWord) (pre : DWord), s.tapUp = true ∧ u = { s with sec := { s.sec with tapIr := 0x01 } }) ∧
  (∃ (s : State) (u : State) (pins : DWord) (pre : DWord), s.tapUp = true ∧ u = { s with sec := { s.sec with tapIr := 0x02 } }) :=
  ⟨⟨{ wRun with sup := {}, grade := 0 }, 5, 6, 3, .select, by decide +kernel⟩,
   ⟨{ wRun with sup := {}, grade := 0 }, 5, 6, 3, .select, by decide +kernel⟩,
   ⟨{ wRun with sup := {}, grade := 0 }, 5, 6, 3, .select, by decide +kernel⟩,
   ⟨wRun, { wRun with sec := { tapIr := 0x01 } }, 5, 6, by decide +kernel⟩,
   ⟨wRun, { wRun with sec := { tapIr := 0x02 } }, 5, 6, by decide +kernel⟩⟩

/-- States and operands that meet the hypotheses of Obligations.TapScanAndTrng. -/
theorem witness_TapScanAndTrng_3 :
  (∃ (s : State) (u : State) (pins : DWord) (pre : DWord), s.tapUp = true ∧ u = { s with sec := { s.sec with tapIr := 0x03 } }) ∧
  (∃ (s : State) (u : State) (pins : DWord) (pre : DWord), s.tapUp = true ∧ u = { s with sec := { s.sec with tapIr := 0x04 } }) ∧
  (∃ (s : State) (u : State) (pins : DWord) (pre : DWord), s.tapUp = true ∧ u = { s with sec := { s.sec with tapIr := 0x05 } }) ∧
  (∃ (s : State) (u : State) (pins : DWord) (pre : DWord) (ir : Byte), s.tapUp = true ∧ ir ≠ 1 ∧ ir ≠ 2 ∧ ir ≠ 3 ∧ ir ≠ 4 ∧ ir ≠ 5 ∧ ir ≠ 0x10 ∧ u = { s with sec := { s.sec with tapIr := ir } }) ∧
  (∃ (s : State), (s.pwr.st = .sleep ∨ s.pwr.st = .off)) :=
  ⟨⟨wRun, { wRun with sec := { tapIr := 0x03 } }, 5, 6, by decide +kernel⟩,
   ⟨wRun, { wRun with sec := { tapIr := 0x04 } }, 5, 6, by decide +kernel⟩,
   ⟨wRun, { wRun with sec := { tapIr := 0x05 } }, 5, 6, by decide +kernel⟩,
   ⟨wRun, { wRun with sec := { tapIr := 0xFF } }, 5, 6, 0xFF, by decide +kernel⟩,
   ⟨wIn .sleep, by decide +kernel⟩⟩

/-- States and operands that meet the hypotheses of Obligations.TapScanAndTrng. -/
theorem witness_TapScanAndTrng_4 :
  (∃ (s : State), s.pwr.st ≠ .sleep ∧ s.pwr.st ≠ .off ∧ ((∀ p ∈ s.ops, p.code = 0x72 → p.tag < planTag))) ∧
  (∃ (s : State) (q : DbgReq), s.tapUp = true ∧ (s.dbgLevel ≠ 2 ∨ s.chainUp = false)) ∧
  (∃ (s : State), s.tapUp = true ∧ s.dbgLevel = 2 ∧ s.chainUp = true) ∧
  (∃ (s : State) (p : Fin 2) (c : Fin 2), s.tapUp = true ∧ s.dbgLevel = 2 ∧ s.chainUp = true) ∧
  (∃ (s : State) (p : Fin 2), s.tapUp = true ∧ s.dbgLevel = 2 ∧ s.chainUp = true ∧ s.sec.dbg.halted p = true ∧ s.sec.fwWrites = []) :=
  ⟨⟨wRun, by decide +kernel⟩,
   ⟨{ wRun with nvm := { lc := .sealed } }, .halt 1 0, by decide +kernel⟩,
   ⟨{ wRun with nvm := { lc := .integration } }, by decide +kernel⟩,
   ⟨{ wRun with nvm := { lc := .integration } }, 1, 0, by decide +kernel⟩,
   ⟨{ wRun with nvm := { lc := .integration }, sec := { dbg := { pairs := 2 } } }, 1, by decide +kernel⟩⟩

/-- States and operands that meet the hypotheses of Obligations.TapScanAndTrng. -/
theorem witness_TapScanAndTrng_5 :
  (∃ (s : State) (a : Nat) (v : Word), s.tapUp = true ∧ s.dbgLevel = 2 ∧ s.chainUp = true ∧ a < 0x100000 ∧ dbgBarred a = true) ∧
  (∃ (s : State) (a : Nat) (v : Word), s.tapUp = true ∧ s.dbgLevel = 2 ∧ s.chainUp = true ∧ a < 0x100000 ∧ dbgBarred a = true) ∧
  (∃ (s : State) (k : Fin 16), s.tapUp = true ∧ s.dbgLevel = 2 ∧ s.chainUp = true ∧ s.unitsUp = true ∧ ((s.thr k).st = .run ∨ (s.thr k).st = .wait)) ∧
  (∃ (s : State) (k : Fin 16) (st : ThrState), s.tapUp = true ∧ s.dbgLevel = 2 ∧ s.chainUp = true ∧ s.unitsUp = true ∧ s.dbgThr k = some st) ∧
  (∃ (s : State) (k : Fin 16) (i : Fin 16), s.tapUp = true ∧ s.dbgLevel = 2 ∧ s.chainUp = true ∧ s.unitsUp = true) :=
  ⟨⟨{ wRun with nvm := { lc := .integration } }, Reg.nvmOtpLo, 1, by decide +kernel⟩,
   ⟨{ wRun with nvm := { lc := .integration } }, Reg.nvmOtpLo, 1, by decide +kernel⟩,
   ⟨{ wRun with nvm := { lc := .integration }, threads := [(15, { st := .wait, pc := 8 })] }, 15, by decide +kernel⟩,
   ⟨{ wRun with nvm := { lc := .integration }, sec := { dbg := { threads := [(15, .wait)] } }, threads := [(15, { st := .halted, pc := 8 })] }, 15, .wait, by decide +kernel⟩,
   ⟨{ wRun with nvm := { lc := .integration }, sec := { dbg := { threads := [(15, .wait)] } }, threads := [(15, { st := .halted, pc := 8 })] }, 15, 15, by decide +kernel⟩⟩

/-- States and operands that meet the hypotheses of Obligations.TapScanAndTrng. -/
theorem witness_TapScanAndTrng_6 :
  (∃ (s : State) (k : Fin 16) (i : Fin 16) (v : Word) (st : ThrState), s.tapUp = true ∧ s.dbgLevel = 2 ∧ s.chainUp = true ∧ s.unitsUp = true ∧ s.dbgThr k = some st ∧ i.val ≠ 0) ∧
  (∃ (s : State) (e : Fin 1088) (a : Fin 256), s.tapUp = true ∧ s.dbgLevel = 2 ∧ s.chainUp = true ∧ s.unitsUp = true) ∧
  (∃ (s : State) (e : Fin 1088) (a : Fin 256) (v : Word), s.tapUp = true ∧ s.dbgLevel = 2 ∧ s.chainUp = true ∧ s.unitsUp = true) :=
  ⟨⟨{ wRun with nvm := { lc := .integration }, sec := { dbg := { threads := [(15, .wait)] } }, threads := [(15, { st := .halted, pc := 8 })] }, 15, 15, 7, .wait, by decide +kernel⟩,
   ⟨{ wRun with nvm := { lc := .integration }, engines := [(1087, { image := [7] })] }, 1087, 255, by decide +kernel⟩,
   ⟨{ wRun with nvm := { lc := .integration }, engines := [(1087, { image := [7] })] }, 1087, 255, 9, by decide +kernel⟩⟩

/-- States and operands that meet the hypotheses of Obligations.RecoveryAndTwoWire. -/
theorem witness_RecoveryAndTwoWire_1 :
  (∃ (s : State) (k : Byte) (d : HostRead), (k ≠ 0x5A ∨ s.pwr.st ≠ .basting ∨ s.sec.recBusy = true)) ∧
  (∃ (s : State) (k : Byte) (d : HostRead), (k ≠ 0x5A ∨ s.pwr.st ≠ .basting ∨ s.sec.recBusy = true)) ∧
  (∃ (s : State) (k : Byte) (d : HostRead), (k ≠ 0x5A ∨ s.pwr.st ≠ .basting ∨ s.sec.recBusy = true)) ∧
  (∃ (s : State) (d : HostRead), s.pwr.st = .basting ∧ s.sec.recBusy = false ∧ s.nvm.lc = .void) ∧
  (∃ (s : State), s.pwr.st = .basting ∧ s.sec.recBusy = false ∧ s.nvm.lc ≠ .void) :=
  ⟨⟨wIn .basting, 0xA5, .failed, by decide +kernel⟩,
   ⟨{ wIn .basting with sec := { recBusy := true } }, 0x5A, .failed, by decide +kernel⟩,
   ⟨wRun, 0x5A, .failed, by decide +kernel⟩,
   ⟨{ wIn .basting with nvm := { lc := .void } }, .failed, by decide +kernel⟩,
   ⟨wIn .basting, by decide +kernel⟩⟩

/-- States and operands that meet the hypotheses of Obligations.RecoveryAndTwoWire. -/
theorem witness_RecoveryAndTwoWire_2 :
  (∃ (s : State) (b : List Byte) (st : Nat), s.pwr.st = .basting ∧ s.sec.recBusy = false ∧ s.nvm.lc ≠ .void ∧ s.imageStatus b 1 = some st) ∧
  (∃ (s : State) (b : List Byte), s.pwr.st = .basting ∧ s.sec.recBusy = false ∧ s.nvm.lc ≠ .void ∧ s.nvm.job ≠ none) ∧
  (∃ (s : State), s.pwr.st = .basting ∧ s.sec.recBusy = false) ∧
  (∃ (s : State), s.pwr.st = .basting ∧ s.sec.recBusy = false) ∧
  (∃ (s : State) (a : BitVec 7) (bytes : List Byte) (n : Nat), (s.portUp = false ∨ a.toNat ≠ 0x58 + s.sec.adr.toNat)) :=
  ⟨⟨wIn .basting, [], stBadDesc, by decide +kernel⟩,
   ⟨{ wIn .basting with nvm := { job := some { owner := .twowire, page := 16, data := [] } } }, [], by decide +kernel⟩,
   ⟨wIn .basting, by decide +kernel⟩,
   ⟨wIn .basting, by decide +kernel⟩,
   ⟨wRun, 0x59, [1], 2, by decide +kernel⟩⟩

/-- States and operands that meet the hypotheses of Obligations.RecoveryAndTwoWire. -/
theorem witness_RecoveryAndTwoWire_3 :
  (∃ (s : State) (a : BitVec 7) (bytes : List Byte) (n : Nat), (s.portUp = false ∨ a.toNat ≠ 0x58 + s.sec.adr.toNat)) ∧
  (∃ (s : State) (a : BitVec 7) (bytes : List Byte) (n : Nat), s.portUp = true ∧ a.toNat = 0x58 + s.sec.adr.toNat ∧ s.nvm.job ≠ none) ∧
  (∃ (s : State) (a : BitVec 7) (bytes : List Byte) (n : Nat), s.portUp = true ∧ a.toNat = 0x58 + s.sec.adr.toNat ∧ s.nvm.job ≠ none) ∧
  (∃ (s : State) (a : BitVec 7) (h : Byte) (l : Byte) (p : Byte), s.portUp = true ∧ a.toNat = 0x58 + s.sec.adr.toNat ∧ s.nvm.job = none ∧ s.pwr.st ≠ .sleep ∧ s.oneByte = false) ∧
  (∃ (s : State) (a : BitVec 7) (h : Byte) (l : Byte) (p : Byte), s.portUp = true ∧ a.toNat = 0x58 + s.sec.adr.toNat ∧ s.nvm.job = none ∧ s.pwr.st ≠ .sleep ∧ s.oneByte = true) :=
  ⟨⟨{ wRun with sec := { hang := true } }, 0x58, [1], 2, by decide +kernel⟩,
   ⟨{ wRun with sec := { adr := 3 }, nvm := { job := some { owner := .twowire, page := 16, data := [] } } }, 0x5B, [1], 2, by decide +kernel⟩,
   ⟨{ wRun with sec := { adr := 3 }, nvm := { job := some { owner := .twowire, page := 16, data := [] } } }, 0x5B, [1], 2, by decide +kernel⟩,
   ⟨{ wRun with sec := { adr := 3 }, nvm := { lc := .integration } }, 0x5B, 1, 2, 3, by decide +kernel⟩,
   ⟨{ wRun with sec := { adr := 3 }, nvm := { lc := .vendor } }, 0x5B, 1, 2, 3, by decide +kernel⟩⟩

/-- States and operands that meet the hypotheses of Obligations.RecoveryAndTwoWire. -/
theorem witness_RecoveryAndTwoWire_4 :
  (∃ (s : State) (a : BitVec 7) (n : Nat), s.portUp = true ∧ a.toNat = 0x58 + s.sec.adr.toNat ∧ s.nvm.job = none) :=
  ⟨{ wRun with sec := { adr := 3 } }, 0x5B, 5, by decide +kernel⟩

end Sys2Proof.Tests
end

/-! PROOF. A RELIEVE that brings an image, its lane in RUN, first waits for the staging buffer, so it does not end ISOLATED or BUSY when it starts. -/

namespace Sys2Proof.Machine

section
variable {s u t : State} {o : Nat} {op : Op}

/-- An operation that waits, accepted, has not ended. -/
theorem Accepts.not_ends (h : Accepts u o t) (u' : State) (status result : Nat) : ¬ Ends u' o status result t := by
  rintro ⟨-, -, hnone⟩
  obtain ⟨-, p, hfind, -, hgoing⟩ := h
  have hdone : p.done = true := hnone p (List.mem_of_find?_eq_some hfind) (findOp_tag hfind)
  simp [hgoing] at hdone

/-- An operation sent to the staging buffer waits there, accepted (R527). -/
theorem imageWait_accepts {code : Nat} (h : Starts s o code op) :
    Accepts { s with sec := { s.sec with staging := s.sec.staging ++ [o] } } o (s.imageWait op) := by
  obtain ⟨hfind, -, hgoing⟩ := liveOp_find h.1
  obtain rfl := liveOp_tag h.1
  exact ⟨rfl, _, findOp_modOp hfind _ rfl, rfl, hgoing⟩

/-- With its lane in RUN a RELIEVE is not BAD_DESC (R151). -/
theorem relieveStatus_ne_badDesc {n : Nat} (h : (s.lane n).st = .run) : s.relieveStatus n ≠ some stBadDesc := by
  unfold State.relieveStatus
  simp only [h, bne_self_eq_false, Bool.false_eq_true, if_false]
  split
  · decide
  · split <;> decide

/-- A RELIEVE with an image, its lane in RUN, waits for the staging buffer even when its cell is enclosed or its relief engine taken: the model reports those codes only once the image has been checked, so that
they stand in the order of R356 with what is wrong in it. -/
theorem relieve_with_image_waits (h : Starts s o 0x82 op) (hrun : (s.lane (op.u16 8)).st = .run) (himage : op.u64 0x10 ≠ 0) :
    exec (.relieve o) s = .next (s.imageWait op) := by
  have ⟨_, hnew, _⟩ := h
  have hbad := relieveStatus_ne_badDesc hrun
  show Host.Outcome.next (opRun s o 0x82 noBad noPre _) = _
  rw [opRun_starts h rfl rfl]
  cases hst : s.relieveStatus (op.u16 8) with
  | none => simp [hnew, himage]
  | some st =>
    have hne : st ≠ stBadDesc := fun e => hbad (e ▸ hst)
    simp [hnew, himage, hne]

end

/-- RELIEVE of cell 3, with an image at host address 1. -/
def relieveWithImage : Op := { tag := 5, sq := 0, desc := [0x82, 0, 5, 0, 0, 0, 0, 0, 3, 0, 0, 0, 0, 0, 0, 0, 1] }

/-- That RELIEVE is about to start; lane 3 is in RUN, and the selvedge of its drawer is closed. -/
def enclosedDrawer : State :=
  { twin := { st := .solo }, ops := [relieveWithImage], lanes := [(3, { st := .run })],
    pwr := { st := .run, selv := [{ kind := 1, index := 0, force := false, op := 9, closed := true }] } }

theorem enclosedDrawer_starts : Starts enclosedDrawer 5 0x82 relieveWithImage := by
  unfold Starts
  decide

/-- Refutes O30: the statement has every RELIEVE into a closed selvedge end ISOLATED when it starts, but one that brings an image is accepted there and waits for the staging buffer. -/
theorem not_reliefAndHandback : ¬ Obligations.ReliefAndHandback := by
  rintro ⟨hrefused, -⟩
  have hstarts := enclosedDrawer_starts
  have hrun : (enclosedDrawer.lane (relieveWithImage.u16 8)).st = .run := by decide
  have henclosed : enclosedDrawer.enclosed (relieveWithImage.u16 8) = true := by decide
  obtain ⟨-, hisolated, -⟩ := hrefused _ _ _ _ hstarts rfl
  obtain ⟨t, hexec, hends⟩ := hisolated hrun (.inl henclosed)
  rw [relieve_with_image_waits hstarts hrun (by decide)] at hexec
  obtain rfl : enclosedDrawer.imageWait relieveWithImage = t := by injection hexec
  exact (imageWait_accepts hstarts).not_ends _ _ _ hends

end Sys2Proof.Machine

/-! PROOF. HALT, KICK and RSP of a thread, and its grants (R290, R309 to R314): each runs on the state that its fetch, and its drained stores where it drains them, have left. -/

namespace Sys2Proof.Machine

/-! ## What a fetch and a drain leave alone -/

section
variable (s : State) (f : Ecc) (t : Nat)

@[simp] theorem plan_fetched : (s.fetched f).plan = s.plan := by cases f <;> rfl

@[simp] theorem twin_fetched : (s.fetched f).twin = s.twin := by cases f <;> rfl

@[simp] theorem regs_fetched : (s.fetched f).regs = s.regs := by cases f <;> rfl

@[simp] theorem grade_fetched : (s.fetched f).grade = s.grade := by cases f <;> rfl

@[simp] theorem rails_fetched : (s.fetched f).rails = s.rails := by cases f <;> rfl

@[simp] theorem rail_fetched (m : Nat) : (s.fetched f).rail m = s.rail m := State.rail_congr (rails_fetched s f) m

@[simp] theorem railOk_fetched (m : Nat) : (s.fetched f).railOk m = s.railOk m := by simp [State.railOk]

@[simp] theorem time_fetched : (s.fetched f).time = s.time := by cases f <;> rfl

@[simp] theorem sup_fetched : (s.fetched f).sup = s.sup := by cases f <;> rfl

@[simp] theorem cycles_fetched : (s.fetched f).cycles = s.cycles := by cases f <;> rfl

@[simp] theorem plan_drainAll : (s.drainAll t).plan = s.plan := drainAll_field State.plan (fun _ => rfl) (fun _ _ => rfl) s t

@[simp] theorem twin_drainAll : (s.drainAll t).twin = s.twin := drainAll_field State.twin (fun _ => rfl) (fun _ _ => rfl) s t

@[simp] theorem regs_drainAll : (s.drainAll t).regs = s.regs := drainAll_field State.regs (fun _ => rfl) (fun _ _ => rfl) s t

@[simp] theorem grade_drainAll : (s.drainAll t).grade = s.grade := drainAll_field State.grade (fun _ => rfl) (fun _ _ => rfl) s t

@[simp] theorem rails_drainAll : (s.drainAll t).rails = s.rails := drainAll_field State.rails (fun _ => rfl) (fun _ _ => rfl) s t

@[simp] theorem time_drainAll : (s.drainAll t).time = s.time := drainAll_field State.time (fun _ => rfl) (fun _ _ => rfl) s t

end

/-! ## HALT, KICK and RSP -/

section
variable {s : State} {t : Fin 16} {f : Ecc} {y : Fields} (hf : f ≠ .uncorrectable)
include hf

/-- A thread that halts behind its drained stores (R290). -/
theorem exec_patHalt (h : PatAt s t .halt y) :
    exec (.patHalt t f) s = .next ((((s.fetched f).drainAll t).patNext t).thrTo t .halted) :=
  congrArg Host.Outcome.next (patRun_at h hf _)

theorem patHalt_halts (h : PatAt s t .halt y) :
    ∃ u, exec (.patHalt t f) s = .next u ∧ u.thr t = { s.thr t with st := .halted, stAt := s.time.st, pc := (s.thr t).pc + 4, buf := [] } ∧ (∀ m, m ≠ t.val → u.thr m = s.thr m) ∧
      (∀ b, b < 0x40000 → memGet 0 u.ledger b = s.seen t b) ∧ u.noThreads = { (s.fetched f).noThreads with ledger := u.ledger } := by
  refine ⟨_, exec_patHalt hf h, ?_⟩
  obtain ⟨hself, hothers, hledger, -⟩ := drainAll_spec (s.fetched f) t
  have hkeeps := drainAll_keeps (s.fetched f) t
  have htime := time_drainAll (s.fetched f) t
  rw [time_fetched] at htime
  generalize (s.fetched f).drainAll t = v at *
  have hnext : (v.patNext t).thr t = { s.thr t with pc := (s.thr t).pc + 4, buf := [] } := by
    simp [State.patNext, State.thr_setThr, hself]
  have hto := untraced_thrTo (v.patNext t) t .halted (by simp [hnext, h.1])
  have hu : ((v.patNext t).thrTo t .halted).ledger = v.ledger := (State.part_congr State.untraced State.ledger (fun _ => rfl) hto).trans (by rfl)
  refine ⟨?_, fun m hm => ?_, fun b hb => ?_, ?_⟩
  · rw [thr_of_untraced hto, State.thr_setThr, if_pos rfl, hnext]
    simp [State.patNext, htime]
  · rw [thr_of_untraced hto]
    simp [State.patNext, State.thr_setThr, hm, hothers]
  · rw [hu, hledger b hb, seen_fetched]
  · rw [noThreads_of_untraced hto, hu, noThreads_setThr]
    exact hkeeps

/-- KICK restarts the watchdog's time for a thread that KICK_EN names (R314). -/
theorem patKick_kicks (h : PatAt s t .kick y) :
    ∃ u, exec (.patKick t f) s = .next u ∧
      u = { (s.fetched f).setThr t { s.thr t with pc := (s.thr t).pc + 4 } with
            sup := if wbit (s.reg Reg.patternKickEn) t then { s.sup with wdtSince := s.cycles, wdtSaid := false } else s.sup } := by
  refine ⟨_, congrArg Host.Outcome.next (patRun_at h hf _), ?_⟩
  rw [← State.reg_congr (regs_fetched s f), ← thr_fetched s f, ← sup_fetched s f, ← cycles_fetched s f]
  generalize s.fetched f = v
  dsimp only
  split <;> rfl

/-- RSP on a rail that is not there ends with 0x0A, whatever the device's role (R313). -/
theorem patRsp_noRail (h : PatAt s t .rsp y) (hno : s.railOk (s.patReg t y.ra).toNat = false ∨ (s.rail (s.patReg t y.ra).toNat).hasPage = false) :
    exec (.patRsp t f) s = .next ((s.fetched f).patPut t y.rd 0x0A) := by
  refine congrArg Host.Outcome.next ((patRun_at h hf _).trans ?_)
  rw [State.patReg] at hno
  rcases hno with hno | hno <;> simp [hno]

/-- RSP on a rail with an active page in SOLO writes its SETPOINT at once (R313). -/
theorem patRsp_solo (h : PatAt s t .rsp y) (hok : s.railOk (s.patReg t y.ra).toNat = true) (hpage : (s.rail (s.patReg t y.ra).toNat).hasPage = true) (hrole : s.twin.st = .solo) :
    exec (.patRsp t f) s = .next (((s.fetched f).writeSetpoint (s.patReg t y.ra).toNat (s.patReg t y.rb)).patPut t y.rd 0) := by
  refine congrArg Host.Outcome.next ((patRun_at h hf _).trans ?_)
  rw [State.patReg] at *
  simp [hok, hpage, hrole, State.roleActs, State.rspAccept, State.patReg]

/-- RSP on a rail with an active page in SHADOW ends with TWIN_ROLE (R398). -/
theorem patRsp_shadow (h : PatAt s t .rsp y) (hok : s.railOk (s.patReg t y.ra).toNat = true) (hpage : (s.rail (s.patReg t y.ra).toNat).hasPage = true) (hrole : s.twin.st = .shadow) :
    exec (.patRsp t f) s = .next ((s.fetched f).patPut t y.rd 0x13) := by
  refine congrArg Host.Outcome.next ((patRun_at h hf _).trans ?_)
  rw [State.patReg] at *
  simp [hok, hpage, hrole, State.roleActs]

end

/-- Settles O23, one lemma for each instruction and outcome. -/
theorem haltKickAndSetpoint : Obligations.HaltKickAndSetpoint := by
  refine ⟨fun s t f y hf h => patHalt_halts hf h, fun s t f y hf h => patKick_kicks hf h, ?_, ?_, ?_⟩
  · rintro s t f y _ hf h rfl hok hpage hrole
    exact ⟨_, patRsp_solo hf h hok hpage hrole, patPut_wrote ..⟩
  · rintro s t f y _ hf h rfl hno
    exact ⟨_, patRsp_noRail hf h hno, patPut_wrote ..⟩
  · rintro s t f y _ hf h rfl hok hpage hrole
    exact ⟨_, patRsp_shadow hf h hok hpage hrole, patPut_wrote ..⟩

/-! ## What the checks of GRANT read -/

/-- A record is checked against the grade, the rails and the planner (R252, R253). -/
theorem requestBad_congr {s u : State} (hgrade : u.grade = s.grade) (hrails : u.rails = s.rails) (hplan : u.plan = s.plan) (b : List Byte) :
    u.requestBad b = s.requestBad b := by
  simp [State.requestBad, State.railOk, hgrade, State.rail_congr hrails, hplan]

/-- A thread's lowest free tag hangs on the planner, on TAG_CFG and on the notices it holds (R310, R311). -/
theorem patTag_congr {s u : State} {t : Nat} (hplan : u.plan = s.plan) (hregs : u.regs = s.regs) (hheld : (u.thr t).held = (s.thr t).held) : u.patTag t = s.patTag t := by
  have hused : u.patTagUsed t = s.patTagUsed t := by
    funext g
    simp [State.patTagUsed, State.grantTag, hplan, hheld]
  unfold State.patTag
  rw [State.reg_congr hregs, hused]

section
variable (s : State) (f ecc : Ecc) (t : Nat)

/-- The check of a record gives behind the thread's drained stores what it gave before them. -/
@[simp] theorem requestBad_read (b : List Byte) : (((s.fetched f).drainAll t).fetched ecc).requestBad b = s.requestBad b :=
  requestBad_congr (by simp) (by simp) (by simp) b

@[simp] theorem patTag_read : (((s.fetched f).drainAll t).fetched ecc).patTag t = s.patTag t :=
  patTag_congr (by simp) (by simp) (by simp [(drainAll_spec (s.fetched f) t).1])

end

/-! ## A fault keeps the plan -/

@[simp] theorem plan_marksCancel (s : State) (p : MarkWho → Bool) : (s.marksCancel p).plan = s.plan := by
  have key : ∀ (l : List Mark) (s : State),
      (l.foldl (fun (s : State) (k : Mark) => match k.who with | .thread _ _ => s.markReport k.who (markWord 3 false 0) s.time.st | _ => s) s).plan = s.plan := by
    intro l
    induction l with
    | nil => exact fun _ => rfl
    | cons k l ih =>
      intro s
      rw [List.foldl_cons, ih]
      cases k.who <;> rfl
  exact key _ _

@[simp] theorem plan_patFault (s : State) (t cause : Nat) : (s.patFault t cause).plan = s.plan := by
  have hevent : ∀ (v : State) ty d b, ((v.thrTo t .faulted).event ty d b).plan = v.plan := fun v ty d b =>
    State.part_congr State.plant State.plan (fun _ => rfl) ((plant_event ..).trans (plant_thrTo ..))
  exact (hevent ..).trans (plan_marksCancel ..)

@[simp] theorem thr_eccUe (s : State) (mem unit m : Nat) : (s.eccUe mem unit).thr m = s.thr m :=
  thr_of_untraced (untraced_of_inner (inner_event ..)) m

@[simp] theorem plan_eccUe (s : State) (mem unit : Nat) : (s.eccUe mem unit).plan = s.plan :=
  (State.part_congr State.inner State.plan (fun _ => rfl) (inner_event ..)).trans (show { s with ue := satInc 0xFFFF s.ue }.plan = s.plan from rfl)

/-- A fault in a state that has the thread's pc and the other threads of an earlier one is a fault against that one. -/
theorem PatFaulted.since {s v u : State} {t cause : Nat} (h : PatFaulted v u t cause) (hpc : (v.thr t).pc = (s.thr t).pc) (hothers : ∀ m, m ≠ t → v.thr m = s.thr m) :
    PatFaulted s u t cause := by
  obtain ⟨hst, hcause, hpc', hwaits, hothers'⟩ := h
  exact ⟨hst, hcause, hpc'.trans hpc, hwaits, fun m hm => (hothers' m hm).trans (hothers m hm)⟩

/-! ## GRANT -/

/-- What GRANT of thread t does in v with the good record b at a, which it has read: nothing while the device is TAKING (R407), else it answers in rd (R309, R310, R398). -/
def State.grantAnswer (v : State) (t rd a : Nat) (b : List Byte) : State :=
  if v.twin.st == .taking then v
  else if !v.roleActs then v.patPut t rd 0x13000000
  else match v.patTag t with
    | none => v.patPut t rd 0x08000000
    | some g => (v.postRequest (requestOf g (some t) (a + 0x20) b)).patPut t rd (wordN g)

section
variable {v : State} (t rd a : Nat) (b : List Byte)

theorem grantAnswer_shadow (hrole : v.twin.st = .shadow) : v.grantAnswer t rd a b = v.patPut t rd 0x13000000 := by
  simp [State.grantAnswer, State.roleActs, hrole]

/-- In SOLO and ACTIVE the thread's lowest free tag decides. -/
theorem grantAnswer_acting (hrole : v.twin.st = .solo ∨ v.twin.st = .active) :
    v.grantAnswer t rd a b =
      (v.patTag t).elim (v.patPut t rd 0x08000000) fun g => (v.postRequest (requestOf g (some t) (a + 0x20) b)).patPut t rd (wordN g) := by
  unfold State.grantAnswer State.roleActs
  cases v.patTag t <;> rcases hrole with hrole | hrole <;> simp [hrole]

end

section
variable {s : State} {t : Fin 16} {f ecc : Ecc} {y : Fields} (hf : f ≠ .uncorrectable) (h : PatAt s t .grant y)
include hf h

/-- A record at or past the read-only ledger memory, or not on a 32-byte boundary, is BAD_DESC (R309). -/
theorem patGrant_badAddress (ha : (s.patReg t y.ra + y.imm).toNat % 32 ≠ 0 ∨ 0x3BE00 ≤ (s.patReg t y.ra + y.imm).toNat) :
    exec (.patGrant t f ecc) s = .next (((s.fetched f).drainAll t).patPut t y.rd 0x0A000000) :=
  congrArg Host.Outcome.next ((patRun_at h hf _).trans (if_pos ha))

variable {a : Nat} (haddr : a = (s.patReg t y.ra + y.imm).toNat) (haligned : a % 32 = 0) (hinside : a < 0x3BE00)
include haddr haligned hinside

/-- An uncorrectable error in the record is a thread fault, and nothing is posted (R291, R555). -/
theorem patGrant_uncorrectable : ∃ u, exec (.patGrant t f .uncorrectable) s = .next u ∧ PatFaulted s u t 8 ∧ u.plan = s.plan := by
  have ha : ¬ (a % 32 ≠ 0 ∨ ledgerRo ≤ a) := by unfold ledgerRo; omega
  subst haddr
  refine ⟨_, congrArg Host.Outcome.next ((patRun_at h hf _).trans ((if_neg ha).trans (if_pos rfl))), ?_, by simp⟩
  obtain ⟨hself, hothers, -⟩ := drainAll_spec (s.fetched f) t
  refine (patFault_faulted _ t 8 ?_).1.since ?_ fun m hm => ?_
  · simp [hself, h.1]
  · simp [hself]
  · simp [hothers m hm]

variable (hecc : ecc ≠ .uncorrectable) (hgood : s.requestBad (((s.fetched f).drainAll t).ledgerBytes a 32) = false)
include hecc hgood

/-- A good record, read without an uncorrectable error, is answered. -/
theorem patGrant_answers :
    exec (.patGrant t f ecc) s = .next ((((s.fetched f).drainAll t).fetched ecc).grantAnswer t y.rd a (((s.fetched f).drainAll t).ledgerBytes a 32)) := by
  have ha : ¬ (a % 32 ≠ 0 ∨ ledgerRo ≤ a) := by unfold ledgerRo; omega
  have hgood' : ¬ (((s.fetched f).drainAll t).fetched ecc).requestBad (((s.fetched f).drainAll t).ledgerBytes a 32) = true := by simp [hgood]
  subst haddr
  exact congrArg Host.Outcome.next ((patRun_at h hf _).trans ((if_neg ha).trans ((if_neg hecc).trans (if_neg hgood'))))

end

/-! ## GREL -/

section
variable {s : State} {t : Fin 16} {f : Ecc} {y : Fields} (hf : f ≠ .uncorrectable) (h : PatAt s t .grel y) (hrole : s.twin.st = .solo ∨ s.twin.st = .active)
include hf h hrole

/-- GREL of a tag of the thread's own grants asks for the release, and of any other tag answers 0x0A (R312). -/
theorem patGrel_answers :
    exec (.patGrel t f) s = .next (
      if s.plan.grants.any fun k => k.tag == (s.patReg t y.ra).toNat && k.thread == some t.val && !k.ended then
        { s.fetched f with plan := { s.plan with releases := s.plan.releases ++ [((s.patReg t y.ra).toNat, none)] } }.patPut t y.rd 0
      else (s.fetched f).patPut t y.rd 0x0A) := by
  have hacts : ¬ (!((s.fetched f).roleActs || (s.fetched f).twin.st == .taking)) = true := by
    rcases hrole with hrole | hrole <;> simp [State.roleActs, hrole]
  refine congrArg Host.Outcome.next ((patRun_at h hf _).trans ((if_neg hacts).trans ?_))
  rw [plan_fetched]
  rfl

theorem patGrel_releases {k : Grant} (hmem : k ∈ s.plan.grants) (htag : k.tag = (s.patReg t y.ra).toNat) (hown : k.thread = some t.val) (hlive : k.ended = false) :
    exec (.patGrel t f) s = .next ({ s.fetched f with plan := { s.plan with releases := s.plan.releases ++ [(k.tag, none)] } }.patPut t y.rd 0) := by
  rw [patGrel_answers hf h hrole, if_pos (List.any_eq_true.mpr ⟨k, hmem, by simp [htag, hown, hlive]⟩), htag]

theorem patGrel_notOwn (hnone : ∀ k ∈ s.plan.grants, k.tag = (s.patReg t y.ra).toNat → k.thread = some t.val → k.ended = true) :
    exec (.patGrel t f) s = .next ((s.fetched f).patPut t y.rd 0x0A) := by
  rw [patGrel_answers hf h hrole, if_neg]
  simpa using hnone

end

/-- Settles O24: GRANT by its address, the ECC of its record and its answer, GREL by its answer. -/
theorem threadGrants : Obligations.ThreadGrants := by
  refine ⟨?_, ?_, ?_, ?_, ?_, ?_, ?_⟩
  · intro s t f y a g ecc hf hecc h haddr haligned hinside hgood hrole htag
    refine ⟨_, patGrant_answers hf h haddr haligned hinside hecc hgood, ?_⟩
    rw [grantAnswer_acting _ _ _ _ (by simpa using hrole), patTag_read, htag]
    exact patPut_wrote ..
  · rintro s t f y _ ecc hf h rfl hbad
    exact ⟨_, patGrant_badAddress hf h hbad, patPut_wrote ..⟩
  · intro s t f y a ecc hf hecc h haddr haligned hinside hgood hrole htag
    refine ⟨_, patGrant_answers hf h haddr haligned hinside hecc hgood, ?_⟩
    rw [grantAnswer_acting _ _ _ _ (by simpa using hrole), patTag_read, htag]
    exact patPut_wrote ..
  · intro s t f y a ecc hf hecc h haddr haligned hinside hgood hrole
    refine ⟨_, patGrant_answers hf h haddr haligned hinside hecc hgood, ?_⟩
    rw [grantAnswer_shadow _ _ _ _ (by simpa using hrole)]
    exact patPut_wrote ..
  · intro s t f y k hf h hrole hmem htag hown hlive
    exact ⟨_, patGrel_releases hf h hrole hmem htag hown hlive, patPut_wrote ..⟩
  · intro s t f y hf h hrole hnone
    exact ⟨_, patGrel_notOwn hf h hrole hnone, patPut_wrote ..⟩
  · exact fun s t f y a hf h haddr haligned hinside => patGrant_uncorrectable hf h haddr haligned hinside

end Sys2Proof.Machine

/-! PROOF. Commands of NVM.CTL, OTP rows programmed and read, and page access through the two-wire port (R503 to R514, R518, R520, R522). -/

namespace Sys2Proof.Machine

/-! ## NVM.CTL -/

section
variable {s : State}

theorem viaBar0_reached (h : s.ringsUp = true) (f : State → State) : s.viaBar0 f = f s := if_pos h

theorem viaBar0_unreached (h : s.ringsUp = false) (f : State → State) : s.viaBar0 f = s := by simp [State.viaBar0, h]

theorem nvmCmd_wrongKey {key : Byte} (h : key ≠ 0x5A) (ok : Bool) (f : State → State) : nvmCmd key s ok f = s := by
  simp only [nvmCmd, State.viaBar0, if_pos h, ite_self]

theorem nvmCmd_unreached (h : s.ringsUp = false) (key : Byte) (ok : Bool) (f : State → State) : nvmCmd key s ok f = s :=
  viaBar0_unreached h _

/-- With its key a command that reaches the registers has its effect where it is allowed, and sets REJ elsewhere (R522). -/
theorem nvmCmd_answers (h : s.ringsUp = true) (ok : Bool) (f : State → State) :
    nvmCmd 0x5A s ok f = if ok then f s else { s with nvm := { s.nvm with rej := true } } :=
  viaBar0_reached h _

theorem sealLock_answers (h : s.ringsUp = true) :
    exec (.sealLock 0x5A) s = .next (if s.grade = 0 ∧ (s.nvm.lc = .integration ∨ s.nvm.lc = .sealed)
      then { s with nvm := { s.nvm with fuseJob := s.nvm.fuseJob ++ [(0x0C, 2)] } } else { s with nvm := { s.nvm with rej := true } }) :=
  congrArg Host.Outcome.next ((nvmCmd_answers h _ _).trans (if_congr (by simp) rfl rfl))

theorem setPwd_answers (h : s.ringsUp = true) :
    exec (.setPwd 0x5A) s = .next (if s.grade ≠ 0 ∧ (s.otpRead 0x0C).getLsbD 2 = false
      then { s with nvm := { s.nvm with fuseJob := s.nvm.fuseJob ++ [(0x10, s.pwdWord 0), (0x11, s.pwdWord 1), (0x0C, 4)] } }
      else { s with nvm := { s.nvm with rej := true } }) :=
  congrArg Host.Outcome.next ((nvmCmd_answers h _ _).trans (if_congr (by simp [State.fuse]) rfl rfl))

theorem unlock_answers (h : s.ringsUp = true) :
    exec (.unlock 0x5A) s = .next (if s.grade = 0 ∨ 8 ≤ s.nvm.fails then { s with nvm := { s.nvm with rej := true } }
      else if s.pwdWord 0 = s.otpRead 0x10 ∧ s.pwdWord 1 = s.otpRead 0x11 then { s with nvm := { s.nvm with unlocked := true } }
      else { s with nvm := { s.nvm with fails := s.nvm.fails + 1 } }) := by
  have hallowed : (s.grade != 0 && decide (s.nvm.fails < 8)) = true ↔ ¬ (s.grade = 0 ∨ 8 ≤ s.nvm.fails) := by simp
  exact congrArg Host.Outcome.next ((nvmCmd_answers h _ _).trans ((if_congr hallowed rfl rfl).trans (ite_not ..)))

theorem relock_answers (h : s.ringsUp = true) :
    exec (.relock 0x5A) s = .next (if s.grade = 0 then { s with nvm := { s.nvm with rej := true } }
      else { s with nvm := { s.nvm with unlocked := false } }) := by
  have hallowed : (s.grade != 0) = true ↔ ¬ s.grade = 0 := by simp
  exact congrArg Host.Outcome.next ((nvmCmd_answers h _ _).trans ((if_congr hallowed rfl rfl).trans (ite_not ..)))

end

/-! ## Programming an OTP row that has no spare -/

/-- The value of a row is read from the rows, the spares and the redirection table alone. -/
theorem otpRead_congr {s t : State} (hrows : t.nvm.otp = s.nvm.otp) (hspares : t.nvm.spares = s.nvm.spares) (hredir : t.nvm.redir = s.nvm.redir) (r : Nat) :
    t.otpRead r = s.otpRead r := by
  simp only [State.otpRead, State.otpRow, hrows, hspares, hredir]

section
variable {s : State} {r : Nat} (hplain : redirOf s.nvm.redir r = none)
include hplain

/-- A row that passes the strict read after its program holds its bits and the new ones, and is not weak (R513). -/
theorem otpProgram_good (v : DWord) :
    s.otpProgram r v true =
      s.modNvm fun n => { n with otp := tabSet (fun _ => 0) n.otp r (s.otpRead r ||| v), weak := n.weak.filter (· != r) } := by
  simp only [State.otpProgram, State.otpPut, hplain, if_pos]
  rfl

theorem otpRead_otpProgram (v : DWord) (k : Nat) :
    (s.otpProgram r v true).otpRead k = if k = r then s.otpRead r ||| v else s.otpRead k := by
  rw [otpProgram_good hplain]
  simp only [State.otpRead, State.otpRow, State.modNvm_nvm, tabGet_tabSet]
  by_cases hk : k = r
  · simp [hk, hplain]
  · simp [hk]

/-- Programming a word that names every bit of the row leaves that word in it. -/
theorem otpRead_otpProgram_covered {v : DWord} (hfits : s.otpRead r &&& ~~~v = 0) : (s.otpProgram r v true).otpRead r = v := by
  have hcover : s.otpRead r ||| v = (s.otpRead r &&& ~~~v) ||| v := by
    ext i hi
    cases hbit : v[i] <;> simp [hbit]
  rw [otpRead_otpProgram hplain, if_pos rfl, hcover, hfits]
  exact BitVec.zero_or

end

/-- A fuse that waits is programmed first (R513). -/
theorem otpRowProgrammed_fuse {s : State} {r : Nat} {v : DWord} {l : List (Nat × DWord)} (hjob : s.nvm.fuseJob = (r, v) :: l) (strictOk : Bool) :
    exec (.otpRowProgrammed strictOk) s = .next ((s.modNvm fun n => { n with fuseJob := l }).otpProgram r v strictOk) := by
  show Host.Outcome.next _ = _
  rw [hjob]

/-- With no fuse waiting the next row of the transition is programmed (R518). -/
theorem otpRowProgrammed_transition {s : State} {o r : Nat} {v : DWord} {l : List (Nat × DWord)} (hfuse : s.nvm.fuseJob = [])
    (hjob : s.nvm.lcJob = some (o, (r, v) :: l)) (strictOk : Bool) :
    exec (.otpRowProgrammed strictOk) s = .next (s.lcRow o r v l strictOk) := by
  show Host.Outcome.next _ = _
  rw [hfuse, hjob]

/-- What a fuse's program does: it leaves the queue, its bits are in the row, and no other row and nothing outside the NVM changes. -/
theorem otpRowProgrammed_fuse_spec {s : State} {r : Nat} {v : DWord} {l : List (Nat × DWord)} (hjob : s.nvm.fuseJob = (r, v) :: l)
    (hplain : redirOf s.nvm.redir r = none) :
    ∃ t, exec (.otpRowProgrammed true) s = .next t ∧ t.nvm.fuseJob = l ∧ t.otpRead r = (s.otpRead r ||| v) ∧
      (∀ k, k ≠ r → t.otpRead k = s.otpRead k) ∧ { t with nvm := s.nvm } = s := by
  have hread := otpRead_otpProgram (s := s.modNvm fun n => { n with fuseJob := l }) hplain v
  refine ⟨_, otpRowProgrammed_fuse hjob true, ?_, ?_, fun k hk => ?_, ?_⟩
  · rw [otpProgram_good (by exact hplain)]
    rfl
  · exact (hread r).trans (if_pos rfl)
  · exact (hread k).trans (if_neg hk)
  · rw [otpProgram_good (by exact hplain)]
    rfl

/-! ## The rows of a transition -/

section
variable {u t : State} {o tag code status result : Nat} {op : Op}

theorem completeTag_going (hfind : u.findOp tag = some op) (hgoing : op.done = false) (status : Nat) :
    u.completeTag tag status = u.complete op status := by
  simp [State.completeTag, hfind, hgoing]

theorem nvm_complete (htag : op.tag < planTag) (status flags result : Nat) : (u.complete op status flags result).nvm = u.nvm := by
  have h := congrArg State.nvm (inner_complete u op status flags result htag)
  exact h

/-- The end of an operation is still its end when the NVM changes besides. -/
theorem Ends.modNvm (h : Ends u tag status result t) (f : Nvm → Nvm) :
    Ends { u with nvm := (t.modNvm f).nvm } tag status result (t.modNvm f) := by
  obtain ⟨hinner, hposted, hnone⟩ := h
  exact ⟨congrArg (fun x : State => { x with nvm := f t.nvm }) hinner, hposted, hnone⟩

/-- Outside its NVM and its operations u is as t. -/
def SameButNvm (t u : State) : Prop := { u with nvm := t.nvm, ops := t.ops } = t

theorem SameButNvm.modNvm (h : SameButNvm t u) (f : Nvm → Nvm) : SameButNvm t (u.modNvm f) := h

/-- Two such states under the same NVM do not differ behind the host interface. -/
theorem SameButNvm.inner (h : SameButNvm t u) (n : Nvm) : ({ u with nvm := n } : State).inner = ({ t with nvm := n } : State).inner := by
  have hinner := congrArg (fun x : State => ({ x with nvm := n } : State).inner) h
  exact hinner

/-- A transition's end once its state word is in place: its operation completes OK, and the part counts as sealed (R518). -/
def State.sealEnd (u : State) (op : Op) : State := (u.complete op stOk).modNvm fun n => { n with pendingSeal := true, sealedNow := true }

theorem sealEnd_spec (hsame : SameButNvm t u) (htag : op.tag < planTag) (r : Nat) :
    (u.sealEnd op).otpRead r = u.otpRead r ∧ (u.sealEnd op).nvm.lcJob = u.nvm.lcJob ∧ (u.sealEnd op).nvm.pendingSeal = true ∧
      Ends { t with nvm := (u.sealEnd op).nvm } op.tag stOk 0 (u.sealEnd op) := by
  have hnvm : (u.sealEnd op).nvm = { u.nvm with pendingSeal := true, sealedNow := true } :=
    congrArg (fun n : Nvm => { n with pendingSeal := true, sealedNow := true }) (nvm_complete htag stOk 0 0)
  have hends : Ends { u with nvm := (u.sealEnd op).nvm } op.tag stOk 0 (u.sealEnd op) := (ends_complete u op stOk 0 htag (by decide) (by decide)).modNvm _
  exact ⟨otpRead_congr (by rw [hnvm]) (by rw [hnvm]) (by rw [hnvm]) r, by rw [hnvm], by rw [hnvm], ends_of_inner (hsame.inner _) hends⟩

end

section
variable {s : State} {tag r : Nat} {v : DWord}

/-- What a transition has left to program: its tag and rows, or nothing. -/
def State.lcLeft (s : State) (rows : Option (Nat × List (Nat × DWord))) : State := s.modNvm fun n => { n with lcJob := rows }

theorem otpRead_lcLeft (rows : Option (Nat × List (Nat × DWord))) : (s.lcLeft rows).otpRead r = s.otpRead r := otpRead_congr rfl rfl rfl r

/-- A transition's row has been programmed: its row is r with word v, and the transition's operation is past its commit point (R518). -/
def State.lcRowDone (s : State) (tag r : Nat) (v : DWord) : State := (s.otpProgram r v true).modOp tag fun p => { p with committed := true }

/-- A row that holds a bit its word does not name stops the transition (R520). -/
theorem lcRow_denied (hbits : s.otpRead r &&& ~~~v ≠ 0) (rest : List (Nat × DWord)) (strictOk : Bool) :
    s.lcRow tag r v rest strictOk = (s.lcLeft none).completeTag tag stDenied :=
  if_pos hbits

theorem lcRow_last (hfits : s.otpRead r &&& ~~~v = 0) :
    s.lcRow tag r v [] true = (((s.lcRowDone tag r v).lcLeft none).completeTag tag stOk).modNvm fun n => { n with pendingSeal := true, sealedNow := true } := by
  simp [State.lcRow, State.lcRowDone, State.lcLeft, hfits]

theorem lcRow_more (hfits : s.otpRead r &&& ~~~v = 0) {rest : List (Nat × DWord)} (hmore : rest ≠ []) :
    s.lcRow tag r v rest true = (s.lcRowDone tag r v).lcLeft (some (tag, rest)) := by
  simp [State.lcRow, State.lcRowDone, State.lcLeft, hfits, hmore]

theorem findOp_lcRowDone {op : Op} (hplain : redirOf s.nvm.redir r = none) (hfind : s.findOp tag = some op) :
    (s.lcRowDone tag r v).findOp tag = some { op with committed := true } := by
  rw [State.lcRowDone, otpProgram_good hplain]
  exact findOp_modOp (s := State.modNvm _ _) hfind _ rfl

theorem otpRead_lcRowDone (hplain : redirOf s.nvm.redir r = none) (hfits : s.otpRead r &&& ~~~v = 0) : (s.lcRowDone tag r v).otpRead r = v :=
  (otpRead_congr rfl rfl rfl r).trans (otpRead_otpProgram_covered hplain hfits)

theorem sameButNvm_lcRowDone (hplain : redirOf s.nvm.redir r = none) : SameButNvm s (s.lcRowDone tag r v) := by
  rw [State.lcRowDone, otpProgram_good hplain]
  rfl

end

section
variable {s : State} {o r : Nat} {op : Op} {v : DWord} (hgoes : GoesOn s o 0x73 op)
include hgoes

theorem lcRow_denied_ends (hbits : s.otpRead r &&& ~~~v ≠ 0) (rest : List (Nat × DWord)) (strictOk : Bool) :
    Ends { s with nvm := { s.nvm with lcJob := none } } o stDenied 0 (s.lcRow o r v rest strictOk) := by
  obtain ⟨hfind, -, hgoing⟩ := liveOp_find hgoes.1
  rw [lcRow_denied hbits, completeTag_going (by exact hfind) hgoing]
  exact ends_of_goes hgoes _ (by decide) (by decide)

variable (hplain : redirOf s.nvm.redir r = none) (hfits : s.otpRead r &&& ~~~v = 0)
include hplain hfits

/-- The last row of a transition: its word is in place, and the transition ends OK (R518). -/
theorem lcRow_last_ends :
    ∃ t, s.lcRow o r v [] true = t ∧ t.otpRead r = v ∧ t.nvm.lcJob = none ∧ t.nvm.pendingSeal = true ∧ Ends { s with nvm := t.nvm } o stOk 0 t := by
  obtain ⟨hfind, -, hgoing⟩ := liveOp_find hgoes.1
  obtain rfl := liveOp_tag hgoes.1
  obtain ⟨-, -, htag⟩ := hgoes
  have hrow : s.lcRow op.tag r v [] true = ((s.lcRowDone op.tag r v).lcLeft none).sealEnd { op with committed := true } := by
    rw [lcRow_last hfits, completeTag_going (by exact findOp_lcRowDone hplain hfind) (by exact hgoing), State.sealEnd]
  have hsame : SameButNvm s ((s.lcRowDone op.tag r v).lcLeft none) := (sameButNvm_lcRowDone hplain).modNvm _
  obtain ⟨hread, hjob, hseal, hends⟩ := sealEnd_spec (op := { op with committed := true }) hsame htag r
  exact ⟨_, hrow, hread.trans ((otpRead_lcLeft _).trans (otpRead_lcRowDone hplain hfits)), hjob, hseal, hends⟩

omit hgoes in
/-- A row before the last: its word is in place, and the rows behind it are left (R518). -/
theorem lcRow_more_left {rest : List (Nat × DWord)} (hmore : rest ≠ []) :
    ∃ t, s.lcRow o r v rest true = t ∧ t.otpRead r = v ∧ t.nvm.lcJob = some (o, rest) ∧ { t with nvm := s.nvm, ops := s.ops } = s :=
  ⟨_, lcRow_more hfits hmore, (otpRead_lcLeft _).trans (otpRead_lcRowDone hplain hfits), rfl, (sameButNvm_lcRowDone hplain).modNvm _⟩

end

/-! ## Reading an OTP row -/

theorem toNat_halves (w : DWord) : (w.setWidth 32).toNat + 2 ^ 32 * ((w >>> 32).setWidth 32).toNat = w.toNat := by
  have := w.isLt
  simp only [BitVec.toNat_setWidth, BitVec.toNat_ushiftRight, Nat.shiftRight_eq_div_pow]
  omega

/-- A number below 2^32 reads in its fields as itself. -/
theorem fld_ofNat {n : Nat} (h : n < 2 ^ 32) (hi lo : Nat) : fld (BitVec.ofNat 32 n) hi lo = n / 2 ^ lo % 2 ^ (hi + 1 - lo) := by
  rw [fld, bitsOf, BitVec.toNat_ofNat, Nat.mod_eq_of_lt h, Nat.shiftRight_eq_div_pow]

/-- The row that a read shows (R509, R510): the password rows show nothing. -/
def State.otpShown (s : State) (r : Nat) : DWord := if r = 0x10 ∨ r = 0x11 then 0 else s.otpRead r

theorem otpShown_toNat (s : State) (r : Nat) : (s.otpShown r).toNat = if r = 0x10 ∨ r = 0x11 then 0 else (s.otpRead r).toNat := by
  rw [State.otpShown, apply_ite BitVec.toNat]
  rfl

theorem otpRowRead_answers {s : State} (hup : s.ringsUp = true) (hweak : s.nvm.weak = []) (r : Fin 1024) :
    exec (.otpRowRead (BitVec.ofNat 32 r.val)) s = .next ((s.setReg Reg.nvmOtpSel 0 (BitVec.ofNat 32 r.val &&& 0x800003FF)).modNvm fun n =>
      { n with otpLo := (s.otpShown r).setWidth 32, otpHi := (s.otpShown r >>> 32).setWidth 32, otpRedir := (redirOf s.nvm.redir r).isSome }) := by
  have hrow : fld (BitVec.ofNat 32 r.val) 9 0 = r.val := by
    rw [fld_ofNat (by omega)]
    omega
  refine congrArg Host.Outcome.next ((viaBar0_reached hup _).trans ?_)
  simp only [State.otpSelect, hrow, State.setReg_nvm, hweak, List.contains_nil, Bool.and_false, Bool.false_and]
  rfl

/-! ## The two-wire port's page access -/

section
variable {s : State} (v : Word)

theorem nvmwRead_reached (hup : s.portUp = true) : exec (.nvmwRead v) s = .next (s.nvmwWrite v) :=
  congrArg Host.Outcome.next (if_pos hup)

theorem nvmwProgram_reached (hup : s.portUp = true) : exec (.nvmwProgram v) s = .next (s.nvmwWrite v) :=
  congrArg Host.Outcome.next (if_pos hup)

/-- While a page program runs the port NACKs (R503). -/
theorem nvmwWrite_busy (hjob : s.nvm.job ≠ none) : s.nvmwWrite v = s.nack :=
  if_pos (Option.isSome_iff_ne_none.mpr hjob)

/-- A write of SUP.NVMW_CTL that is taken: PAGE is kept, and bit 28 clears ERR (R506). -/
def State.nvmwTake (s : State) (v : Word) : State :=
  (s.setReg Reg.supNvmwCtl 0 (v &&& 0xFFF)).modNvm fun n => { n with twErr := n.twErr && !wbit v 28 }

theorem nvmwTake_twBuf : (s.nvmwTake v).nvm.twBuf = s.nvm.twBuf := rfl

/-- The page buffer filled with bytes from its start. -/
def twFill (buf : List (Nat × Byte)) (bytes : List Byte) : List (Nat × Byte) :=
  bytes.zipIdx.foldl (fun t e => tabSet (fun _ => (0 : Byte)) t e.2 e.1) buf

theorem tabGet_foldl_tabSet_zipIdx (l : List Byte) (t : List (Nat × Byte)) (n i : Nat) :
    tabGet (fun _ => (0 : Byte)) ((l.zipIdx n).foldl (fun t e => tabSet (fun _ => (0 : Byte)) t e.2 e.1) t) i =
      if n ≤ i ∧ i < n + l.length then l.getD (i - n) 0 else tabGet (fun _ => (0 : Byte)) t i := by
  induction l generalizing t n with
  | nil => simp
  | cons b l ih =>
    rw [List.zipIdx_cons, List.foldl_cons, ih, tabGet_tabSet, List.length_cons]
    rcases Nat.lt_trichotomy i n with hi | rfl | hi
    · simp [show ¬ n + 1 ≤ i by omega, show ¬ n ≤ i by omega, show i ≠ n by omega]
    · simp
    · obtain ⟨k, rfl⟩ := Nat.exists_eq_add_of_lt hi
      simp [show n + k + 1 ≠ n by omega, show n + k + 1 - n = k + 1 by omega, show n + k + 1 - (n + 1) = k by omega, show n ≤ n + k + 1 by omega,
        show n + k + 1 < n + 1 + l.length ↔ n + k + 1 < n + (l.length + 1) by omega]

/-- A filled buffer reads as the bytes, as far as they reach. -/
theorem tabGet_twFill (buf : List (Nat × Byte)) {bytes : List Byte} {i : Nat} (h : i < bytes.length) :
    tabGet (fun _ => (0 : Byte)) (twFill buf bytes) i = bytes.getD i 0 := by
  rw [twFill, tabGet_foldl_tabSet_zipIdx, if_pos ⟨Nat.zero_le i, by omega⟩, Nat.sub_zero]

theorem nvmBytes_length (a n : Nat) : (s.nvmBytes a n).length = n := by
  rw [State.nvmBytes, memRead_eq_map, List.length_map, List.length_range]

theorem readWord_fields (p : Fin 4096) : fld (BitVec.ofNat 32 (2 ^ 30 + p.val)) 11 0 = p.val ∧ fld (BitVec.ofNat 32 (2 ^ 30 + p.val)) 31 30 = 1 := by
  rw [fld_ofNat (by omega), fld_ofNat (by omega)]
  omega

theorem programWord_fields (p : Fin 4096) : fld (BitVec.ofNat 32 (2 ^ 31 + p.val)) 11 0 = p.val ∧ fld (BitVec.ofNat 32 (2 ^ 31 + p.val)) 31 30 = 2 := by
  rw [fld_ofNat (by omega), fld_ofNat (by omega)]
  omega

variable {v}

/-- READ: the page is in the buffer where the port may read it and VNV is in its window, and ERR sets elsewhere (R506, log entry 17). -/
theorem nvmwWrite_read (hjob : s.nvm.job = none) (hcmd : fld v 31 30 = 1) :
    s.nvmwWrite v =
      if twReads (fld v 11 0) = true ∧ s.railIn 2 = true then (s.nvmwTake v).modNvm fun n => { n with twBuf := twFill n.twBuf (s.nvmBytes (256 * fld v 11 0) 256) }
      else (s.nvmwTake v).modNvm fun n => { n with twErr := true } := by
  have hpasses : ¬ (!twReads (fld v 11 0) || !s.railIn 2) = true ↔ twReads (fld v 11 0) = true ∧ s.railIn 2 = true := by simp
  rw [← if_congr hpasses rfl rfl, ite_not]
  simp only [State.nvmwWrite, hjob, hcmd]
  rfl

theorem nvmwWrite_read_twBuf (hjob : s.nvm.job = none) (hcmd : fld v 31 30 = 1) (hreads : twReads (fld v 11 0) = true) (hvnv : s.railIn 2 = true) :
    (s.nvmwWrite v).nvm.twBuf = twFill s.nvm.twBuf (s.nvmBytes (256 * fld v 11 0) 256) := by
  rw [nvmwWrite_read hjob hcmd, if_pos ⟨hreads, hvnv⟩]
  simp only [State.modNvm_nvm, nvmwTake_twBuf]

/-- PROGRAM NACKs while a page program, a host operation, the brace or the lock of NVM.CTL bars it (R503 to R505). -/
theorem nvmwWrite_program_barred (hcmd : fld v 31 30 = 2)
    (hbar : s.nvm.job ≠ none ∨ s.nvmHost = true ∨ s.sup.brace = true ∨ wbit (s.reg Reg.nvmCtl) 0 = true) : s.nvmwWrite v = s.nack := by
  by_cases hjob : s.nvm.job = none
  · have hbar' : (s.nvmHost || s.sup.brace || wbit (s.reg Reg.nvmCtl) 0) = true := by simpa [hjob, or_assoc] using hbar
    simp only [State.nvmwWrite, hjob, hcmd, hbar']
    rfl
  · exact nvmwWrite_busy v hjob

/-- The page buffer as the program of a page takes it. -/
def twPageJob (buf : List (Nat × Byte)) (page : Nat) : NvmJob :=
  { owner := .twowire, page := page, data := (List.range 256).map fun i => tabGet (fun _ => (0 : Byte)) buf i }

/-- PROGRAM, nothing barring it: the page's program runs where the port may program it and VNV is in its window, and ERR sets elsewhere (R504 to R506, log entry 17). -/
theorem nvmwWrite_program (hjob : s.nvm.job = none) (hcmd : fld v 31 30 = 2) (hhost : s.nvmHost = false) (hbrace : s.sup.brace = false)
    (hlock : wbit (s.reg Reg.nvmCtl) 0 = false) :
    s.nvmwWrite v =
      if twPage (fld v 11 0) = true ∧ s.railIn 2 = true then (s.nvmwTake v).modNvm fun n => { n with twBusy := true, job := some (twPageJob n.twBuf (fld v 11 0)) }
      else (s.nvmwTake v).modNvm fun n => { n with twErr := true } := by
  have hpasses : ¬ (!twPage (fld v 11 0) || !s.railIn 2) = true ↔ twPage (fld v 11 0) = true ∧ s.railIn 2 = true := by simp
  rw [← if_congr hpasses rfl rfl, ite_not]
  simp only [State.nvmwWrite, hjob, hcmd, hhost, hbrace, hlock]
  rfl

end

/-- Settles O58: the commands of NVM.CTL by their answers, an OTP row by what it holds behind its program, a page access of the two-wire port by what it finds. -/
theorem nvmCommandsAndOtp : Obligations.NvmCommandsAndOtp := by
  refine ⟨?_, ?_, ?_, ?_, ?_, ?_, ?_, ?_, ?_, ?_⟩
  · intro s k hkey
    exact ⟨congrArg Host.Outcome.next (nvmCmd_wrongKey hkey _ _), congrArg Host.Outcome.next (nvmCmd_wrongKey hkey _ _),
      congrArg Host.Outcome.next (nvmCmd_wrongKey hkey _ _), congrArg Host.Outcome.next (nvmCmd_wrongKey hkey _ _)⟩
  · intro s k v hdown
    exact ⟨congrArg Host.Outcome.next (nvmCmd_unreached hdown _ _ _), congrArg Host.Outcome.next (nvmCmd_unreached hdown _ _ _),
      congrArg Host.Outcome.next (nvmCmd_unreached hdown _ _ _), congrArg Host.Outcome.next (nvmCmd_unreached hdown _ _ _),
      congrArg Host.Outcome.next (viaBar0_unreached hdown _)⟩
  · exact fun s hup => sealLock_answers hup
  · exact fun s hup => setPwd_answers hup
  · exact fun s hup => unlock_answers hup
  · exact fun s hup => relock_answers hup
  · exact fun s r v l hjob hplain => otpRowProgrammed_fuse_spec hjob hplain
  · intro s o op r v l hfuse hjob hgoes hplain
    rw [otpRowProgrammed_transition hfuse hjob]
    refine ⟨fun hbits => ⟨_, rfl, lcRow_denied_ends hgoes hbits l true⟩, ?_, fun hfits hmore => ?_⟩
    · rintro hfits rfl
      obtain ⟨t, rfl, hends⟩ := lcRow_last_ends hgoes hplain hfits
      exact ⟨_, rfl, hends⟩
    · obtain ⟨t, rfl, hleft⟩ := lcRow_more_left hplain hfits hmore (o := o)
      exact ⟨_, rfl, hleft⟩
  · intro s r hup hweak
    exact ⟨_, otpRowRead_answers hup hweak r, (toNat_halves _).trans (otpShown_toNat s r), rfl⟩
  · intro s p hup
    obtain ⟨hpageR, hread⟩ := readWord_fields p
    obtain ⟨hpageP, hprogram⟩ := programWord_fields p
    simp only [nvmwRead_reached _ hup, nvmwProgram_reached _ hup]
    refine ⟨fun hjob => ⟨_, rfl, nvmwWrite_busy _ hjob⟩, fun hjob hreads hvnv => ⟨_, rfl, fun i hi => ?_⟩, fun hbar => ⟨_, rfl, nvmwWrite_program_barred hprogram hbar⟩,
      fun hjob hhost hbrace hlock hvnv => ⟨_, rfl, ?_⟩, fun hjob hvnv => ⟨_, rfl, ?_⟩, fun hjob hhost hbrace hlock hvnv => ⟨_, rfl, ?_⟩⟩
    · have hlen : i < (s.nvmBytes (256 * p.val) 256).length := by rwa [nvmBytes_length]
      rw [nvmwWrite_read_twBuf hjob hread (by rw [hpageR]; exact hreads) hvnv, hpageR, tabGet_twFill _ hlen]
    · rw [nvmwWrite_program hjob hprogram hhost hbrace hlock, hpageP]
      by_cases hmay : twPage p = true
      · rw [if_pos hmay, if_pos ⟨hmay, hvnv⟩]
        exact ⟨rfl, rfl⟩
      · rw [if_neg hmay, if_neg fun h => hmay h.1]
        exact ⟨rfl, hjob⟩
    · rw [nvmwWrite_read hjob hread, if_neg (by simp [hvnv])]
      exact ⟨rfl, rfl⟩
    · rw [nvmwWrite_program hjob hprogram hhost hbrace hlock, if_neg (by simp [hvnv])]
      exact ⟨rfl, hjob⟩

end Sys2Proof.Machine

/-! PROOF. Challenge and response, random bytes and life-cycle transitions (R517, R518, R530 to R533, R541, R542): each operation by its checks, by the state it leaves and by how it ends there. -/

namespace Sys2Proof.Machine

/-! ## What a check answers, and what the end of an operation keeps -/

section
variable {s u : State} {tag code : Nat} {op : Op}

/-- An operation that starts against a format rule of its own is BAD_DESC (R356). -/
theorem opRun_bad (h : Starts s tag code op) {bad : Op → State → Bool} (hbad : bad op s = true) (pre : Op → State → Option Nat) (f : Op → State → State) :
    opRun s tag code bad pre f = s.complete op stBadDesc := by
  obtain ⟨hlive, hnew, -⟩ := h
  rw [opRun, withOp_live hlive]
  simp [hnew, hbad]

/-- An operation that its own state check refuses as it starts ends with that check's status (R356). -/
theorem opRun_refused (h : Starts s tag code op) {bad : Op → State → Bool} {pre : Op → State → Option Nat} {status : Nat} (hgood : bad op s = false)
    (hpre : pre op s = some status) (f : Op → State → State) : opRun s tag code bad pre f = s.complete op status := by
  obtain ⟨hlive, hnew, -, hrole, -⟩ := h
  rw [opRun, withOp_live hlive]
  cases hcode : roleA code with
  | false => simp [hnew, hgood, hpre]
  | true =>
    have hacts := hrole hcode
    have hfree : (s.twin.st == .taking) = false := by
      unfold State.roleActs at hacts
      cases hst : s.twin.st <;> simp_all
    simp [hnew, hgood, hpre, hacts, hfree]

/-- An operation that passes its checks, or passed them before, has its effect. -/
theorem opRun_live {bad : Op → State → Bool} {pre : Op → State → Option Nat}
    (h : (Starts s tag code op ∧ bad op s = false ∧ pre op s = none) ∨ GoesOn s tag code op) (f : Op → State → State) :
    opRun s tag code bad pre f = f op s := by
  rcases h with ⟨hstarts, hgood, hpass⟩ | hgoes
  · exact opRun_starts hstarts hgood hpass f
  · exact opRun_goes hgoes bad pre f

/-- The operation of a tag is in flight under a host's tag, whether it starts or goes on. -/
theorem live_of_starts_or_goes (h : Starts s tag code op ∨ GoesOn s tag code op) : s.liveOp tag code = some op ∧ tag < planTag := by
  rcases h with ⟨hlive, -, htag, -⟩ | ⟨hlive, -, htag⟩ <;> exact ⟨hlive, htag⟩

/-- An operation in flight ends with its tag in any state, and against any state that is the same behind the host interface. -/
theorem ends_of_live (hlive : s.liveOp tag code = some op) (htag : tag < planTag) {u u' : State} (hu : u'.inner = u.inner) {status result : Nat}
    (hs : status < 256) (hr : result < 2 ^ 64) : Ends u tag status result (u'.complete op status 0 result) := by
  obtain rfl := liveOp_tag hlive
  exact ends_of_inner hu (ends_complete u' op status result htag hs hr)

/-- What has left the device stays when waiting records are written. -/
theorem mem_out_cqDrain {x : Out} (n q : Nat) (s : State) (h : x ∈ s.out) : x ∈ (cqDrain n q s).out := by
  induction n generalizing s with
  | zero => exact h
  | succ n ih =>
    unfold cqDrain
    split
    · exact h
    · split
      · exact h
      · exact ih _ ((moderate_keeps _ _ _).2.2 _ (List.mem_cons_of_mem _ h))

/-- What has left the device stays when a descriptor's operation ends. -/
theorem mem_out_complete {x : Out} (h : x ∈ u.out) (htag : op.tag < planTag) (status flags result : Nat) : x ∈ (u.complete op status flags result).out := by
  unfold State.complete
  rw [if_neg (by omega), if_neg (by omega)]
  exact mem_out_cqDrain _ _ _ h

/-- The end of a descriptor's operation changes no operation that goes on, and adds none. -/
theorem ops_complete (htag : op.tag < planTag) (status flags result : Nat) {p : Op} (h : p ∈ (u.complete op status flags result).ops) (hgoing : p.done = false) :
    p ∈ u.ops := by
  unfold State.complete at h
  rw [if_neg (by omega), if_neg (by omega)] at h
  obtain ⟨p', hmem, rfl⟩ := List.mem_map.mp (cqDrain_ops _ _ _ p h)
  split at hgoing
  · contradiction
  · rename_i hother
    rwa [if_neg hother]

theorem toLe_mod (n v : Nat) : toLe n (v % 256 ^ n) = toLe n v := by
  induction n generalizing v with
  | zero => rfl
  | succ n ih =>
    have hhead : BitVec.ofNat 8 (v % 256 ^ (n + 1)) = BitVec.ofNat 8 v := by
      apply BitVec.eq_of_toNat_eq
      simp only [BitVec.toNat_ofNat, Nat.pow_succ']
      exact Nat.mod_mul_right_mod v 256 (256 ^ n)
    have htail : v % 256 ^ (n + 1) / 256 = v / 256 % 256 ^ n := by
      rw [Nat.pow_succ', Nat.mod_mul_right_div_self]
    rw [toLe, toLe, hhead, htail, ih]

/-- RESULT of a completion record is a 64-bit field (R340). -/
theorem complete_result_mod (status flags result : Nat) : u.complete op status flags (result % 2 ^ 64) = u.complete op status flags result := by
  have hrec : ∀ t c q, cqRec t status c q flags (result % 2 ^ 64) = cqRec t status c q flags result := fun t c q => by
    rw [cqRec, cqRec, show (2 : Nat) ^ 64 = 256 ^ 8 from rfl, toLe_mod]
  simp only [State.complete, State.postCq, hrec]

end

/-! ## Numbers in byte lists -/

theorem byteAt_append_right (l r : List Byte) {i : Nat} (h : l.length ≤ i) : byteAt (l ++ r) i = byteAt r (i - l.length) := by
  rw [byteAt, List.getD_append_right _ _ _ _ h, byteAt]

theorem leAt_append_right (l r : List Byte) (n : Nat) {i : Nat} (h : l.length ≤ i) : leAt (l ++ r) i n = leAt r (i - l.length) n := by
  induction n generalizing i with
  | zero => rfl
  | succ n ih => rw [leAt, leAt, byteAt_append_right l r h, ih (Nat.le_succ_of_le h), Nat.succ_sub h]

theorem leAt_toLe_append (n v : Nat) (r : List Byte) : leAt (toLe n v ++ r) 0 n = v % 256 ^ n := by
  induction n generalizing v with
  | zero => simp [leAt, Nat.mod_one]
  | succ n ih =>
    have htail : leAt (BitVec.ofNat 8 v :: (toLe n (v / 256) ++ r)) 1 n = leAt (toLe n (v / 256) ++ r) 0 n :=
      leAt_append_right [BitVec.ofNat 8 v] _ n (Nat.le_refl 1)
    have hhead : byteAt (BitVec.ofNat 8 v :: (toLe n (v / 256) ++ r)) 0 = v % 256 := BitVec.toNat_ofNat v 8
    rw [toLe, List.cons_append, leAt, hhead, htail, ih, Nat.pow_succ', Nat.mod_mul]

/-! ## CHALLENGE (R530 to R532) -/

section
variable (s : State)

theorem challengeBytes_length {nonce : List Byte} (h : nonce.length = 16) : (s.challengeBytes nonce).length = 32 := by
  simp [State.challengeBytes, h, toLe_length]

/-- Bytes 16 to 23 of a challenge are the device's identity, OTP row 0 (R530). -/
theorem challengeBytes_identity {nonce : List Byte} (h : nonce.length = 16) : leAt (s.challengeBytes nonce) 16 8 = (s.otpRead 0).toNat := by
  rw [State.challengeBytes, List.append_assoc, List.append_assoc, leAt_append_right _ _ _ (by omega), h, leAt_toLe_append]
  exact Nat.mod_eq_of_lt (s.otpRead 0).isLt

/-- Byte 25 of a challenge is the count of failed RESPONSEs (R530). -/
theorem challengeBytes_fails {nonce : List Byte} (h : nonce.length = 16) : byteAt (s.challengeBytes nonce) 25 = s.sec.respFails % 256 := by
  rw [State.challengeBytes, List.append_assoc, byteAt_append_right _ _ (by simp [h, toLe_length])]
  simp [h, toLe_length, byteAt]

/-- After 8 failed RESPONSEs a CHALLENGE is DENIED (R532). -/
theorem challengeStatus_afterFails (h : 8 ≤ s.sec.respFails) : s.challengeStatus = some stDenied := by
  simp [State.challengeStatus, h]

theorem challengeStatus_lt {status : Nat} (h : s.challengeStatus = some status) : status < 256 := by
  unfold State.challengeStatus at h
  split at h
  · cases h
    decide
  · split at h <;> cases h
    decide

/-- The challenge that s draws. -/
def State.newChallenge : List Byte := s.challengeBytes (s.freshBytes 16).1

theorem freshBytes_length (n : Nat) : (s.freshBytes n).1.length = n := by
  simp [State.freshBytes]

/-- Every RESPONSE that has started and is not decided is marked, to be DENIED (R531). -/
def State.overtakeResponses : State :=
  { s with ops := s.ops.map fun (p : Op) => if p.code == 0x71 && p.accepted && !p.done then { p with applied := true } else p }

/-- CHALLENGE op has drawn and written its challenge, and ends next (R530, R531). -/
def State.challengeDrawn (op : Op) : State :=
  ((({ s with free := s.free + 16, sec := { s.sec with chal := some s.newChallenge, chalAt := s.cycles } } : State).overtakeResponses).emit
    (.hostWrite (op.u64 8) s.newChallenge)).commit op

variable {s}

theorem overtakeResponses_marks {p : Op} (h : p ∈ s.overtakeResponses.ops) (hcode : p.code = 0x71) (hacc : p.accepted = true) (hgoing : p.done = false) :
    p.applied = true := by
  obtain ⟨p', -, hp⟩ := List.mem_map.mp h
  split at hp <;> subst hp
  · rfl
  · rename_i hno
    simp [hcode, hacc, hgoing] at hno

theorem challengeDrawn_overtakes {op p : Op} (h : p ∈ (s.challengeDrawn op).ops) (hcode : p.code = 0x71) (hacc : p.accepted = true) (hgoing : p.done = false) :
    p.applied = true := by
  obtain ⟨p', hmem, hp⟩ := List.mem_map.mp h
  have hmarked := overtakeResponses_marks (s := { s with free := _, sec := _ }) hmem
  split at hp <;> subst hp <;> exact hmarked hcode hacc hgoing

theorem inner_challengeDrawn (op : Op) :
    (s.challengeDrawn op).inner = ({ s with free := s.free + 16, sec := { s.sec with chal := some s.newChallenge, chalAt := s.cycles } } : State).inner := rfl

variable {o : Nat} {op : Op} (h : Starts s o 0x70 op)
include h

theorem challenge_refused {status : Nat} (hst : s.challengeStatus = some status) : exec (.challenge o) s = .next (s.complete op status) :=
  congrArg Host.Outcome.next (opRun_refused h rfl hst _)

theorem challenge_draws (hst : s.challengeStatus = none) : exec (.challenge o) s = .next ((s.challengeDrawn op).complete op stOk) :=
  congrArg Host.Outcome.next (opRun_starts h rfl hst _)

theorem challenge_refused_ends {status : Nat} (hst : s.challengeStatus = some status) : ∃ t, exec (.challenge o) s = .next t ∧ Ends s o status 0 t := by
  have hbyte := challengeStatus_lt s hst
  exact ⟨_, challenge_refused h hst, ends_of_starts h s hbyte (by decide)⟩

/-- A CHALLENGE that may draw (R530, R531). -/
theorem challenge_draws_ends (hst : s.challengeStatus = none) :
    ∃ t c, exec (.challenge o) s = .next t ∧ c.length = 32 ∧ leAt c 16 8 = (s.otpRead 0).toNat ∧ byteAt c 25 = s.sec.respFails % 256 ∧
      Ends { s with free := s.free + 16, sec := { s.sec with chal := some c, chalAt := s.cycles } } o stOk 0 t ∧ Out.hostWrite (op.u64 8) c ∈ t.out ∧
      ∀ p ∈ t.ops, p.code = 0x71 → p.accepted = true → p.done = false → p.applied = true := by
  have hnonce := freshBytes_length s 16
  obtain ⟨hlive, htag⟩ := live_of_starts_or_goes (.inl h)
  have htag' : op.tag < planTag := by rwa [liveOp_tag hlive]
  refine ⟨_, s.newChallenge, challenge_draws h hst, challengeBytes_length s hnonce, challengeBytes_identity s hnonce, challengeBytes_fails s hnonce,
    ends_of_live hlive htag (inner_challengeDrawn op) (by decide) (by decide), mem_out_complete (List.mem_cons_self ..) htag' _ _ _, fun p hp hcode hacc hgoing => ?_⟩
  exact challengeDrawn_overtakes (ops_complete htag' _ _ _ hp hgoing) hcode hacc hgoing

end

/-! ## RESPONSE (R531, R533) -/

section
variable {s : State} {o : Nat} {op : Op}

theorem response_waits (h : Starts s o 0x71 op) (hdata : op.data = none) : ∃ t, exec (.response o) s = .next t ∧ Accepts s o t := by
  obtain ⟨hfind, -, hgoing⟩ := liveOp_find h.1
  obtain rfl := liveOp_tag h.1
  refine ⟨s.modOp op.tag fun p => { p with accepted := true }, congrArg Host.Outcome.next ((opRun_starts h rfl rfl _).trans ?_), accepts_modOp hfind hgoing rfl _ rfl rfl rfl⟩
  rw [hdata]

/-- Whether a signature is good hangs on the live challenge and the integrator key alone (R531). The definition is replaced as a whole function: its equation at a state would have
the kernel evaluate the live challenge. -/
theorem responseGood_congr {s t : State} (hchal : t.liveChal = s.liveChal) (hkey : t.integratorKey = s.integratorKey) (sig : List Byte) :
    t.responseGood sig = s.responseGood sig := by
  obtain ⟨good, hgood⟩ : ∃ f, State.responseGood = f := ⟨_, rfl⟩
  rw [hgood]
  delta State.responseGood at hgood
  subst hgood
  dsimp only
  rw [hchal, hkey]

theorem liveChal_commit : (s.commit op).liveChal = s.liveChal := rfl

theorem integratorKey_commit : (s.commit op).integratorKey = s.integratorKey := by
  have hbytes : (s.commit op).nvmBytes 0 64 = s.nvmBytes 0 64 := rfl
  have hhash : (s.commit op).keyHash = s.keyHash := rfl
  simp only [State.integratorKey, hbytes, hhash]

theorem responseGood_commit (sig : List Byte) : (s.commit op).responseGood sig = s.responseGood sig :=
  responseGood_congr liveChal_commit integratorKey_commit sig

/-- A RESPONSE that fails counts (R533). -/
def State.responseFails (s : State) : State := { s with sec := { s.sec with respFails := satInc 15 s.sec.respFails } }

/-- What RESPONSE op leaves as it ends: one that a CHALLENGE has overtaken keeps the new challenge, any other uses the live one up (R531, R533). -/
def State.responseDecided (s : State) (op : Op) (sig : List Byte) : State :=
  if op.applied then s.responseFails
  else if s.responseGood sig then { s with sec := { s.sec with chal := none }, nvm := { s.nvm with reopened := true } }
  else State.responseFails { s with sec := { s.sec with chal := none } }

/-- The status with which it ends. -/
def State.responseStatus (s : State) (op : Op) (sig : List Byte) : Nat := if !op.applied && s.responseGood sig then stOk else stDenied

theorem response_decides {sig : List Byte} (h : Starts s o 0x71 op ∨ GoesOn s o 0x71 op) (hdata : op.data = some sig) :
    exec (.response o) s = .next (((s.commit op).responseDecided op sig).complete op (s.responseStatus op sig)) := by
  refine congrArg Host.Outcome.next ((opRun_live (h.imp_left fun h => ⟨h, rfl, rfl⟩) _).trans ?_)
  simp only [hdata, State.responseDecided, State.responseStatus, responseGood_commit]
  cases op.applied <;> cases s.responseGood sig <;> rfl

theorem inner_responseDecided (sig : List Byte) : ((s.commit op).responseDecided op sig).inner = (s.responseDecided op sig).inner := by
  simp only [State.responseDecided, responseGood_commit]
  split
  · rfl
  · split <;> rfl

theorem response_ends {sig : List Byte} (h : Starts s o 0x71 op ∨ GoesOn s o 0x71 op) (hdata : op.data = some sig) :
    ∃ t, exec (.response o) s = .next t ∧ Ends (s.responseDecided op sig) o (s.responseStatus op sig) 0 t := by
  obtain ⟨hlive, htag⟩ := live_of_starts_or_goes h
  have hbyte : s.responseStatus op sig < 256 := by
    unfold State.responseStatus
    split <;> decide
  exact ⟨_, response_decides h hdata, ends_of_live hlive htag (inner_responseDecided sig) hbyte (by decide)⟩

end

/-! ## RNG_READ (R541, R542) -/

section
variable {s : State} {o drawn m : Nat} {op : Op}

theorem rngRead_badLength (h : Starts s o 0x72 op) (hlen : op.u16 8 = 0 ∨ 4096 < op.u16 8) : exec (.rngRead o drawn) s = .next (s.complete op stBadDesc) := by
  refine congrArg Host.Outcome.next (opRun_bad h ?_ _ _)
  have hout : ¬ (1 ≤ op.u16 8 ∧ op.u16 8 ≤ 4096) := by omega
  simp only [hout, decide_false, Bool.not_false]

theorem rngRead_notReady (h : Starts s o 0x72 op) (hmin : 1 ≤ op.u16 8) (hmax : op.u16 8 ≤ 4096) (hready : s.sec.rngReady = false) :
    exec (.rngRead o drawn) s = .next (s.complete op stNotReady) :=
  congrArg Host.Outcome.next (opRun_refused h (by simp [hmin, hmax]) (by simp [hready]) _)

/-- RNG_READ op has drawn and written m more bytes (R541). -/
def State.rngDrawn (s : State) (op : Op) (m : Nat) : State :=
  ((((({ s with free := s.free + m } : State).emit (.hostWrite (op.u64 0x10 + op.step) (s.freshBytes m).1)).commit op).acceptOp op.tag).modOp op.tag
    fun p => { p with step := op.step + m })

theorem rngRead_draws (h : (Starts s o 0x72 op ∧ 1 ≤ op.u16 8 ∧ op.u16 8 ≤ 4096 ∧ s.sec.rngReady = true) ∨ GoesOn s o 0x72 op)
    (hm : m = min drawn (op.u16 8 - op.step)) :
    exec (.rngRead o drawn) s = .next (if op.step + m < op.u16 8 then s.rngDrawn op m else (s.rngDrawn op m).complete op stOk 0 (op.step + m)) := by
  subst hm
  refine congrArg Host.Outcome.next (opRun_live (h.imp_left ?_) _)
  rintro ⟨hstarts, hmin, hmax, hready⟩
  exact ⟨hstarts, by simp [hmin, hmax], by simp [hready]⟩

theorem inner_rngDrawn (m : Nat) : (s.rngDrawn op m).inner = ({ s with free := s.free + m } : State).inner := rfl

theorem findOp_rngDrawn (hfind : s.findOp op.tag = some op) (m : Nat) :
    ∃ p, (s.rngDrawn op m).findOp op.tag = some p ∧ p.step = op.step + m ∧ p.accepted = true ∧ p.done = op.done := by
  have hcommit := findOp_modOp (s := ({ s with free := s.free + m } : State).emit (.hostWrite (op.u64 0x10 + op.step) (s.freshBytes m).1)) hfind
    (fun p => { p with committed := true }) rfl
  have haccept := findOp_modOp hcommit (fun p => { p with accepted := true, since := if p.accepted then p.since else s.time.st }) rfl
  exact ⟨_, findOp_modOp haccept (fun p => { p with step := op.step + m }) rfl, rfl, rfl, rfl⟩

theorem u16_lt (p : Op) (off : Nat) : p.u16 off < 2 ^ 16 := by
  have hlow : byteAt p.desc off < 256 := BitVec.isLt _
  have hhigh : byteAt p.desc (off + 1) < 256 := BitVec.isLt _
  simp only [Op.u16, leAt]
  omega

/-- RNG_READ writes the bytes as they are drawn, goes on below LEN of them and ends with LEN (R541). -/
theorem rngRead_spec (h : (Starts s o 0x72 op ∧ 1 ≤ op.u16 8 ∧ op.u16 8 ≤ 4096 ∧ s.sec.rngReady = true) ∨ GoesOn s o 0x72 op) (hstep : op.step ≤ op.u16 8)
    (hm : m = min drawn (op.u16 8 - op.step)) :
    ∃ t b, exec (.rngRead o drawn) s = .next t ∧ b.length = m ∧ Out.hostWrite (op.u64 0x10 + op.step) b ∈ t.out ∧
      (if op.step + m < op.u16 8 then Accepts { s with free := s.free + m } o t ∧ ∃ p, t.findOp o = some p ∧ p.step = op.step + m
        else Ends { s with free := s.free + m } o stOk (op.u16 8) t) := by
  obtain ⟨hlive, htag⟩ := live_of_starts_or_goes (h.imp_left And.left)
  obtain ⟨hfind, -, hgoing⟩ := liveOp_find hlive
  have hself := liveOp_tag hlive
  have hwritten : Out.hostWrite (op.u64 0x10 + op.step) (s.freshBytes m).1 ∈ (s.rngDrawn op m).out := List.mem_cons_self ..
  refine ⟨_, (s.freshBytes m).1, rngRead_draws h hm, freshBytes_length s m, ?_⟩
  by_cases hmore : op.step + m < op.u16 8
  · rw [if_pos hmore, if_pos hmore]
    obtain ⟨p, hfound, hcount, haccepted, hsame⟩ := findOp_rngDrawn (by rwa [hself]) m
    rw [hself] at hfound
    exact ⟨hwritten, ⟨rfl, p, hfound, haccepted, hsame.trans hgoing⟩, p, hfound, hcount⟩
  · have hall : op.step + m = op.u16 8 := by omega
    have hlen := u16_lt op 8
    rw [if_neg hmore, if_neg hmore, hall]
    exact ⟨mem_out_complete hwritten (by rwa [hself]) _ _ _, ends_of_live hlive htag (inner_rngDrawn m) (by decide) (by omega)⟩

end

/-! ## The TRNG (R541, R542) -/

section
variable {s : State}

/-- A health test of the TRNG has failed: it counts, and the TRNG is not ready (R542). -/
def State.rngFailed (s : State) : State := { s with sec := { s.sec with rngReady := false, rngFails := satInc 0xFFFF s.sec.rngFails } }

/-- The RNG_READs that run. -/
def State.rngReads (s : State) : List Op := s.ops.filter fun p => p.code == 0x72 && p.accepted && !p.done

theorem rngRuns_eq_false : s.rngRuns = false ↔ s.pwr.st = .sleep ∨ s.pwr.st = .off := by
  simp only [State.rngRuns, Bool.not_eq_false', Bool.or_eq_true, beq_iff_eq]

theorem trngHealthFail_stands (h : s.rngRuns = false) : exec .trngHealthFail s = .next s :=
  congrArg Host.Outcome.next (if_pos (by simp [h]))

/-- At a failed health test every RNG_READ that runs ends PARTIAL (R542). -/
theorem trngHealthFail_ends_reads (h : s.rngRuns = true) :
    exec .trngHealthFail s = .next (s.rngReads.foldl (fun (s : State) (p : Op) => s.complete p stPartial 0 p.step) s.rngFailed) :=
  congrArg Host.Outcome.next (if_neg (by simp [h]))

theorem trngHealthFail_ends {o : Nat} {op : Op} (h : s.rngRuns = true) (hgoes : GoesOn s o 0x72 op) (honly : s.rngReads = [op]) :
    ∃ t, exec .trngHealthFail s = .next t ∧ Ends s.rngFailed o stPartial (op.step % 2 ^ 64) t := by
  refine ⟨_, trngHealthFail_ends_reads h, ?_⟩
  rw [honly, List.foldl_cons, List.foldl_nil, ← complete_result_mod]
  exact ends_of_goes hgoes _ (by decide) (Nat.mod_lt _ (by decide))

end

/-! ## LC_TRANSITION (R517, R518) -/

section
variable {s : State} {o : Nat} {op : Op} (h : Starts s o 0x73 op)
include h

theorem lcTransition_badCode (hcode : 5 < op.u8 8) : exec (.lcTransition o) s = .next (s.complete op stBadDesc) :=
  congrArg Host.Outcome.next (opRun_bad h (by simp [hcode]) _ _)

variable (hcode : op.u8 8 ≤ 5) (hseal : op.u8 8 = 3 → s.nvm.lc = .integration → (s.keyHash.any (· != 0)) = true ∧ s.guardsGood = true)

omit h in
include hcode hseal in
/-- A code up to 5 is no BAD_DESC where the seal has a key hash and good guard sets (R517). -/
theorem lcTransition_wellFormed :
    (decide (5 < op.u8 8) || (op.u8 8 == 3 && s.nvm.lc == .integration && ((s.keyHash.all (· == 0)) || !s.guardsGood))) = false := by
  by_cases hsealing : op.u8 8 = 3 ∧ s.nvm.lc = .integration
  · obtain ⟨hthree, hlc⟩ := hsealing
    obtain ⟨hkey, hguards⟩ := hseal hthree hlc
    have hnonzero : (s.keyHash.all (· == 0)) = false := by
      rw [List.all_eq_not_any_not]
      simpa [bne] using hkey
    simp only [hnonzero, hguards, Bool.not_true, Bool.or_self, Bool.and_false, hcode, Bool.or_false, decide_eq_false_iff_not, not_lt]
  · have hno : (op.u8 8 == 3 && s.nvm.lc == .integration) = false := by simpa using hsealing
    simp [hno, hcode]

include hcode hseal

theorem lcTransition_denied (hdenied : s.lcDenied (op.u8 8) = true) : exec (.lcTransition o) s = .next (s.complete op stDenied) :=
  congrArg Host.Outcome.next (opRun_refused h (lcTransition_wellFormed hcode hseal) (if_pos hdenied) _)

variable (hallowed : s.lcDenied (op.u8 8) = false)
include hallowed

/-- An allowed transition is BUSY while another runs, and so is a seal while a lane is in RUN; else its rows wait to be programmed (R517, R518). -/
theorem lcTransition_allowed :
    exec (.lcTransition o) s = .next (if s.nvm.lcJob ≠ none ∨ op.u8 8 = 3 ∧ s.anyRun = true then s.complete op stBusy
      else (s.modOp o fun p => { p with accepted := true }).modNvm fun n => { n with lcJob := some (o, s.lcRows (op.u8 8)) }) := by
  have hbusy : (s.nvm.lcJob.isSome || (op.u8 8 = 3 && s.anyRun)) = true ↔ s.nvm.lcJob ≠ none ∨ op.u8 8 = 3 ∧ s.anyRun = true := by
    simp [Option.isSome_iff_ne_none]
  refine congrArg Host.Outcome.next ((opRun_starts h (lcTransition_wellFormed hcode hseal) (if_neg (by simp [hallowed])) _).trans ?_)
  rw [← if_congr hbusy rfl rfl, ← liveOp_tag h.1]
  exact if_neg (by simp [h.2.1])

theorem lcTransition_accepts (hfree : s.nvm.lcJob = none) (hstill : op.u8 8 ≠ 3 ∨ s.anyRun = false) :
    ∃ t, exec (.lcTransition o) s = .next t ∧ Accepts { s with nvm := { s.nvm with lcJob := some (o, s.lcRows (op.u8 8)) } } o t := by
  obtain ⟨hfind, -, hgoing⟩ := liveOp_find h.1
  have hnot : ¬ (s.nvm.lcJob ≠ none ∨ op.u8 8 = 3 ∧ s.anyRun = true) := by
    rcases hstill with hstill | hstill <;> simp [hfree, hstill]
  refine ⟨_, (lcTransition_allowed h hcode hseal hallowed).trans (congrArg Host.Outcome.next (if_neg hnot)), rfl, ?_⟩
  exact ⟨_, findOp_modOp hfind (fun p => { p with accepted := true }) rfl, rfl, hgoing⟩

end

/-- Settles O47: each operation by what its checks answer and by the state in which it ends or waits. -/
theorem securityOperations : Obligations.SecurityOperations := by
  refine ⟨?_, ?_, ?_, ?_, ?_, ?_, ?_, ?_⟩
  · intro s o op h
    exact ⟨fun st hst => challenge_refused_ends h hst, fun hfails => challenge_refused_ends h (challengeStatus_afterFails s hfails), challenge_draws_ends h⟩
  · exact fun s o op h hdata => response_waits h hdata
  · intro s o op sig h hdata
    obtain ⟨t, hexec, hends⟩ := response_ends h hdata
    refine ⟨t, hexec, ?_⟩
    unfold State.responseDecided State.responseStatus at hends
    cases happlied : op.applied <;> cases hgood : s.responseGood sig <;> simpa [happlied, hgood, State.responseFails] using hends
  · exact fun s => rfl
  · intro s o op drawn h
    exact ⟨fun hlen => ⟨_, rngRead_badLength h hlen, ends_of_starts h s (by decide) (by decide)⟩,
      fun hmin hmax hready => ⟨_, rngRead_notReady h hmin hmax hready, ends_of_starts h s (by decide) (by decide)⟩⟩
  · exact fun s o op drawn m h hstep hm => rngRead_spec h hstep hm
  · exact fun s o op hruns hgoes honly => trngHealthFail_ends hruns hgoes honly
  · intro s o op h
    refine ⟨fun hcode => ⟨_, lcTransition_badCode h hcode, ends_of_starts h s (by decide) (by decide)⟩, fun hcode hseal => ⟨fun hdenied => ?_, fun hallowed hbusy => ?_,
      fun hallowed hfree hstill => lcTransition_accepts h hcode hseal hallowed hfree hstill⟩⟩
    · exact ⟨_, lcTransition_denied h hcode hseal hdenied, ends_of_starts h s (by decide) (by decide)⟩
    · rw [lcTransition_allowed h hcode hseal hallowed, if_pos hbusy]
      exact ⟨_, rfl, ends_of_starts h s (by decide) (by decide)⟩

end Sys2Proof.Machine

/-! PROOF. The TAP and its instructions by debug level, SCAN_EN, the TRNG, and the debug chain (R534 to R538, R541, R542). -/

namespace Sys2Proof.Machine

/-! ## The TAP (R534 to R537) -/

section
variable {s : State}

theorem idcode_toNat (h : s.grade.toNat < 3) : s.idcode.toNat = 2 ^ 28 + 2 ^ 12 * (0x5A10 + s.grade.toNat) + 2 * 0x2D7 + 1 := by
  unfold State.idcode State.part
  generalize s.grade.toNat = g at h
  interval_cases g <;> rfl

/-- Without its supply the TAP does nothing (R536). -/
theorem tapLoad_down (h : s.tapUp = false) (ir : Byte) (capture : DWord) : s.tapLoad ir capture = s :=
  if_pos (by simp [h])

/-- The TAP has loaded an instruction, which acts as another or itself and shows a register (R534, R535). -/
def State.tapLoaded (s : State) (ir acts : Byte) (capture : DWord) : State :=
  { s with sec := { s.sec with tapIr := ir }, out := .jtag acts capture :: s.out }

/-- An instruction that acts as itself captures its register. -/
theorem tapLoad_acts (h : s.tapUp = true) {ir : Byte} (hir : ir ≠ 0xFF) (hacts : s.tapActs ir = ir) (capture : DWord) :
    s.tapLoad ir capture = s.tapLoaded ir ir capture := by
  have hup : ¬ (!s.tapUp) = true := by simp [h]
  simp only [State.tapLoad, if_neg hup, hacts, if_neg hir]
  rfl

/-- One that acts as BYPASS shows the bypass register. -/
theorem tapLoad_bypassed (h : s.tapUp = true) {ir : Byte} (hacts : s.tapActs ir = 0xFF) (capture : DWord) :
    s.tapLoad ir capture = s.tapLoaded ir 0xFF 0 := by
  have hup : ¬ (!s.tapUp) = true := by simp [h]
  simp only [State.tapLoad, if_neg hup, hacts, if_pos]
  rfl

theorem tapActs_sample : s.tapActs 0x02 = if s.dbgLevel = 0 then 0xFF else 0x02 := by
  show (if 1 ≤ s.dbgLevel then (0x02 : Byte) else 0xFF) = _
  by_cases h : s.dbgLevel = 0
  · simp [h]
  · rw [if_pos (by omega), if_neg h]

/-- EXTEST, CLAMP and HIGHZ act with SCAN_EN set, at a level above CLOSED (R535, R537). -/
theorem tapActs_scan {ir : Byte} (hir : ir = 0x03 ∨ ir = 0x04 ∨ ir = 0x05) : s.tapActs ir = if s.dbgLevel = 0 ∨ s.scanEn = false then 0xFF else ir := by
  have hacts : s.tapActs ir = if 1 ≤ s.dbgLevel && s.scanEn then ir else 0xFF := by rcases hir with rfl | rfl | rfl <;> rfl
  have hallowed : (1 ≤ s.dbgLevel && s.scanEn) = true ↔ ¬ (s.dbgLevel = 0 ∨ s.scanEn = false) := by
    simp [Nat.one_le_iff_ne_zero]
  rw [hacts, if_congr hallowed rfl rfl, ite_not]

theorem tapActs_dbgSel_open (h : s.dbgLevel = 2) : s.tapActs 0x10 = 0x10 := if_pos h

theorem tapActs_dbgSel_closed (h : s.dbgLevel ≠ 2) : s.tapActs 0x10 = 0xFF := if_neg h

/-- A code without an instruction acts as BYPASS (R535). -/
theorem tapActs_reserved {ir : Byte} (h1 : ir ≠ 1) (h2 : ir ≠ 2) (h3 : ir ≠ 3) (h4 : ir ≠ 4) (h5 : ir ≠ 5) (h10 : ir ≠ 0x10) : s.tapActs ir = 0xFF := by
  unfold State.tapActs
  split
  case h_1 hk => exact absurd (BitVec.eq_of_toNat_eq hk) h1
  case h_2 hk => exact absurd (BitVec.eq_of_toNat_eq hk) h2
  case h_3 hk => exact absurd (BitVec.eq_of_toNat_eq hk) h3
  case h_4 hk => exact absurd (BitVec.eq_of_toNat_eq hk) h4
  case h_5 hk => exact absurd (BitVec.eq_of_toNat_eq hk) h5
  case h_6 hk => exact absurd (BitVec.eq_of_toNat_eq hk) h10
  case h_7 => rfl

end

/-! ## SCAN_EN and the TRNG (R537, R541, R542) -/

section
variable {s : State}

theorem mayScan_iff : s.mayScan = true ↔ s.pwr.st = .basting ∨ (s.twin.st = .off ∧ ∀ e ∈ s.lanes, e.2.st = .off) := by
  simp only [State.mayScan, Bool.or_eq_true, Bool.and_eq_true, beq_iff_eq, List.all_eq_true]

/-- A write of 1 to SCAN_EN is ignored where it may not be set (R537). -/
theorem scanEnWrite_answers (v : Word) :
    exec (.scanEnWrite v) s = .next (if v.getLsbD 0 = true ∧ ¬ (s.pwr.st = .basting ∨ (s.twin.st = .off ∧ ∀ e ∈ s.lanes, e.2.st = .off)) then s
      else s.setReg Reg.secDbgCtl 0 (v &&& 1)) := by
  have hignored : (wbit v 0 && !s.mayScan) = true ↔ v.getLsbD 0 = true ∧ ¬ (s.pwr.st = .basting ∨ (s.twin.st = .off ∧ ∀ e ∈ s.lanes, e.2.st = .off)) := by
    rw [← mayScan_iff, wbit, Bool.and_eq_true, Bool.not_eq_true', Bool.not_eq_true]
  exact congrArg Host.Outcome.next (if_congr hignored rfl rfl)

theorem trngReady_answers :
    exec .trngReady s = .next (if s.pwr.st = .sleep ∨ s.pwr.st = .off then s else { s with sec := { s.sec with rngReady := true } }) := by
  have hruns : s.rngRuns = true ↔ ¬ (s.pwr.st = .sleep ∨ s.pwr.st = .off) := by rw [← rngRuns_eq_false, Bool.not_eq_false]
  exact congrArg Host.Outcome.next ((if_congr hruns rfl rfl).trans (ite_not ..))

/-- The ends of descriptors' operations change nothing behind the host interface. -/
theorem inner_foldl_complete (l : List Op) (h : ∀ p ∈ l, p.tag < planTag) (status flags : Nat) (result : Op → Nat) :
    (l.foldl (fun (s : State) (p : Op) => s.complete p status flags (result p)) s).inner = s.inner := by
  induction l generalizing s with
  | nil => rfl
  | cons p l ih =>
    rw [List.foldl_cons, ih fun q hq => h q (List.mem_cons_of_mem _ hq), inner_complete _ _ _ _ _ (h p (List.mem_cons_self ..))]

theorem trngHealthFail_inner (hruns : s.rngRuns = true) (htags : ∀ p ∈ s.ops, p.code = 0x72 → p.tag < planTag) :
    ∃ t, exec .trngHealthFail s = .next t ∧ t.inner = s.rngFailed.inner := by
  refine ⟨_, trngHealthFail_ends_reads hruns, inner_foldl_complete _ (fun p hp => ?_) _ _ _⟩
  obtain ⟨hmem, hread⟩ := List.mem_filter.mp hp
  simp only [Bool.and_eq_true, beq_iff_eq] at hread
  obtain ⟨⟨hcode, -⟩, -⟩ := hread
  exact htags p hmem hcode

end

/-! ## What an instruction of the TAP leaves alone -/

section
variable (s : State) (ir : Byte) (capture : DWord)

theorem tapLoad_frame : ∃ c l, s.tapLoad ir capture = { s with sec := { s.sec with tapIr := c }, out := l } := by
  unfold State.tapLoad
  dsimp only
  split
  · exact ⟨s.sec.tapIr, s.out, rfl⟩
  · exact ⟨_, _, rfl⟩

@[simp] theorem thr_tapLoad (k : Nat) : (s.tapLoad ir capture).thr k = s.thr k := by
  obtain ⟨c, l, h⟩ := tapLoad_frame s ir capture
  rw [h]
  rfl

@[simp] theorem eng_tapLoad (e : Nat) : (s.tapLoad ir capture).eng e = s.eng e := by
  obtain ⟨c, l, h⟩ := tapLoad_frame s ir capture
  rw [h]
  rfl

@[simp] theorem dbg_tapLoad : (s.tapLoad ir capture).sec.dbg = s.sec.dbg := by
  obtain ⟨c, l, h⟩ := tapLoad_frame s ir capture
  rw [h]

theorem tapLoad_withSecOut (c : Sec) (l : List Out) : { s.tapLoad ir capture with sec := c, out := l } = { s with sec := c, out := l } := by
  obtain ⟨c', l', h⟩ := tapLoad_frame s ir capture
  rw [h]

end

/-! ## Lockstep pairs (R538) -/

section
variable {d : Debug} {p : Fin 2}

/-- A pair is halted, if it is not yet. -/
def Debug.halt (d : Debug) (p : Fin 2) : Debug := if d.halted p then d else { d with pairs := d.pairs + 2 ^ p.val }

/-- A halted pair goes on. -/
def Debug.resume (d : Debug) (p : Fin 2) : Debug := { d.forget p with pairs := d.pairs - 2 ^ p.val }

theorem halted_halt : (d.halt p).halted p = true := by
  unfold Debug.halt
  split
  · assumption
  · rename_i hclear
    show (d.pairs + 2 ^ p.val).testBit p.val = true
    rw [Nat.add_comm, Nat.testBit_two_pow_add_eq]
    simpa [Debug.halted, bitOf] using hclear

/-- Halting one pair does not carry into the bit of the other. -/
theorem halted_halt_other {k : Fin 2} (hk : k ≠ p) : (d.halt p).halted k = d.halted k := by
  unfold Debug.halt
  split
  · rfl
  · rename_i hclear
    simp only [Debug.halted, bitOf, Nat.testBit_eq_decide_div_mod_eq, decide_eq_true_eq] at hclear ⊢
    rw [decide_eq_decide]
    match p, k with
    | 0, 0 => contradiction
    | 1, 1 => contradiction
    | 0, 1 =>
      change ¬ d.pairs / 1 % 2 = 1 at hclear
      change (d.pairs + 1) / 2 % 2 = 1 ↔ d.pairs / 2 % 2 = 1
      omega
    | 1, 0 =>
      change (d.pairs + 2) / 1 % 2 = 1 ↔ d.pairs / 1 % 2 = 1
      omega

theorem halted_resume (h : d.halted p = true) : (d.resume p).halted p = false := by
  have hle : 2 ^ p.val ≤ d.pairs := Nat.ge_two_pow_of_testBit h
  have hsum : (2 ^ p.val + (d.pairs - 2 ^ p.val)).testBit p.val = true := by rwa [Nat.add_sub_cancel' hle]
  rw [Nat.testBit_two_pow_add_eq] at hsum
  simpa [Debug.resume, Debug.halted, bitOf] using hsum

/-- With no write waiting the return of the firmware changes nothing. -/
theorem fwFlush_idle {s : State} (h : s.sec.fwWrites = []) : s.fwFlush = s := by
  unfold State.fwFlush
  split
  · rfl
  · rw [h, List.foldl_nil]
    show { s with sec := { s.sec with fwWrites := [] } } = s
    rw [← h]

end

/-! ## Threads that the chain halts (R538) -/

section
variable {s : State}

theorem thr_thrTo_self (t : Nat) (st : ThrState) : ∃ a, (s.thrTo t st).thr t = { s.thr t with st := st, stAt := a } := by
  by_cases hst : (s.thr t).st = st
  · refine ⟨(s.thr t).stAt, ?_⟩
    rw [State.thrTo, if_pos hst, ← hst]
  · refine ⟨s.time.st, ?_⟩
    rw [thr_of_untraced (untraced_thrTo s t st hst), State.thr_setThr, if_pos rfl]

theorem thr_thrTo_other {t m : Nat} (hm : m ≠ t) (st : ThrState) : (s.thrTo t st).thr m = s.thr m := by
  by_cases hst : (s.thr t).st = st
  · rw [State.thrTo, if_pos hst]
  · rw [thr_of_untraced (untraced_thrTo s t st hst), State.thr_setThr, if_neg hm]

theorem sec_thrTo (t : Nat) (st : ThrState) : (s.thrTo t st).sec = s.sec :=
  State.part_congr State.plant State.sec (fun _ => rfl) (plant_thrTo ..)

/-- A thread that runs or waits is halted: the chain keeps the state it comes back to, and no other thread changes. -/
theorem dbgHaltThr_spec {t : Fin 16} (h : (s.thr t).st = .run ∨ (s.thr t).st = .wait) :
    ((s.dbgHaltThr t).thr t).st = .halted ∧ ((s.dbgHaltThr t).thr t).pc = (s.thr t).pc ∧
      ((s.dbgHaltThr t).sec.dbg.threads.find? fun e => e.1 == t.val) = some (t.val, (s.thr t).st) ∧ ∀ m, m ≠ t.val → (s.dbgHaltThr t).thr m = s.thr m := by
  have hhalt : s.dbgHaltThr t = ((s.modDbg fun d => { d with threads := (t.val, (s.thr t).st) :: d.threads.filter fun e => e.1 != t.val }).modThr t
      fun x => { x with sel := none }).thrTo t .halted := by
    unfold State.dbgHaltThr
    rcases h with h | h <;> simp only [h]
  rw [hhalt]
  generalize hv : (s.modDbg _).modThr t _ = v
  have hself : v.thr t = { s.thr t with sel := none } := by
    rw [← hv, State.modThr, State.thr_setThr, if_pos rfl]
    rfl
  obtain ⟨a, hto⟩ := thr_thrTo_self (s := v) t .halted
  refine ⟨by rw [hto], by rw [hto, hself], ?_, fun m hm => ?_⟩
  · rw [sec_thrTo, ← hv]
    exact List.find?_cons_of_pos (beq_self_eq_true _)
  · rw [thr_thrTo_other hm, ← hv, State.modThr, State.thr_setThr, if_neg hm]
    rfl

/-- The state kept for a halted thread is the one that stands first for it. -/
theorem dbgThr_halted {t : Fin 16} {st : ThrState} (hst : (s.thr t).st = .halted) (hfind : (s.sec.dbg.threads.find? fun e => e.1 == t.val) = some (t.val, st)) :
    s.dbgThr t = some st := by
  simp [State.dbgThr, hst, hfind]

/-- A thread that the chain lets go on comes back to the state kept for it, at its pc. -/
theorem dbgResumeThr_spec {t : Fin 16} {st : ThrState} (h : s.dbgThr t = some st) :
    ((s.dbgResumeThr t).thr t).st = st ∧ ((s.dbgResumeThr t).thr t).pc = (s.thr t).pc := by
  have hresume : s.dbgResumeThr t = ((s.modDbg fun d => { d with threads := d.threads.filter fun e => e.1 != t.val }).thrTo t st).select t := by
    simp only [State.dbgResumeThr, h]
  rw [hresume]
  obtain ⟨a, hto⟩ := thr_thrTo_self (s := s.modDbg fun d => { d with threads := d.threads.filter fun e => e.1 != t.val }) t st
  generalize State.thrTo _ _ _ = v at hto
  rw [noSel_congr ((select_spec v t).1 t), hto]
  exact ⟨rfl, rfl⟩

end

/-- A word written into a period-program memory is read there, and every other word stays (R538). -/
theorem image_setProgWord (g : Engine) (a : Fin 256) (v : Word) (i : Nat) :
    (g.setProgWord a v).image.getD i 0 = if i = a.val then v else g.image.getD i 0 := by
  show ((List.range (max g.image.length (a.val + 1))).map fun i => if i = a.val then v else g.image.getD i 0).getD i 0 = _
  by_cases hi : i < max g.image.length (a.val + 1)
  · rw [List.getD_eq_getElem?_getD, List.getElem?_map, List.getElem?_range hi]
    rfl
  · rw [List.getD_eq_default _ _ (by simpa using hi), if_neg (by omega), List.getD_eq_default _ _ (by omega)]

/-! ## DBG_SEL (R535, R538) -/

section
variable {s : State} (hup : s.tapUp = true)
include hup

/-- Below OPEN, and where the chain has no supply, DBG_SEL reaches nothing (R535, R536). -/
theorem dbgSel_unreached (hclosed : s.dbgLevel ≠ 2 ∨ s.chainUp = false) (q : DbgReq) :
    exec (.jtagDbgSel q) s = .next (s.tapLoaded 0x10 (if s.dbgLevel = 2 then 0x10 else 0xFF) 0) := by
  have hno : ¬ (s.tapUp && s.tapActs 0x10 = 0x10 && s.chainUp) = true := by
    rcases hclosed with hclosed | hdown
    · rw [tapActs_dbgSel_closed hclosed]
      simp
    · simp [hdown]
  refine congrArg Host.Outcome.next ((if_neg hno).trans ?_)
  by_cases hopen : s.dbgLevel = 2
  · rw [if_pos hopen]
    exact tapLoad_acts hup (by decide) (tapActs_dbgSel_open hopen) 0
  · rw [if_neg hopen]
    exact tapLoad_bypassed hup (tapActs_dbgSel_closed hopen) 0

variable (hopen : s.dbgLevel = 2) (hchain : s.chainUp = true)
include hopen hchain

/-- In OPEN one access is made through the chain, and its word is shifted out (R538). -/
theorem dbgSel_accesses (q : DbgReq) : exec (.jtagDbgSel q) s = .next ((dbgAccess q s).2.tapLoad 0x10 ((dbgAccess q s).1.setWidth 64)) :=
  congrArg Host.Outcome.next (if_pos (by rw [tapActs_dbgSel_open hopen, hup, hchain]; rfl))

/-- An access that changes nothing shows its word. -/
theorem dbgSel_shows {q : DbgReq} {w : Word} (h : dbgAccess q s = (w, s)) : exec (.jtagDbgSel q) s = .next (s.tapLoaded 0x10 0x10 (w.setWidth 64)) := by
  rw [dbgSel_accesses hup hopen hchain, h]
  exact congrArg Host.Outcome.next (tapLoad_acts hup (by decide) (tapActs_dbgSel_open hopen) _)

theorem dbgSel_select : exec (.jtagDbgSel .select) s = .next (s.tapLoaded 0x10 0x10 0) :=
  dbgSel_shows (w := 0) hup hopen hchain rfl

theorem dbgSel_halt (p c : Fin 2) :
    ∃ t, exec (.jtagDbgSel (.halt p c)) s = .next t ∧ t.sec.dbg.halted p = true ∧ (∀ k, k ≠ p → t.sec.dbg.halted k = s.sec.dbg.halted k) ∧
      { t with sec := s.sec, out := s.out } = s := by
  refine ⟨(s.modDbg fun d => d.halt p).tapLoad 0x10 0, dbgSel_accesses hup hopen hchain _, ?_, fun k hk => ?_, tapLoad_withSecOut ..⟩
  · rw [dbg_tapLoad]
    exact halted_halt
  · rw [dbg_tapLoad]
    exact halted_halt_other hk

theorem dbgSel_resume {p : Fin 2} (hhalted : s.sec.dbg.halted p = true) (hidle : s.sec.fwWrites = []) :
    ∃ t, exec (.jtagDbgSel (.resume p)) s = .next t ∧ t.sec.dbg.halted p = false ∧ { t with sec := s.sec, out := s.out } = s := by
  have haccess : dbgAccess (.resume p) s = (0, s.modDbg fun d => d.resume p) := by
    show ((0 : Word), if s.sec.dbg.halted p then (s.modDbg fun d => d.resume p).fwFlush else s) = _
    rw [if_pos hhalted, fwFlush_idle (by exact hidle)]
  refine ⟨_, dbgSel_accesses hup hopen hchain _, ?_, ?_⟩
  · rw [haccess, dbg_tapLoad]
    exact halted_resume hhalted
  · rw [haccess]
    exact tapLoad_withSecOut ..

/-- Hem guards, OTP programming, the key hash and the TRNG are not reached (R538). -/
theorem dbgSel_barred {a : Nat} (ha : a < 0x100000) (hbarred : dbgBarred a = true) (v : Word) :
    exec (.jtagDbgSel (.readMem a)) s = exec (.jtagDbgSel .select) s ∧ exec (.jtagDbgSel (.writeMem a v)) s = exec (.jtagDbgSel .select) s := by
  rw [dbgSel_select hup hopen hchain]
  have hread : dbgAccess (.readMem a) s = (0, s) := (if_pos ha).trans (if_pos hbarred)
  have hwrite : s.memWrite a v = s := (if_pos ha).trans (if_pos hbarred)
  exact ⟨dbgSel_shows (w := 0) hup hopen hchain hread, dbgSel_shows (w := 0) hup hopen hchain (congrArg (Prod.mk 0) hwrite)⟩

variable (hunits : s.unitsUp = true)
include hunits

theorem dbgSel_haltThread {k : Fin 16} (h : (s.thr k).st = .run ∨ (s.thr k).st = .wait) :
    ∃ t, exec (.jtagDbgSel (.haltThread k)) s = .next t ∧ (t.thr k).st = .halted ∧ (t.thr k).pc = (s.thr k).pc ∧ t.dbgThr k = some (s.thr k).st ∧
      ∀ j, j ≠ k.val → t.thr j = s.thr j := by
  have haccess : dbgAccess (.haltThread k) s = (0, s.dbgHaltThr k) := congrArg (Prod.mk 0) (if_pos hunits)
  obtain ⟨hst, hpc, hkept, hothers⟩ := dbgHaltThr_spec h
  refine ⟨_, dbgSel_accesses hup hopen hchain _, ?_⟩
  rw [haccess]
  exact ⟨by rw [thr_tapLoad, hst], by rw [thr_tapLoad, hpc], dbgThr_halted (by rw [thr_tapLoad, hst]) (by rw [dbg_tapLoad, hkept]),
    fun j hj => by rw [thr_tapLoad, hothers j hj]⟩

theorem dbgSel_resumeThread {k : Fin 16} {st : ThrState} (h : s.dbgThr k = some st) :
    ∃ t, exec (.jtagDbgSel (.resumeThread k)) s = .next t ∧ (t.thr k).st = st ∧ (t.thr k).pc = (s.thr k).pc := by
  have haccess : dbgAccess (.resumeThread k) s = (0, s.dbgResumeThr k) := congrArg (Prod.mk 0) (if_pos hunits)
  obtain ⟨hst, hpc⟩ := dbgResumeThr_spec h
  refine ⟨_, dbgSel_accesses hup hopen hchain _, ?_⟩
  rw [haccess, thr_tapLoad]
  exact ⟨hst, hpc⟩

theorem dbgSel_readThread (k i : Fin 16) : exec (.jtagDbgSel (.readThread k i)) s = .next (s.tapLoaded 0x10 0x10 ((s.patReg k i).setWidth 64)) :=
  dbgSel_shows hup hopen hchain (congrArg (fun w => (w, s)) (if_pos hunits))

theorem dbgSel_writeThread {k i : Fin 16} {st : ThrState} (h : s.dbgThr k = some st) (hi : i.val ≠ 0) (v : Word) :
    ∃ t, exec (.jtagDbgSel (.writeThread k i v)) s = .next t ∧ t.patReg k i = v ∧ ∀ j, j < 16 → j ≠ i.val → t.patReg k j = s.patReg k j := by
  have haccess : dbgAccess (.writeThread k i v) s = (0, s.modThr k fun x => x.setReg i v) := congrArg (Prod.mk 0) (if_pos (by simp [hunits, h]))
  have hreg : ∀ j, ((s.modThr k fun x => x.setReg i v).tapLoad 0x10 (BitVec.setWidth 64 0#32)).patReg k j = if j = i.val then v else s.patReg k j := fun j => by
    rw [State.patReg, thr_tapLoad, State.modThr, State.thr_setThr, if_pos rfl, thr_reg_setReg, if_neg hi]
    rfl
  refine ⟨_, dbgSel_accesses hup hopen hchain _, ?_⟩
  rw [haccess]
  exact ⟨(hreg i).trans (if_pos rfl), fun j _ hj => (hreg j).trans (if_neg hj)⟩

theorem dbgSel_readProgram (e : Fin 1088) (a : Fin 256) :
    exec (.jtagDbgSel (.readProgram e a)) s = .next (s.tapLoaded 0x10 0x10 (((s.eng e).image.getD a 0).setWidth 64)) :=
  dbgSel_shows hup hopen hchain (congrArg (fun w => (w, s)) (if_pos hunits))

theorem dbgSel_writeProgram (e : Fin 1088) (a : Fin 256) (v : Word) :
    ∃ t, exec (.jtagDbgSel (.writeProgram e a v)) s = .next t ∧ ∀ i, (t.eng e).image.getD i 0 = if i = a.val then v else (s.eng e).image.getD i 0 := by
  have haccess : dbgAccess (.writeProgram e a v) s = (0, s.setEng e ((s.eng e).setProgWord a v)) := congrArg (Prod.mk 0) (if_pos hunits)
  refine ⟨_, dbgSel_accesses hup hopen hchain _, fun i => ?_⟩
  rw [haccess, eng_tapLoad, State.eng_setEng, if_pos rfl, image_setProgWord]

end

/-! ## The instructions of the TAP (R535, R537) -/

section
variable {s : State}

theorem jtag_unpowered (h : s.tapUp = false) (pins pre : DWord) (ir : Byte) (q : DbgReq) :
    exec .jtagIdcode s = .next s ∧ exec (.jtagSamplePreload pins pre) s = .next s ∧ exec .jtagExtest s = .next s ∧ exec .jtagClamp s = .next s ∧ exec .jtagHighz s = .next s ∧
      exec (.jtagDbgSel q) s = .next s ∧ exec (.jtagBypass ir) s = .next s := by
  have hload : ∀ ir capture, Host.Outcome.next (s.tapLoad ir capture) = (.next s : Host.Outcome State Fault Refusal) := fun ir capture => by
    rw [tapLoad_down h]
  exact ⟨hload .., (congrArg Host.Outcome.next (if_neg (by simp [h]))).trans (hload ..), hload .., hload .., hload ..,
    (congrArg Host.Outcome.next (if_neg (by simp [h]))).trans (hload ..), hload ..⟩

variable (hup : s.tapUp = true)
include hup

theorem jtagSamplePreload_answers (pins pre : DWord) :
    exec (.jtagSamplePreload pins pre) s = .next (if s.dbgLevel = 0 then s.tapLoaded 0x02 0xFF 0
      else (s.tapLoaded 0x02 0x02 pins).modSec fun c => { c with bsr := pre }) := by
  refine congrArg Host.Outcome.next ?_
  by_cases hclosed : s.dbgLevel = 0
  · have hacts : s.tapActs 0x02 = 0xFF := tapActs_sample.trans (if_pos hclosed)
    rw [if_pos hclosed, ← tapLoad_bypassed hup hacts pins]
    exact if_neg (by rw [hup, hacts]; decide)
  · have hacts : s.tapActs 0x02 = 0x02 := tapActs_sample.trans (if_neg hclosed)
    rw [if_neg hclosed, ← tapLoad_acts hup (by decide) hacts pins]
    exact if_pos (by rw [hup, hacts]; rfl)

/-- An instruction of boundary scan acts, or is BYPASS where the level or SCAN_EN bars it (R535, R537). -/
theorem tapLoad_scan {ir : Byte} (hir : ir = 0x03 ∨ ir = 0x04 ∨ ir = 0x05) (capture : DWord) :
    s.tapLoad ir capture = if s.dbgLevel = 0 ∨ s.scanEn = false then s.tapLoaded ir 0xFF 0 else s.tapLoaded ir ir capture := by
  have hne : ir ≠ 0xFF := by rcases hir with rfl | rfl | rfl <;> decide
  by_cases hbarred : s.dbgLevel = 0 ∨ s.scanEn = false
  · rw [if_pos hbarred, tapLoad_bypassed hup ((tapActs_scan hir).trans (if_pos hbarred))]
  · rw [if_neg hbarred, tapLoad_acts hup hne ((tapActs_scan hir).trans (if_neg hbarred))]

end

/-- Settles O59: the TAP by what its instruction acts as, the debug chain by its accesses. -/
theorem tapScanAndTrng : Obligations.TapScanAndTrng := by
  refine ⟨⟨?_, ?_, ?_, ?_, ?_, ?_, ?_, ?_⟩, ?_, ?_⟩
  · exact fun s hgrade => idcode_toNat hgrade
  · exact fun s pins pre ir q hdown => jtag_unpowered hdown pins pre ir q
  · intro s u pins pre hup
    refine ⟨?_, ?_, ?_, ?_, ?_, ?_⟩
    · rintro rfl
      exact congrArg Host.Outcome.next (tapLoad_acts hup (by decide) rfl _)
    · rintro rfl
      exact jtagSamplePreload_answers hup pins pre
    · rintro rfl
      refine congrArg Host.Outcome.next ((tapLoad_scan hup (.inl rfl) _).trans ?_)
      split <;> rfl
    · rintro rfl
      refine congrArg Host.Outcome.next ((tapLoad_scan hup (.inr (.inl rfl)) _).trans ?_)
      split <;> rfl
    · rintro rfl
      refine congrArg Host.Outcome.next ((tapLoad_scan hup (.inr (.inr rfl)) _).trans ?_)
      split <;> rfl
    · rintro ir h1 h2 h3 h4 h5 h10 rfl
      exact congrArg Host.Outcome.next (tapLoad_bypassed hup (tapActs_reserved h1 h2 h3 h4 h5 h10) 0)
  · exact fun s => rfl
  · exact fun s v => scanEnWrite_answers v
  · exact fun s => trngReady_answers
  · exact fun s hoff => trngHealthFail_stands (rngRuns_eq_false.mpr hoff)
  · intro s hsleep hoff htags
    have hruns : s.rngRuns = true := by simp [State.rngRuns, hsleep, hoff]
    exact trngHealthFail_inner hruns htags
  · exact fun s q hup hclosed => dbgSel_unreached hup hclosed q
  · intro s hup hopen hchain
    exact ⟨⟨_, dbgSel_select hup hopen hchain, rfl⟩, fun p c => dbgSel_halt hup hopen hchain p c, fun p hhalted hidle => dbgSel_resume hup hopen hchain hhalted hidle,
      fun a v ha hbarred => dbgSel_barred hup hopen hchain ha hbarred v, fun k hunits h => dbgSel_haltThread hup hopen hchain hunits h,
      fun k st hunits h => dbgSel_resumeThread hup hopen hchain hunits h, fun k i hunits => dbgSel_readThread hup hopen hchain hunits k i,
      fun k i v st hunits h hi => dbgSel_writeThread hup hopen hchain hunits h hi v, fun e a hunits => dbgSel_readProgram hup hopen hchain hunits e a,
      fun e a v hunits => dbgSel_writeProgram hup hopen hchain hunits e a v⟩

end Sys2Proof.Machine
